-- ==== Sys2Proof/Word.lean ====
section
/-! DEFINITION. The word types and their plainest arithmetic (R2, R3, R7). -/

namespace Sys2Proof

/-- A byte (R2). -/
abbrev Byte := BitVec 8
/-- A half, 16 bits (R2). -/
abbrev Half := BitVec 16
/-- A word, 32 bits (R2). -/
abbrev Word := BitVec 32
/-- A doubleword, 64 bits (R2). -/
abbrev DWord := BitVec 64
/-- A vector register, 128 bits (R17). -/
abbrev VReg := BitVec 128
/-- A line of 32 bytes (R2); bits [7:0] are the byte at the lowest address (R3). -/
abbrev Line := BitVec 256
/-- A release signature (R294). -/
abbrev Sig := BitVec 512

/-- `rotl(x, n)` of R7 on a 32-bit x. -/
def rotl32 (x : Word) (n : Nat) : Word := x.rotateLeft (n % 32)

/-- A 64-bit value from its low and high words. -/
def join (hi lo : Word) : DWord := hi ++ lo

/-- The low word of a doubleword. -/
def loWord (x : DWord) : Word := x.extractLsb' 0 32
/-- The high word of a doubleword. -/
def hiWord (x : DWord) : Word := x.extractLsb' 32 32

/-- Byte i of a value, counted from its lowest address (R3). -/
def byteOf {w : Nat} (x : BitVec w) (i : Nat) : Byte := x.extractLsb' (8 * i) 8

/-- A Bool as a word. -/
def ofBool32 (b : Bool) : Word := if b then 1 else 0

end Sys2Proof
end

