-- ==== Sys2Proof/Config.lean ====
section
/-! DEFINITION. What the manual leaves free. Each constant below has no body, so nothing in Lean can evaluate it and
a theorem holds whatever it is; its docstring names the rule that leaves it open. -/

namespace Sys2Proof.Config

/-- The 32 bytes that a unit last written under key `written` (none: never written) reads as under another key
(R70: unrelated bytes). DESIGN CHOICE, log entry 7. -/
opaque unrelated (written reader : Option Nat) (unit : Nat) : Line

/-- The bytes that a slice receives from a unit whose read meets an uncorrectable error (R106: whatever bytes).
DESIGN CHOICE, log entry 88. -/
opaque receivedBytes (n : Nat) : Line

/-- Whether, and which, line the L1 drops when it installs a line (R149: placement and replacement are not visible). DESIGN CHOICE, log entry 14. -/
opaque l1Victim (n : Nat) : Option Nat

/-- Whether, and which, leaf a slice's translation cache drops when it installs one (R82 names only the capacity). DESIGN CHOICE, log entry 14. -/
opaque tcVictim (n : Nat) : Option Nat

/-- Whether bytes of a store that its target reported as not performed reached the target (R342: undefined). DESIGN CHOICE, log entry 87. -/
opaque refusedStoreLands (n : Nat) : Bool

/-- The bytes of 32-byte unit i of image n, as SAVE lays them out (R366 gives the sections and not their bytes). DESIGN CHOICE, log entry 10. -/
opaque imageUnit (n i : Nat) : Line

/-- The record of image n that its unit i belongs to: 0 the header, then the slot records of its threads, its banks and its ticket
entries in their order, and another for every other record (R366). DESIGN CHOICE, log entry 74. -/
opaque imageRecord (n i : Nat) : Nat

/-- The place, in units of 32 bytes, of unit i of image n in the bank or ticket whose record it belongs to, and the bytes that a unit of
other content restores there (R366). DESIGN CHOICE, log entry 74. -/
opaque imagePlace (n i : Nat) : Nat
opaque imageBytes (n i : Nat) (x : Line) : Line

/-- The bytes that a context image needs for a shape (R352: CTXLEN gives the exact size; the layout is not given). DESIGN CHOICE, log entry 94. -/
opaque contextLength (shape : DWord) : DWord

/-- The image that a firmware slot holds at the first start (R380, Reset "start"). DESIGN CHOICE, log entry 6. -/
opaque factoryImage (imageB : Bool) : List (BitVec 8)

/-- The fused minimum security version at the first start (R380, Reset "start"). DESIGN CHOICE, log entry 6. -/
opaque factorySvnMin : BitVec 16

/-- The fused identity public key (R380). DESIGN CHOICE, log entry 6. -/
opaque idPub : BitVec 256

/-- The SHA-512 digest of the ROM (R382). DESIGN CHOICE, log entry 83. -/
opaque romDigest : BitVec 512

/-- Whether 64 bytes are a correct Ed25519 signature of a digest under the vendor key (R381). DESIGN CHOICE, log entry 83. -/
opaque vendorSigned (digest : BitVec 512) (signature : List (BitVec 8)) : Bool

/-- The security version in the header of an image, whose layout is not given (R381). DESIGN CHOICE, log entry 83. -/
opaque imageSvn (bytes : List (BitVec 8)) : BitVec 16

/-- How long the attestation report of a request takes (R380 gives ATBUSY no length). DESIGN CHOICE, log entry 117. -/
opaque reportTime (n : Nat) : Nat

/-- By how much the power limit stretches the elastic quads (R16, R327: by eighths, how many is not stated). DESIGN CHOICE, log entry 118. -/
opaque powerStretch (n : Nat) : Nat

/-- The doubleword at an offset of a function's configuration space that the manual does not give (R360). DESIGN CHOICE, log entry 114. -/
opaque configSpace (fn offset : Nat) : DWord

/-- The Ed25519 signature by the identity key over a report's digest (R382: the private key is not given). DESIGN CHOICE, log entry 83. -/
opaque identitySignature (digest : BitVec 512) : BitVec 512

/-- Whether the checksums of tile number n disagree on its first (0) or second (1) run (R263: never on correct hardware). DEDUCED, log entry 90. -/
opaque tileMismatch (n run : Nat) : Bool

/-- KIND in word 0 of the completion of an AXPUSH (true) or AXPOP copy (R75, R127: not stated). DESIGN CHOICE, log entry 86. -/
opaque axKind (push : Bool) : BitVec 8

/-- How many of the operations on their way to a sluice engine an operation reaches it before (R76: arrival order). DESIGN CHOICE, log entry 38. -/
opaque arrivalPlace (n : Nat) : Nat

/-- Which of the things that a comb unit could do it does next (R276, R277: only their effects are ordered). DESIGN CHOICE, log entry 38. -/
opaque combTurn (n : Nat) : Nat

/-- STALE of a sampled entry whose record could not be read (R278, R284: VER is not known). DESIGN CHOICE, log entry 50. -/
opaque unreadStale (n : Nat) : Bool

end Sys2Proof.Config
end

