-- ==== Sys2Proof/Machine/Table.lean ====
section
/-! DEFINITION. Finite maps as plain data: a list of (number, value) pairs with rising keys, and memory as one of them
in its canonical form (R3). -/

namespace Sys2Proof.Machine

/-- A finite map from numbers, kept in rising order of its keys. -/
abbrev Table (ν : Type) := List (Nat × ν)

/-- The value at a key. -/
def Table.get? {ν : Type} (t : Table ν) (k : Nat) : Option ν :=
  match t with
  | [] => none
  | (j, v) :: r => if j = k then some v else Table.get? r k

/-- The value at a key, or a default. -/
def Table.getD {ν : Type} (t : Table ν) (k : Nat) (d : ν) : ν := (Table.get? t k).getD d

/-- The map without a key. -/
def Table.erase {ν : Type} (t : Table ν) (k : Nat) : Table ν := t.filter (fun p => p.1 != k)

/-- The map with a pair put at its place among rising keys; the key is absent before. -/
def Table.put {ν : Type} (t : Table ν) (k : Nat) (v : ν) : Table ν :=
  match t with
  | [] => [(k, v)]
  | (j, u) :: r => if k < j then (k, v) :: (j, u) :: r else (j, u) :: Table.put r k v

/-- The map with a key's value set. -/
def Table.set {ν : Type} (t : Table ν) (k : Nat) (v : ν) : Table ν := Table.put (Table.erase t k) k v

/-- The keys rise. -/
def Table.rising {ν : Type} (t : Table ν) : Bool :=
  match t with
  | [] => true
  | (_, _) :: [] => true
  | (j, _) :: (k, u) :: r => decide (j < k) && Table.rising ((k, u) :: r)

/-- Bytes by address. An address that is not listed reads as `Memory.unlisted`. -/
abbrev Memory := List Host.Cell

/-- What an unlisted address reads as (R144, R379 for SRAM; a choice of the model for host memory, log entry 8).
DESIGN CHOICE, log entry 8. -/
def Memory.unlisted : Byte := 0

/-- The byte at an address. -/
def Memory.read (m : Memory) (a : Nat) : Byte := Table.getD m a Memory.unlisted

/-- The memory after one byte is written; the canonical form lists no byte equal to `unlisted`. -/
def Memory.write (m : Memory) (a : Nat) (b : Byte) : Memory :=
  if b = Memory.unlisted then Table.erase m a else Table.set m a b

/-- Addresses rise and no listed byte equals `unlisted`. -/
def Memory.wf (m : Memory) : Bool := Table.rising m && m.all (fun c => c.2 != Memory.unlisted)

/-- n bytes from an address, lowest address first. -/
def Memory.bytes (m : Memory) (a : Nat) (n : Nat) : List Byte := (List.range n).map (fun i => Memory.read m (a + i))

/-- Bytes written from an address upward. -/
def Memory.writeBytes (m : Memory) (a : Nat) (bs : List Byte) : Memory :=
  match bs with
  | [] => m
  | b :: r => Memory.writeBytes (Memory.write m a b) (a + 1) r

/-- Little-endian value of bytes (R3). -/
def leNat (bs : List Byte) : Nat :=
  match bs with
  | [] => 0
  | b :: r => b.toNat + 256 * leNat r

/-- The n bytes of a value, lowest address first (R3). -/
def leBytes (v : Nat) (n : Nat) : List Byte :=
  match n with
  | 0 => []
  | k + 1 => .ofNat 8 v :: leBytes (v / 256) k

/-- A memory without the cells of an address range. -/
def Memory.clear (m : Memory) (a n : Nat) : Memory := m.filter (fun c => c.1 < a || a + n ≤ c.1)

end Sys2Proof.Machine
end

