-- ==== Sys2Proof/Machine/Sha.lean ====
section
/-! DEFINITION. SHA-512 (FIPS 180-4), which the reproducibility signature and the attestation report name (R334, R382).
Its constants are computed from their definition, the fractional parts of roots of primes; the eight working variables are
kept as two histories, of the values that a and e took, newest first. -/

namespace Sys2Proof.Machine

/-- The primes below 410: eighty of them. -/
def shaPrimes : List Nat :=
  (List.range 410).filter (fun p => 2 ≤ p && (List.range 19).all (fun i => p ≤ i + 2 || p % (i + 2) != 0))

/-- The greatest r + x with x below 2^bits and (r + x)^e at most v, its bits found from the highest down. -/
def rootFrom (e v : Nat) (bits r : Nat) : Nat :=
  match bits with
  | 0 => r
  | k + 1 => rootFrom e v k (if (r + 2 ^ k) ^ e ≤ v then r + 2 ^ k else r)

/-- The first 64 bits of the fractional part of the e-th root of p. -/
def rootFraction (e p : Nat) : Nat := rootFrom e (p * 2 ^ (64 * e)) 70 0 % 2 ^ 64

/-- Rotations of a word, exclusive-or of three. -/
def turned (x : DWord) (i j k : Nat) : DWord := x.rotateRight i ^^^ (x.rotateRight j ^^^ x.rotateRight k)

/-- The word of the message schedule that follows those of a list, newest first. -/
def shaNext (ws : List DWord) : DWord :=
  let mix (x : DWord) (i j sh : Nat) : DWord := (x.rotateRight i ^^^ x.rotateRight j) ^^^ (x >>> sh)
  match ws.drop 1, ws.drop 6, ws.drop 14 with
  | two :: _, seven :: _, fifteen :: sixteen :: _ => sixteen + seven + mix fifteen 1 8 7 + mix two 19 61 6
  | _, _, _ => 0

/-- The schedule with n more words. -/
def shaSchedule (n : Nat) (ws : List DWord) : List DWord :=
  match n with
  | 0 => ws
  | k + 1 => shaSchedule k (shaNext ws :: ws)

/-- The last four values of a and of e. -/
structure ShaState where
  a : Vector DWord 4
  e : Vector DWord 4

/-- A vector with a value put before its first three. -/
def shifted (x : DWord) (v : Vector DWord 4) : Vector DWord 4 := #v[x, v[0], v[1], v[2]]

/-- One step, with the sum of its constant and its word. -/
def ShaState.next (z : ShaState) (kw : DWord) : ShaState :=
  let chosen := z.e[2] ^^^ (z.e[0] &&& (z.e[1] ^^^ z.e[2]))
  let most := (z.a[0] &&& (z.a[1] ||| z.a[2])) ||| (z.a[1] &&& z.a[2])
  let mixed := kw + z.e[3] + turned z.e[0] 14 18 41 + chosen
  { a := shifted (mixed + turned z.a[0] 28 34 39 + most) z.a, e := shifted (z.a[3] + mixed) z.e }

/-- The hash value after a block of sixteen words. -/
def ShaState.absorb (ks : List Nat) (z : ShaState) (block : List DWord) : ShaState :=
  let ws := (shaSchedule 64 block.reverse).reverse
  let r := (ks.zip ws).foldl (fun z kw => z.next (BitVec.ofNat 64 kw.1 + kw.2)) z
  { a := z.a.zipWith (· + ·) r.a, e := z.e.zipWith (· + ·) r.e }

/-- The hash value before the first block. -/
def shaStart : ShaState :=
  let f (i : Nat) : DWord := BitVec.ofNat 64 (rootFraction 2 (shaPrimes.getD i 0))
  { a := #v[f 0, f 1, f 2, f 3], e := #v[f 4, f 5, f 6, f 7] }

/-- The value of some bytes, first byte most significant. -/
def beNat (bs : List Byte) : Nat := leNat bs.reverse

/-- n blocks of 128 bytes as lists of words. -/
def shaBlocks (bs : List Byte) (n : Nat) : List (List DWord) :=
  match n with
  | 0 => []
  | k + 1 =>
    (List.range 16).map (fun i => BitVec.ofNat 64 (beNat ((bs.drop (8 * i)).take 8))) :: shaBlocks (bs.drop 128) k

/-- The padding of a message of n bytes: a one bit, zeros, and the length in bits in the last 16 bytes of a block. -/
def shaPad (n : Nat) : List Byte :=
  0x80 :: List.replicate ((239 - n % 128) % 128) 0 ++ (leBytes (8 * n) 16).reverse

/-- The digest of some bytes; its first byte is the most significant. -/
def sha512 (bs : List Byte) : BitVec 512 :=
  let p := bs ++ shaPad bs.length
  let ks := shaPrimes.map (rootFraction 3)
  let z := (shaBlocks p (p.length / 128)).foldl (ShaState.absorb ks) shaStart
  z.a[0] ++ z.a[1] ++ z.a[2] ++ z.a[3] ++ z.e[0] ++ z.e[1] ++ z.e[2] ++ z.e[3]

end Sys2Proof.Machine
end

