-- ==== Sys2Proof/Syntax.lean ====
section
/-! DEFINITION. The instructions and events of the machine: one constructor per row of
spec/opcode_table.json. An encoded form's fields are the fields of its word (R47, R50, R57), each as wide as
the word leaves it free: a pair field has three bits (R48), a vector pair field six (R50). An event's
arguments say which agent or message it concerns, or what an outside agent supplies with it. -/

namespace Sys2Proof

/-- What a peer module asks of this module's memory over a swarm link (R376). -/
inductive SwarmOp where
  | read
  | write (data : BitVec 256) (mask : BitVec 32)
  /-- An ATOM (R155): op numbers the operations as F[3:0] does; byte is its place in the 32-byte unit. -/
  | alu (op : Nat) (size : Nat) (byte : Nat) (operand compare : BitVec 64)
  /-- VAADD on the low or the upper 16 bytes of the unit (R157). -/
  | vaadd (t rm : BitVec 3) (upper : Bool) (x draws : BitVec 128)
  /-- One element's update of CRED (R139). -/
  | red (code rm : Nat) (sat : Bool) (byte value draw : Nat)
  /-- The update of one word by OPTADAM or OPTSGD (R140): of the weight with the operands WD, LR and u, or of a sum with a
  factor and an addend. -/
  | fuse (last : Bool) (byte : Nat) (a b c : BitVec 32)
deriving DecidableEq, Repr

/-- What the board controller may ask for over SMBus (R377). -/
inductive SmbusRq where
  | sensors | power | log | reset | select (imageB : Bool)
deriving DecidableEq, Repr

/-- The rows of the opcode table. -/
inductive Instr where
  /-- NOP (R184). Does nothing; the all-zero word. -/
  | nop (g : BitVec 4)
  /-- HALT (R185). Ends the thread; its slots stay held until the launch retires. -/
  | halt (g : BitVec 4)
  /-- IDLE (R186). Clears the wake bit and retires, or parks until the wake bit is set. -/
  | idle (g : BitVec 4)
  /-- TRAP (R187). Raises TRAPI with IMM8 as the detail. -/
  | trap (g : BitVec 4) (i : BitVec 8)
  /-- ERET (R188). Jumps to EPC, resuming a repeat when REPST.ACT is set. -/
  | eret (g : BitVec 4)
  /-- BKPT (R187). Raises BKPT with IMM8 as the detail. -/
  | bkpt (g : BitVec 4) (i : BitVec 8)
  /-- RDCYC (R189). Reads the core-cycle count since the launch origin, one half at a time. -/
  | rdcyc (g : BitVec 4) (d : BitVec 4) (w : BitVec 1)
  /-- RDTIME (R189). Reads GTIME, one half at a time. -/
  | rdtime (g : BitVec 4) (d : BitVec 4) (w : BitVec 1)
  /-- RDSIG (R190). Reads SIGL or SIGH into a scalar register. -/
  | rdsig (g : BitVec 4) (d : BitVec 4) (w : BitVec 1)
  /-- LNCH (R191). Releases and places a launch descriptor from own scratchpad into a priority ring. -/
  | lnch (g : BitVec 4) (d : BitVec 4) (a : BitVec 4) (r : BitVec 2)
  /-- L1INV (R192). Invalidates the partition's L1 lines and instruction buffer on the core. -/
  | l1inv (g : BitVec 4)
  /-- ADD (R170). sD := a + b. -/
  | add (g : BitVec 4) (d : BitVec 4) (a : BitVec 4) (b : BitVec 4)
  /-- SUB (R170). sD := a - b. -/
  | sub (g : BitVec 4) (d : BitVec 4) (a : BitVec 4) (b : BitVec 4)
  /-- AND (R170). Bitwise and. -/
  | and (g : BitVec 4) (d : BitVec 4) (a : BitVec 4) (b : BitVec 4)
  /-- OR (R170). Bitwise or. -/
  | or (g : BitVec 4) (d : BitVec 4) (a : BitVec 4) (b : BitVec 4)
  /-- XOR (R170). Bitwise exclusive or. -/
  | xor (g : BitVec 4) (d : BitVec 4) (a : BitVec 4) (b : BitVec 4)
  /-- ANDN (R170). a AND NOT b. -/
  | andn (g : BitVec 4) (d : BitVec 4) (a : BitVec 4) (b : BitVec 4)
  /-- SHL (R170). Shift left by b[4:0]. -/
  | shl (g : BitVec 4) (d : BitVec 4) (a : BitVec 4) (b : BitVec 4)
  /-- SHR (R170). Logical shift right by b[4:0]. -/
  | shr (g : BitVec 4) (d : BitVec 4) (a : BitVec 4) (b : BitVec 4)
  /-- SAR (R170). Arithmetic shift right by b[4:0]. -/
  | sar (g : BitVec 4) (d : BitVec 4) (a : BitVec 4) (b : BitVec 4)
  /-- ROL (R170). Rotate left by b[4:0]. -/
  | rol (g : BitVec 4) (d : BitVec 4) (a : BitVec 4) (b : BitVec 4)
  /-- MUL (R170). Low 32 bits of the product. -/
  | mul (g : BitVec 4) (d : BitVec 4) (a : BitVec 4) (b : BitVec 4)
  /-- MULH (R170). High 32 bits of the signed product. -/
  | mulh (g : BitVec 4) (d : BitVec 4) (a : BitVec 4) (b : BitVec 4)
  /-- MULHU (R170). High 32 bits of the unsigned product. -/
  | mulhu (g : BitVec 4) (d : BitVec 4) (a : BitVec 4) (b : BitVec 4)
  /-- DIV (R171). Signed quotient in 8 issue cycles. -/
  | div (g : BitVec 4) (d : BitVec 4) (a : BitVec 4) (b : BitVec 4)
  /-- DIVU (R171). Unsigned quotient in 8 issue cycles. -/
  | divu (g : BitVec 4) (d : BitVec 4) (a : BitVec 4) (b : BitVec 4)
  /-- REM (R171). Signed remainder in 8 issue cycles. -/
  | rem (g : BitVec 4) (d : BitVec 4) (a : BitVec 4) (b : BitVec 4)
  /-- REMU (R171). Unsigned remainder in 8 issue cycles. -/
  | remu (g : BitVec 4) (d : BitVec 4) (a : BitVec 4) (b : BitVec 4)
  /-- MIN (R170). Signed minimum. -/
  | min (g : BitVec 4) (d : BitVec 4) (a : BitVec 4) (b : BitVec 4)
  /-- MAX (R170). Signed maximum. -/
  | max (g : BitVec 4) (d : BitVec 4) (a : BitVec 4) (b : BitVec 4)
  /-- MINU (R170). Unsigned minimum. -/
  | minu (g : BitVec 4) (d : BitVec 4) (a : BitVec 4) (b : BitVec 4)
  /-- MAXU (R170). Unsigned maximum. -/
  | maxu (g : BitVec 4) (d : BitVec 4) (a : BitVec 4) (b : BitVec 4)
  /-- CLZ (R170). Count leading zeros. -/
  | clz (g : BitVec 4) (d : BitVec 4) (a : BitVec 4)
  /-- CTZ (R170). Count trailing zeros. -/
  | ctz (g : BitVec 4) (d : BitVec 4) (a : BitVec 4)
  /-- POPC (R170). Count set bits. -/
  | popc (g : BitVec 4) (d : BitVec 4) (a : BitVec 4)
  /-- BREV (R170). Reverse bit order. -/
  | brev (g : BitVec 4) (d : BitVec 4) (a : BitVec 4)
  /-- SEXTB (R170). Sign-extend the low byte. -/
  | sextb (g : BitVec 4) (d : BitVec 4) (a : BitVec 4)
  /-- SEXTH (R170). Sign-extend the low half. -/
  | sexth (g : BitVec 4) (d : BitVec 4) (a : BitVec 4)
  /-- ZEXTB (R170). Zero-extend the low byte. -/
  | zextb (g : BitVec 4) (d : BitVec 4) (a : BitVec 4)
  /-- ZEXTH (R170). Zero-extend the low half. -/
  | zexth (g : BitVec 4) (d : BitVec 4) (a : BitVec 4)
  /-- MOV (R170). Copy a register. -/
  | mov (g : BitVec 4) (d : BitVec 4) (a : BitVec 4)
  /-- SLT (R170). Set if signed less than. -/
  | slt (g : BitVec 4) (d : BitVec 4) (a : BitVec 4) (b : BitVec 4)
  /-- SLTU (R170). Set if unsigned less than. -/
  | sltu (g : BitVec 4) (d : BitVec 4) (a : BitVec 4) (b : BitVec 4)
  /-- ADDI (R172). Add a sign-extended immediate. -/
  | addi (g : BitVec 4) (d : BitVec 4) (a : BitVec 4) (i : BitVec 14)
  /-- ANDI (R172). And with a sign-extended immediate. -/
  | andi (g : BitVec 4) (d : BitVec 4) (a : BitVec 4) (i : BitVec 14)
  /-- ORI (R172). Or with a zero-extended immediate. -/
  | ori (g : BitVec 4) (d : BitVec 4) (a : BitVec 4) (i : BitVec 14)
  /-- XORI (R172). Exclusive-or with a sign-extended immediate. -/
  | xori (g : BitVec 4) (d : BitVec 4) (a : BitVec 4) (i : BitVec 14)
  /-- SHLI (R172). Shift left by an immediate amount. -/
  | shli (g : BitVec 4) (d : BitVec 4) (a : BitVec 4) (s : BitVec 5)
  /-- SHRI (R172). Logical shift right by an immediate amount. -/
  | shri (g : BitVec 4) (d : BitVec 4) (a : BitVec 4) (s : BitVec 5)
  /-- SARI (R172). Arithmetic shift right by an immediate amount. -/
  | sari (g : BitVec 4) (d : BitVec 4) (a : BitVec 4) (s : BitVec 5)
  /-- ROLI (R172). Rotate left by an immediate amount. -/
  | roli (g : BitVec 4) (d : BitVec 4) (a : BitVec 4) (s : BitVec 5)
  /-- LIH (R173). sD := IMM18 << 14. -/
  | lih (g : BitVec 4) (d : BitVec 4) (i : BitVec 18)
  /-- CMP (R174). Compares two registers under CC into a predicate, optionally anded. -/
  | cmp (g : BitVec 4) (p : BitVec 3) (z : BitVec 1) (a : BitVec 4) (b : BitVec 4) (c : BitVec 4)
  /-- CMPI (R174). Compares a register with an immediate under CC into a predicate. -/
  | cmpi (g : BitVec 4) (p : BitVec 3) (z : BitVec 1) (a : BitVec 4) (i : BitVec 10) (c : BitVec 4)
  /-- PAND (R175). Predicate and. -/
  | pand (g : BitVec 4) (p : BitVec 3) (a : BitVec 3) (b : BitVec 3)
  /-- POR (R175). Predicate or. -/
  | por (g : BitVec 4) (p : BitVec 3) (a : BitVec 3) (b : BitVec 3)
  /-- PXOR (R175). Predicate exclusive or. -/
  | pxor (g : BitVec 4) (p : BitVec 3) (a : BitVec 3) (b : BitVec 3)
  /-- PANDN (R175). Predicate and-not. -/
  | pandn (g : BitVec 4) (p : BitVec 3) (a : BitVec 3) (b : BitVec 3)
  /-- PRDW (R175). Reads the predicate word into a scalar register. -/
  | prdw (g : BitVec 4) (d : BitVec 4)
  /-- PWRW (R175). Writes p1-p7 from a scalar register. -/
  | pwrw (g : BitVec 4) (d : BitVec 4)
  /-- BR (R176). Relative branch. -/
  | br (g : BitVec 4) (o : BitVec 22)
  /-- BRL (R176). Relative branch writing the return address to s15. -/
  | brl (g : BitVec 4) (o : BitVec 22)
  /-- JR (R177). Jump to a register within the current 4 GiB region. -/
  | jr (g : BitVec 4) (a : BitVec 4)
  /-- JRL (R177). Jump to a register, linking s15. -/
  | jrl (g : BitVec 4) (a : BitVec 4)
  /-- PADD (R179). Adds two address pairs. -/
  | padd (g : BitVec 4) (d : BitVec 3) (a : BitVec 3) (b : BitVec 3)
  /-- PADDS (R179). Adds a shifted signed scalar to a pair. -/
  | padds (g : BitVec 4) (d : BitVec 3) (a : BitVec 3) (b : BitVec 3) (s : BitVec 3)
  /-- PADDU (R179). Adds a shifted unsigned scalar to a pair. -/
  | paddu (g : BitVec 4) (d : BitVec 3) (a : BitVec 3) (b : BitVec 3) (s : BitVec 3)
  /-- PSUB (R179). Subtracts two address pairs. -/
  | psub (g : BitVec 4) (d : BitVec 3) (a : BitVec 3) (b : BitVec 3)
  /-- PMOV (R179). Copies an address pair. -/
  | pmov (g : BitVec 4) (d : BitVec 3) (a : BitVec 3)
  /-- REP (R58). Issues the next instruction CNT+1 times with stepped register fields. -/
  | rep (c : BitVec 6) (i : BitVec 3) (j : BitVec 3) (k : BitVec 3)
  /-- LDB (R154). Loads a sign-extended byte. -/
  | ldb (g : BitVec 4) (d : BitVec 4) (bp : BitVec 3) (h : BitVec 5) (off : BitVec 24)
  /-- LDBU (R154). Loads a zero-extended byte. -/
  | ldbu (g : BitVec 4) (d : BitVec 4) (bp : BitVec 3) (h : BitVec 5) (off : BitVec 24)
  /-- LDH (R154). Loads a sign-extended half. -/
  | ldh (g : BitVec 4) (d : BitVec 4) (bp : BitVec 3) (h : BitVec 5) (off : BitVec 24)
  /-- LDHU (R154). Loads a zero-extended half. -/
  | ldhu (g : BitVec 4) (d : BitVec 4) (bp : BitVec 3) (h : BitVec 5) (off : BitVec 24)
  /-- LDW (R154). Loads a word. -/
  | ldw (g : BitVec 4) (d : BitVec 4) (bp : BitVec 3) (h : BitVec 5) (off : BitVec 24)
  /-- LDD (R154). Loads a doubleword into a pair. -/
  | ldd (g : BitVec 4) (d : BitVec 3) (bp : BitVec 3) (h : BitVec 5) (off : BitVec 24)
  /-- LDA (R302). Loads a word at its home and then acquires at SC. -/
  | lda (g : BitVec 4) (d : BitVec 4) (bp : BitVec 3) (sc : BitVec 3) (h : BitVec 5) (off : BitVec 24)
  /-- STB (R154). Stores a byte. -/
  | stb (g : BitVec 4) (d : BitVec 4) (bp : BitVec 3) (h : BitVec 5) (off : BitVec 24)
  /-- STH (R154). Stores a half. -/
  | sth (g : BitVec 4) (d : BitVec 4) (bp : BitVec 3) (h : BitVec 5) (off : BitVec 24)
  /-- STW (R154). Stores a word. -/
  | stw (g : BitVec 4) (d : BitVec 4) (bp : BitVec 3) (h : BitVec 5) (off : BitVec 24)
  /-- STD (R154). Stores a doubleword from a pair. -/
  | std (g : BitVec 4) (d : BitVec 3) (bp : BitVec 3) (h : BitVec 5) (off : BitVec 24)
  /-- STR (R302). Releases at SC and then stores a word as the carrying write. -/
  | str (g : BitVec 4) (d : BitVec 4) (bp : BitVec 3) (sc : BitVec 3) (h : BitVec 5) (off : BitVec 24)
  /-- AADD (R155). Memory-side atomic add. -/
  | aadd (g : BitVec 4) (d : BitVec 4) (bp : BitVec 3) (nr : BitVec 1) (sz : BitVec 1) (h : BitVec 5) (off : BitVec 24)
  /-- AMIN (R155). Memory-side atomic signed minimum. -/
  | amin (g : BitVec 4) (d : BitVec 4) (bp : BitVec 3) (nr : BitVec 1) (sz : BitVec 1) (h : BitVec 5) (off : BitVec 24)
  /-- AMAX (R155). Memory-side atomic signed maximum. -/
  | amax (g : BitVec 4) (d : BitVec 4) (bp : BitVec 3) (nr : BitVec 1) (sz : BitVec 1) (h : BitVec 5) (off : BitVec 24)
  /-- AMINU (R155). Memory-side atomic unsigned minimum. -/
  | aminu (g : BitVec 4) (d : BitVec 4) (bp : BitVec 3) (nr : BitVec 1) (sz : BitVec 1) (h : BitVec 5) (off : BitVec 24)
  /-- AMAXU (R155). Memory-side atomic unsigned maximum. -/
  | amaxu (g : BitVec 4) (d : BitVec 4) (bp : BitVec 3) (nr : BitVec 1) (sz : BitVec 1) (h : BitVec 5) (off : BitVec 24)
  /-- AAND (R155). Memory-side atomic and. -/
  | aand (g : BitVec 4) (d : BitVec 4) (bp : BitVec 3) (nr : BitVec 1) (sz : BitVec 1) (h : BitVec 5) (off : BitVec 24)
  /-- AOR (R155). Memory-side atomic or. -/
  | aor (g : BitVec 4) (d : BitVec 4) (bp : BitVec 3) (nr : BitVec 1) (sz : BitVec 1) (h : BitVec 5) (off : BitVec 24)
  /-- AXOR (R155). Memory-side atomic exclusive or. -/
  | axor (g : BitVec 4) (d : BitVec 4) (bp : BitVec 3) (nr : BitVec 1) (sz : BitVec 1) (h : BitVec 5) (off : BitVec 24)
  /-- ASWP (R155). Memory-side atomic swap. -/
  | aswp (g : BitVec 4) (d : BitVec 4) (bp : BitVec 3) (nr : BitVec 1) (sz : BitVec 1) (h : BitVec 5) (off : BitVec 24)
  /-- ACAS (R155). Memory-side atomic compare and swap. -/
  | acas (g : BitVec 4) (d : BitVec 4) (bp : BitVec 3) (nr : BitVec 1) (sz : BitVec 1) (h : BitVec 5) (off : BitVec 24)
  /-- AADDF (R155). Memory-side atomic FP32 add. -/
  | aaddf (g : BitVec 4) (d : BitVec 4) (bp : BitVec 3) (nr : BitVec 1) (h : BitVec 5) (off : BitVec 24)
  /-- LDT_L (R118). Issues a ticket for a row-line fetch. -/
  | ldtL (g : BitVec 4) (d : BitVec 4) (bp : BitVec 3) (h : BitVec 5) (off : BitVec 24)
  /-- LDT_Q (R118). Issues a ticket for a quad-line fetch. -/
  | ldtQ (g : BitVec 4) (d : BitVec 4) (bp : BitVec 3) (h : BitVec 5) (off : BitVec 24)
  /-- LDT_S (R118). Issues a ticket for a sector fetch. -/
  | ldtS (g : BitVec 4) (d : BitVec 4) (bp : BitVec 3) (h : BitVec 5) (off : BitVec 24)
  /-- LDT_C (R118). Issues a ticket for a column-line fetch. -/
  | ldtC (g : BitVec 4) (d : BitVec 4) (bp : BitVec 3) (cw : BitVec 2) (h : BitVec 5) (off : BitVec 24)
  /-- RDMV (R119). Redeems a ticket into a vector pair. -/
  | rdmv (g : BitVec 4) (v : BitVec 6) (a : BitVec 4)
  /-- RDMS (R119). Redeems a ticket into own scratchpad, delivered asynchronously. -/
  | rdms (g : BitVec 4) (a : BitVec 4) (b : BitVec 3)
  /-- TKDROP (R119). Drops a ticket at its slice. -/
  | tkdrop (g : BitVec 4) (a : BitVec 4)
  /-- TKTST (R119). Tests whether a ticket is READY. -/
  | tktst (g : BitVec 4) (p : BitVec 3) (a : BitVec 4)
  /-- RDMW (R119). Waits for the thread's RDMS deliveries. -/
  | rdmw (g : BitVec 4)
  /-- FENCE (R301). Release then acquire at SC. -/
  | fence (g : BitVec 4) (s : BitVec 3)
  /-- FENCEE (R301). Drains the thread's engine queues and RDMS, then acts as FENCE. -/
  | fencee (g : BitVec 4) (s : BitVec 3)
  /-- ACQ (R301). Acquire at SC applying the seen signature. -/
  | acq (g : BitVec 4) (s : BitVec 3)
  /-- REL (R301). Release at SC. -/
  | rel (g : BitVec 4) (s : BitVec 3)
  /-- SEND (R320). Releases and sends a four-word message to a class. -/
  | send (g : BitVec 4) (a : BitVec 4) (b : BitVec 2)
  /-- WAITM (R320). Takes the oldest message of a class, parking while empty. -/
  | waitm (g : BitVec 4) (d : BitVec 2) (c : BitVec 4)
  /-- POLLM (R320). Takes a message if one is queued, reporting success. -/
  | pollm (g : BitVec 4) (d : BitVec 2) (a : BitVec 4) (c : BitVec 4)
  /-- MBIND (R320). Binds a message class to a slot. -/
  | mbind (g : BitVec 4) (a : BitVec 4) (c : BitVec 4)
  /-- MUNBIND (R320). Unbinds a message class. -/
  | munbind (g : BitVec 4) (c : BitVec 4)
  /-- BAR (R323). Arrives at a group barrier and waits for the phase. -/
  | bar (g : BitVec 4) (m : BitVec 2)
  /-- BARX (R323). Barrier with a reduction of the arriving values. -/
  | barx (g : BitVec 4) (d : BitVec 4) (a : BitVec 4) (m : BitVec 2) (r : BitVec 3)
  /-- GARV (R323). Arrives at a barrier without waiting. -/
  | garv (g : BitVec 4) (d : BitVec 4) (m : BitVec 2)
  /-- GWT (R323). Waits for a barrier phase to complete. -/
  | gwt (g : BitVec 4) (a : BitVec 4) (m : BitVec 2)
  /-- ENQM (R267). Pushes a command word into the matrix queue. -/
  | enqm (g : BitVec 4) (d : BitVec 4) (v : BitVec 6)
  /-- ENQM_R (R267). Releases at the header scope, then pushes into the matrix queue. -/
  | enqmR (g : BitVec 4) (d : BitVec 4) (v : BitVec 6)
  /-- ENQC (R143). Pushes a command word into the copy queue. -/
  | enqc (g : BitVec 4) (d : BitVec 4) (v : BitVec 6)
  /-- ENQC_R (R143). Releases at the header scope, then pushes into the copy queue. -/
  | enqcR (g : BitVec 4) (d : BitVec 4) (v : BitVec 6)
  /-- MWAIT (R267). Waits for a matrix command and returns its status. -/
  | mwait (g : BitVec 4) (d : BitVec 4) (s : BitVec 4)
  /-- CWAIT (R143). Waits for a copy command to complete. -/
  | cwait (g : BitVec 4) (s : BitVec 4)
  /-- CSTAT (R143). Returns a copy command's status without waiting. -/
  | cstat (g : BitVec 4) (d : BitVec 4) (s : BitVec 4)
  /-- CSRR (R182). Reads a CSR. -/
  | csrr (g : BitVec 4) (d : BitVec 4) (c : BitVec 12)
  /-- CSRW (R182). Writes a CSR. -/
  | csrw (g : BitVec 4) (a : BitVec 4) (c : BitVec 12)
  /-- CSRS (R182). Sets CSR bits, returning the old value. -/
  | csrs (g : BitVec 4) (d : BitVec 4) (a : BitVec 4) (c : BitVec 12)
  /-- CSRC (R182). Clears CSR bits, returning the old value. -/
  | csrc (g : BitVec 4) (d : BitVec 4) (a : BitVec 4) (c : BitVec 12)
  /-- TJINS (R283). Inserts a record into a trajectory store. -/
  | tjins (g : BitVec 4) (d : BitVec 4) (a : BitVec 4) (b : BitVec 4)
  /-- TJSMP (R284). Samples a batch from a trajectory store. -/
  | tjsmp (g : BitVec 4) (d : BitVec 4) (a : BitVec 4) (b : BitVec 4)
  /-- TJPRI (R287). Reprioritises a slot by handle. -/
  | tjpri (g : BitVec 4) (d : BitVec 4) (a : BitVec 4) (b : BitVec 4)
  /-- TJEVT (R287). Evicts a slot by handle. -/
  | tjevt (g : BitVec 4) (d : BitVec 4) (a : BitVec 4) (b : BitVec 4)
  /-- TJVER (R288). Sets the store's policy version. -/
  | tjver (g : BitVec 4) (d : BitVec 4) (a : BitVec 4) (b : BitVec 4)
  /-- TJQRY (R288). Returns the store's state. -/
  | tjqry (g : BitVec 4) (d : BitVec 4) (a : BitVec 4) (b : BitVec 4)
  /-- TJGET (R287). Copies a record by handle. -/
  | tjget (g : BitVec 4) (d : BitVec 4) (a : BitVec 4) (b : BitVec 4)
  /-- AXPUSH (R74). Pushes a frame onto an activation stack. -/
  | axpush (g : BitVec 4) (d : BitVec 4) (a : BitVec 3) (b : BitVec 4)
  /-- AXPOP (R74). Pops the top frame of an activation stack. -/
  | axpop (g : BitVec 4) (d : BitVec 4) (a : BitVec 3) (b : BitVec 4)
  /-- AXDEPTH (R74). Reads a stack quantity. -/
  | axdepth (g : BitVec 4) (d : BitVec 4) (a : BitVec 4) (b : BitVec 4)
  /-- AXDROP (R74). Removes top frames without copying. -/
  | axdrop (g : BitVec 4) (d : BitVec 4) (a : BitVec 4) (b : BitVec 4)
  /-- GO (R325). Migrates the thread's travel context to another core. -/
  | go (g : BitVec 4) (a : BitVec 3)
  /-- GOHOME (R325). Returns the travel context to the home slot. -/
  | gohome (g : BitVec 4)
  /-- PADDI (R180). Adds an immediate to an address pair. -/
  | paddi (g : BitVec 4) (d : BitVec 3) (a : BitVec 3) (i : BitVec 14)
  /-- QPUSH (R159). Pushes a word into a slot's inbound queue. -/
  | qpush (g : BitVec 4) (d : BitVec 4) (q : BitVec 4)
  /-- QPOP (R159). Pops a word from an owned queue. -/
  | qpop (g : BitVec 4) (d : BitVec 4) (q : BitVec 4)
  /-- QTRY (R159). Pops if non-empty, reporting in a predicate. -/
  | qtry (g : BitVec 4) (d : BitVec 4) (p : BitVec 3) (q : BitVec 4)
  /-- QPUSHV (R159). Pushes four lanes into a queue. -/
  | qpushv (g : BitVec 4) (v : BitVec 7) (q : BitVec 4)
  /-- QPOPV (R159). Pops four entries into a vector register. -/
  | qpopv (g : BitVec 4) (v : BitVec 7) (q : BitVec 4)
  /-- VADD (R216). Element-wise add. -/
  | vadd (d : BitVec 7) (a : BitVec 7) (b : BitVec 7) (t : BitVec 3)
  /-- VSUB (R216). Element-wise subtract. -/
  | vsub (d : BitVec 7) (a : BitVec 7) (b : BitVec 7) (t : BitVec 3)
  /-- VMIN (R216). Element-wise minimum. -/
  | vmin (d : BitVec 7) (a : BitVec 7) (b : BitVec 7) (t : BitVec 3)
  /-- VMAX (R216). Element-wise maximum. -/
  | vmax (d : BitVec 7) (a : BitVec 7) (b : BitVec 7) (t : BitVec 3)
  /-- VMUL (R216). Element-wise multiply. -/
  | vmul (d : BitVec 7) (a : BitVec 7) (b : BitVec 7) (t : BitVec 3)
  /-- VFMA (R216). Fused a*b + d. -/
  | vfma (d : BitVec 7) (a : BitVec 7) (b : BitVec 7) (t : BitVec 3)
  /-- VFMS (R216). Fused a*b - d. -/
  | vfms (d : BitVec 7) (a : BitVec 7) (b : BitVec 7) (t : BitVec 3)
  /-- VFNMA (R216). Fused d - a*b. -/
  | vfnma (d : BitVec 7) (a : BitVec 7) (b : BitVec 7) (t : BitVec 3)
  /-- VADDS (R216). Saturating signed add. -/
  | vadds (d : BitVec 7) (a : BitVec 7) (b : BitVec 7) (t : BitVec 3)
  /-- VSUBS (R216). Saturating signed subtract. -/
  | vsubs (d : BitVec 7) (a : BitVec 7) (b : BitVec 7) (t : BitVec 3)
  /-- VMULH (R216). High half of the signed product. -/
  | vmulh (d : BitVec 7) (a : BitVec 7) (b : BitVec 7) (t : BitVec 3)
  /-- VABS (R216). Element-wise absolute value. -/
  | vabs (d : BitVec 7) (a : BitVec 7) (t : BitVec 3)
  /-- VAND (R218). 128-bit and. -/
  | vand (d : BitVec 7) (a : BitVec 7) (b : BitVec 7)
  /-- VOR (R218). 128-bit or. -/
  | vor (d : BitVec 7) (a : BitVec 7) (b : BitVec 7)
  /-- VXOR (R218). 128-bit exclusive or. -/
  | vxor (d : BitVec 7) (a : BitVec 7) (b : BitVec 7)
  /-- VANDN (R218). 128-bit and-not. -/
  | vandn (d : BitVec 7) (a : BitVec 7) (b : BitVec 7)
  /-- VSHL (R218). Element-wise shift left. -/
  | vshl (d : BitVec 7) (a : BitVec 7) (b : BitVec 7) (t : BitVec 3)
  /-- VSHR (R218). Element-wise logical shift right. -/
  | vshr (d : BitVec 7) (a : BitVec 7) (b : BitVec 7) (t : BitVec 3)
  /-- VSAR (R218). Element-wise arithmetic shift right. -/
  | vsar (d : BitVec 7) (a : BitVec 7) (b : BitVec 7) (t : BitVec 3)
  /-- VROL (R218). Element-wise rotate left. -/
  | vrol (d : BitVec 7) (a : BitVec 7) (b : BitVec 7) (t : BitVec 3)
  /-- VCEQ (R219). Equal compare into a mask. -/
  | vceq (d : BitVec 3) (a : BitVec 7) (b : BitVec 7) (t : BitVec 3)
  /-- VCNE (R219). Not-equal compare into a mask. -/
  | vcne (d : BitVec 3) (a : BitVec 7) (b : BitVec 7) (t : BitVec 3)
  /-- VCLT (R219). Less-than compare into a mask. -/
  | vclt (d : BitVec 3) (a : BitVec 7) (b : BitVec 7) (t : BitVec 3)
  /-- VCLE (R219). Less-or-equal compare into a mask. -/
  | vcle (d : BitVec 3) (a : BitVec 7) (b : BitVec 7) (t : BitVec 3)
  /-- VCLTU (R219). Unsigned less-than compare into a mask. -/
  | vcltu (d : BitVec 3) (a : BitVec 7) (b : BitVec 7) (t : BitVec 3)
  /-- VCLEU (R219). Unsigned less-or-equal compare into a mask. -/
  | vcleu (d : BitVec 3) (a : BitVec 7) (b : BitVec 7) (t : BitVec 3)
  /-- VCUN (R219). Unordered (NaN) compare into a mask. -/
  | vcun (d : BitVec 3) (a : BitVec 7) (b : BitVec 7) (t : BitVec 3)
  /-- VCNF (R219). Non-finite test into a mask. -/
  | vcnf (d : BitVec 3) (a : BitVec 7) (t : BitVec 3)
  /-- VWADD (R221). Widening add into a pair. -/
  | vwadd (d : BitVec 6) (a : BitVec 7) (b : BitVec 7) (t : BitVec 3)
  /-- VWMUL (R221). Widening multiply into a pair. -/
  | vwmul (d : BitVec 6) (a : BitVec 7) (b : BitVec 7) (t : BitVec 3)
  /-- VWMAC (R221). Widening multiply-accumulate into a pair. -/
  | vwmac (d : BitVec 6) (a : BitVec 7) (b : BitVec 7) (t : BitVec 3)
  /-- VWSUM (R221). Widening sum-accumulate into a pair. -/
  | vwsum (d : BitVec 6) (a : BitVec 7) (b : BitVec 7) (t : BitVec 3)
  /-- VHADD (R222). Horizontal sum with carry-in. -/
  | vhadd (d : BitVec 7) (a : BitVec 7) (b : BitVec 7) (t : BitVec 3)
  /-- VHMAX (R222). Horizontal maximum. -/
  | vhmax (d : BitVec 7) (a : BitVec 7) (b : BitVec 7) (t : BitVec 3)
  /-- VHMIN (R222). Horizontal minimum. -/
  | vhmin (d : BitVec 7) (a : BitVec 7) (b : BitVec 7) (t : BitVec 3)
  /-- VSCAN (R222). Inclusive prefix sum with carry from vb. -/
  | vscan (d : BitVec 7) (a : BitVec 7) (b : BitVec 7) (t : BitVec 3)
  /-- VZIPL (R224). Interleave low halves. -/
  | vzipl (d : BitVec 7) (a : BitVec 7) (b : BitVec 7) (t : BitVec 3)
  /-- VZIPH (R224). Interleave high halves. -/
  | vziph (d : BitVec 7) (a : BitVec 7) (b : BitVec 7) (t : BitVec 3)
  /-- VUNZL (R224). De-interleave even elements. -/
  | vunzl (d : BitVec 7) (a : BitVec 7) (b : BitVec 7) (t : BitVec 3)
  /-- VUNZH (R224). De-interleave odd elements. -/
  | vunzh (d : BitVec 7) (a : BitVec 7) (b : BitVec 7) (t : BitVec 3)
  /-- VSHUF (R224). Element shuffle by index. -/
  | vshuf (d : BitVec 7) (a : BitVec 7) (b : BitVec 7) (t : BitVec 3)
  /-- VSEL (R224). Select by k0. -/
  | vsel (d : BitVec 7) (a : BitVec 7) (b : BitVec 7) (t : BitVec 3)
  /-- VREV (R224). Reverse element order. -/
  | vrev (d : BitVec 7) (a : BitVec 7) (t : BitVec 3)
  /-- VDUPL (R224). Duplicate low elements pairwise. -/
  | vdupl (d : BitVec 7) (a : BitVec 7) (t : BitVec 3)
  /-- VCVT (R230). Converts lanes between types under its own rounding and saturation. -/
  | vcvt (d : BitVec 7) (a : BitVec 7) (s : BitVec 4) (t : BitVec 4) (r : BitVec 3) (x : BitVec 1)
  /-- VQBLK (R234). Quantises 32 FP32 values into an MX block. -/
  | vqblk (d : BitVec 7) (a : BitVec 4) (s : BitVec 4) (t : BitVec 3)
  /-- VMXDEC (R235). Decodes an MX block to FP32. -/
  | vmxdec (d : BitVec 4) (a : BitVec 7) (s : BitVec 4) (t : BitVec 3)
  /-- VDEC (R236). Decodes 16 table codes with a scale. -/
  | vdec (d : BitVec 5) (a : BitVec 7) (s : BitVec 4)
  /-- VENC (R237). Encodes 16 FP32 values as table codes. -/
  | venc (d : BitVec 7) (a : BitVec 5) (s : BitVec 4)
  /-- VRCP (R239). Correctly rounded reciprocal. -/
  | vrcp (d : BitVec 7) (a : BitVec 7)
  /-- VRSQ (R239). Correctly rounded reciprocal square root. -/
  | vrsq (d : BitVec 7) (a : BitVec 7)
  /-- VEXP2 (R239). Correctly rounded 2^a. -/
  | vexp2 (d : BitVec 7) (a : BitVec 7)
  /-- VLOG2 (R239). Correctly rounded log2. -/
  | vlog2 (d : BitVec 7) (a : BitVec 7)
  /-- VSQRT (R239). Correctly rounded square root. -/
  | vsqrt (d : BitVec 7) (a : BitVec 7)
  /-- VDIV (R241). Correctly rounded division. -/
  | vdiv (d : BitVec 7) (a : BitVec 7) (b : BitVec 7)
  /-- VFLR (R242). Rounds toward minus infinity to an integer. -/
  | vflr (d : BitVec 7) (a : BitVec 7) (t : BitVec 3)
  /-- VRND (R242). Rounds to an integer under FMODE.RM. -/
  | vrnd (d : BitVec 7) (a : BitVec 7) (t : BitVec 3)
  /-- VRNG (R248). Writes 128 generator bits. -/
  | vrng (d : BitVec 7) (s : BitVec 4)
  /-- VRNGF (R248). Writes uniform values in [0, 1). -/
  | vrngf (d : BitVec 7) (s : BitVec 4) (t : BitVec 3)
  /-- VMOVS (R226). Broadcasts a scalar to every element. -/
  | vmovs (d : BitVec 7) (s : BitVec 4) (t : BitVec 3)
  /-- VINS (R226). Inserts a scalar into one element. -/
  | vins (d : BitVec 7) (i : BitVec 4) (s : BitVec 4) (t : BitVec 3)
  /-- VEXT (R226). Extracts one element to a scalar. -/
  | vext (i : BitVec 4) (a : BitVec 7) (s : BitVec 4) (t : BitVec 3)
  /-- KMOVS (R226). Writes a mask from a scalar. -/
  | kmovs (k : BitVec 3) (s : BitVec 4)
  /-- KEXT (R226). Reads a mask into a scalar. -/
  | kext (k : BitVec 3) (s : BitVec 4)
  /-- VADDI (R225). Adds an 8-bit immediate to integer elements. -/
  | vaddi (d : BitVec 7) (a : BitVec 7) (i : BitVec 8) (t : BitVec 3)
  /-- VSPLI (R225). Broadcasts an 8-bit immediate. -/
  | vspli (d : BitVec 7) (i : BitVec 8) (t : BitVec 3)
  /-- VSHLI (R225). Shift left by an immediate. -/
  | vshli (d : BitVec 7) (a : BitVec 7) (i : BitVec 8) (t : BitVec 3)
  /-- VSHRI (R225). Logical shift right by an immediate. -/
  | vshri (d : BitVec 7) (a : BitVec 7) (i : BitVec 8) (t : BitVec 3)
  /-- VSARI (R225). Arithmetic shift right by an immediate. -/
  | vsari (d : BitVec 7) (a : BitVec 7) (i : BitVec 8) (t : BitVec 3)
  /-- VEXTB (R225). Slides a 16-byte window across two registers. -/
  | vextb (d : BitVec 7) (a : BitVec 7) (i : BitVec 8)
  /-- KAND (R220). Mask and. -/
  | kand (d : BitVec 3) (a : BitVec 3) (b : BitVec 3)
  /-- KOR (R220). Mask or. -/
  | kor (d : BitVec 3) (a : BitVec 3) (b : BitVec 3)
  /-- KXOR (R220). Mask exclusive or. -/
  | kxor (d : BitVec 3) (a : BitVec 3) (b : BitVec 3)
  /-- KNOT (R220). Mask not. -/
  | knot (d : BitVec 3) (a : BitVec 3)
  /-- VDOT4 (R223). Signed 8-bit dot product into 32-bit lanes. -/
  | vdot4 (d : BitVec 7) (a : BitVec 7) (b : BitVec 7)
  /-- VDOT4U (R223). Unsigned 8-bit dot product into 32-bit lanes. -/
  | vdot4u (d : BitVec 7) (a : BitVec 7) (b : BitVec 7)
  /-- VDOT2B (R223). BF16 pair dot product into FP32 lanes. -/
  | vdot2b (d : BitVec 7) (a : BitVec 7) (b : BitVec 7)
  /-- VDOT2H (R223). FP16 pair dot product into FP32 lanes. -/
  | vdot2h (d : BitVec 7) (a : BitVec 7) (b : BitVec 7)
  /-- LDV (R156). Loads 16 bytes into a vector register. -/
  | ldv (d : BitVec 7) (bp : BitVec 3) (h : BitVec 5) (off : BitVec 24)
  /-- LDVP (R156). Loads 32 bytes into a vector pair. -/
  | ldvp (d : BitVec 6) (bp : BitVec 3) (h : BitVec 5) (off : BitVec 24)
  /-- LDVC (R156). Loads a column line into a vector pair. -/
  | ldvc (d : BitVec 6) (bp : BitVec 3) (cw : BitVec 2) (h : BitVec 5) (off : BitVec 24)
  /-- STV (R156). Stores 16 bytes from a vector register. -/
  | stv (d : BitVec 7) (bp : BitVec 3) (h : BitVec 5) (off : BitVec 24)
  /-- STVP (R156). Stores 32 bytes from a vector pair. -/
  | stvp (d : BitVec 6) (bp : BitVec 3) (h : BitVec 5) (off : BitVec 24)
  /-- STVC (R156). Stores a vector pair as a column line. -/
  | stvc (d : BitVec 6) (bp : BitVec 3) (cw : BitVec 2) (h : BitVec 5) (off : BitVec 24)
  /-- VAADD (R157). Adds vector elements into memory at the slice ALU. -/
  | vaadd (d : BitVec 7) (bp : BitVec 3) (bs : BitVec 1) (rm : BitVec 3) (t : BitVec 3) (h : BitVec 5) (off : BitVec 24)
  /-- LDVB (R156). Loads one element and broadcasts it. -/
  | ldvb (d : BitVec 7) (bp : BitVec 3) (t : BitVec 3) (h : BitVec 5) (off : BitVec 24)
  /-- MMA (R256). Matrix engine computes a 16x16 float tile. -/
  | mma (x y slot : Nat)
  /-- MMAI (R256). Matrix engine computes a 16x16 integer tile. -/
  | mmai (x y slot : Nat)
  /-- MEPI (R260). Converts a C tile with scale and bias into a destination tile. -/
  | mepi (x y slot : Nat)
  /-- COPY (R134). Copy engine copies strided runs of bytes. -/
  | copy (x y slot : Nat)
  /-- SLAB (R135). Deals blocks block-cyclically over a rectangle of cores. -/
  | slab (x y slot : Nat)
  /-- GATHER (R136). Copies rows selected by an index array. -/
  | gather (x y slot : Nat)
  /-- FILL (R137). Writes a repeated pattern. -/
  | fill (x y slot : Nat)
  /-- CCVT (R138). Converts or quantises an array of elements. -/
  | ccvt (x y slot : Nat)
  /-- CRED (R139). Adds a source array into a destination array. -/
  | cred (x y slot : Nat)
  /-- OPTADAM (R140). Applies an Adam update to weights in place. -/
  | optadam (x y slot : Nat)
  /-- OPTSGD (R140). Applies an SGD update to weights in place. -/
  | optsgd (x y slot : Nat)
  /-- ENGINE_CHUNK (R129). The engine reads and writes the next chunk of a running command. -/
  | engineChunk (x y slot : Nat)
  /-- COMMAND_COMPLETION (R127). A command completes: history, release, notify message and error recording. -/
  | commandCompletion (x y slot : Nat) (mtx : Bool)
  /-- GANG_START (R257). All 16 gang arrivals are present and the gang starts together. -/
  | gangStart (gang slot : Nat)
  /-- DEFERRED_ENGINE_ERROR (R347). A pending engine error is delivered as a trap before the next instruction. -/
  | deferredEngineError
  /-- SLICE_REQUEST (R103). A request arrives at a slice and is served in arrival order. -/
  | sliceRequest (n : Nat)
  /-- SECTOR_FILL (R98). Fill data returns from memory into a sector. -/
  | sectorFill (n : Nat)
  /-- TABLE_WALK (R82). A walk read of the shadow table returns. -/
  | tableWalk (n : Nat)
  /-- LINE_ARRIVAL (R150). A slice answer reaches the core, delivering data and waking the thread. -/
  | lineArrival (n : Nat)
  /-- REMOTE_SCRATCHPAD_REQUEST (R153). A window access from another core is served at the target core. -/
  | remoteScratchpadRequest (n : Nat)
  /-- TICKET_FETCH (R111). A ticket fetch arrives at its slice and is accepted or refused. -/
  | ticketFetch (n : Nat)
  /-- TICKET_FETCH_END (R112). A ticket fetch ends in success, failure or poison. -/
  | ticketFetchEnd (n : Nat)
  /-- REDEMPTION (R113). A redemption request is checked and served at the slice. -/
  | redemption (n : Nat)
  /-- RDMS_DELIVERY (R119). Redeemed bytes are written into the redeemer's scratchpad. -/
  | rdmsDelivery (n : Nat)
  /-- RETIRE_NOTICE (R115). A ticket retire notice reaches the issuing core and frees its charge. -/
  | retireNotice (n : Nat)
  /-- TICKET_RECLAIM (R115). A ticket entry's 2^20-cycle counter expires and it becomes EXPIRED. -/
  | ticketReclaim (n : Nat)
  /-- MESSAGE_ARRIVAL (R317). A message lands in a class queue or waits for room. -/
  | messageArrival (n : Nat)
  /-- BARRIER_ARRIVAL (R322). An arrival reaches the barrier home and may complete the phase. -/
  | barrierArrival (n : Nat)
  /-- MIGRATION_ARRIVAL (R325). A travel context arrives and enters a free visitor slot set. -/
  | migrationArrival (n : Nat)
  /-- COMB_OPERATION (R276). The comb unit linearises the operation at the head of its queue. -/
  | combOperation (die : Nat)
  /-- COMB_ANSWER (R277). The comb unit answers after all writes of an operation are acknowledged. -/
  | combAnswer (n : Nat)
  /-- SPILL (R73). The sluice engine starts copying the lowest hot frame to the Fen tier. -/
  | spill (p st : Nat)
  /-- SPILL_COMPLETE (R73). A spill copy completes; COLD increments and HOT decreases. -/
  | spillComplete (p st : Nat)
  /-- RECALL (R73). The sluice engine starts copying the highest cold frame into the window. -/
  | recall (p st : Nat)
  /-- RECALL_COMPLETE (R73). A recall copy completes; COLD decrements and HOT increases. -/
  | recallComplete (p st : Nat)
  /-- RING_ENTRY_READ (R371). The sequencer reads a ring entry from memory and enters the launch. -/
  | ringEntryRead (p r : Nat)
  /-- DEPENDENCE_READ (R310). A dependence counter read completes at the sequencer. -/
  | dependenceRead (p lid k : Nat)
  /-- DEPENDENCE_REREAD (R310). Every 100 GTIME ticks the sequencer rereads dependence counters. -/
  | dependenceReread (p : Nat)
  /-- LAUNCH_AGEING (R312). A launch rises one level after 6,400 ticks waiting. -/
  | launchAgeing (p lid : Nat)
  /-- GROUP_TABLE_READ (R313). Group table and membership reads complete for an admitted launch. -/
  | groupTableRead (p lid : Nat)
  /-- LAUNCH_DISPATCH (R313). At tick D every thread of the launch begins. -/
  | launchDispatch (p lid : Nat)
  /-- LAUNCH_RETIREMENT (R315). A drained launch retires, freeing slots and releasing. -/
  | launchRetirement (p lid : Nat)
  /-- DONE_INCREMENT (R315). The completion counter is incremented, then message and event follow. -/
  | doneIncrement (p lid : Nat)
  /-- WATCHDOG (R343). A thread parked for the watchdog interval traps WATCHDOG. -/
  | watchdog (p lid idx : Nat)
  /-- OCCUPANCY_RECOMPUTE (R101). Every 1,024 fabric cycles OCCCNT and OVER are recomputed. -/
  | occupancyRecompute
  /-- PWR (R380). Module power is refreshed every 1,000 GTIME ticks. -/
  | pwr (watts temp : Nat)
  /-- DROOP_TRIP (R327). A droop detector trip stretches an elastic quad's cycles. -/
  | droopTrip (q eighths : Nat)
  /-- POWER_LIMIT (R329). Near the power limit the fixed-admission gate closes. -/
  | powerLimit (near : Bool)
  /-- PIN (R328). A quad is pinned at an epoch tick for a fixed launch. -/
  | pin (q : Nat)
  /-- UNPIN (R328). A quad unpins at the next epoch tick after its last fixed launch retires. -/
  | unpin (q : Nat)
  /-- PAGE_ANSWER (R92). A write of PANS answers a page request with retry or failure. -/
  | pageAnswer (p : Nat) (v : BitVec 64)
  /-- RAISE (R87). A write of XCTL[0] requests a generation raise. -/
  | raise (p : Nat) (v : BitVec 64)
  /-- INVALIDATION_COMPLETE (R87). All slices and cores adopted the new GEN and old work finished; DONE is set. -/
  | invalidationComplete (p : Nat)
  /-- SWEEP_COMPLETE (R87). The sweeper finishes and SWP clears, starting any pending raise. -/
  | sweepComplete (p : Nat)
  /-- PRQCFG (R85). A write of PRQCFG sets HEAD and the ring size, enabling records. -/
  | prqcfg (p : Nat) (v : BitVec 64)
  /-- TAIL (R371). A write of a ring's TAIL, read as a system-scope acquire. -/
  | tail (p r : Nat) (v : BitVec 64)
  /-- EVHEAD (R373). A write of EVHEAD frees ring room and clears the outstanding message. -/
  | evhead (fn : Nat) (v : BitVec 64)
  /-- AXTBL (R72). A write of AXTBL discards loaded stacks. -/
  | axtbl (p : Nat) (v : BitVec 64)
  /-- TJTBL (R269). A write of TJTBL unloads every store of the partition. -/
  | tjtbl (p : Nat) (v : BitVec 64)
  /-- CLR (R349). Writing 1 clears every error count of a die block. -/
  | clr (die : Nat) (v : BitVec 64)
  /-- REGISTER_WRITE (R352). A write to a register without behaviour of its own stores its fields. -/
  | registerWrite (block idx off : Nat) (v : BitVec 64)
  /-- CREATE (R355). Creates a partition in the requested shape. -/
  | create (p : Nat)
  /-- RESHAPE (R356). Grows or shrinks a partition's shape. -/
  | reshape (p : Nat)
  /-- DESTROY (R358). Stops and discards a partition. -/
  | destroy (p : Nat)
  /-- STOP (R361). Starts a synchronised stop of a running partition. -/
  | stop (p : Nat)
  /-- RESUME (R365). Restarts a stopped partition at one epoch tick. -/
  | resume (p : Nat)
  /-- SAVE (R366). Writes the partition's context image and releases its resources. -/
  | save (p : Nat)
  /-- RESTORE (R367). Reads a context image and puts the partition back, stopped. -/
  | restore (p : Nat)
  /-- OP_UNDEFINED (R353). OP 0 or 8-15 has no effect except CODE := BADSTATE. -/
  | opUndefined (p op : Nat)
  /-- STOP_HALT (R361). At tick G the partition's slots stop issuing at the next boundary. -/
  | stopHalt (p : Nat)
  /-- FLUSH_TOKEN (R361). A router receives a partition's flush tokens and sweeps its packets. -/
  | flushToken (p x y : Nat)
  /-- LOAD (R381). Reads a new firmware image into the inactive slot and verifies it. -/
  | load
  /-- NEXTA (R381). Selects image A for the next start. -/
  | nexta
  /-- NEXTB (R381). Selects image B for the next start. -/
  | nextb
  /-- COMMIT (R381). Raises SVNMIN to the running image's SVN. -/
  | commit
  /-- FWOP_UNDEFINED (R380). Any other FWOP value gives BADOP. -/
  | fwopUndefined (op : Nat)
  /-- FW_VERIFY_DONE (R381). A loaded image's verification ends and its valid bit is set or left clear. -/
  | fwVerifyDone
  /-- ATGO (R382). Writes a signed attestation report for a partition. -/
  | atgo (v : BitVec 64)
  /-- MODULE_RESET (R379). Module reset clears tags and keys and enters S0. -/
  | moduleReset
  /-- IMAGE_VERIFIED (R378). The start image verifies and the module enters S1. -/
  | imageVerified
  /-- DIE_READY (R378). A die's memory and checks pass; its quads become ready. -/
  | dieReady (d : Nat)
  /-- DIE_FAILED (R378). A die fails bring-up; its quads become failed. -/
  | dieFailed (d : Nat)
  /-- FUNCTION_LEVEL_RESET (R374). A function-level reset resets a function's event registers. -/
  | functionLevelReset (p : Nat)
  /-- VECTOR_UNMASK (R374). The host unmasks a function's vector, sending one held message. -/
  | vectorUnmask (fn vector : Nat)
  /-- CXL_MEM_ACCESS (R369). A host CXL.mem access is served at the memory controllers. -/
  | cxlMemAccess (dec pa : Nat) (w : Option (BitVec 256))
  /-- HOST_SNOOP (R369). A host snoop is answered as holding no line. -/
  | hostSnoop (hpa : Nat)
  /-- INBOUND_SWARM_REQUEST (R376). A peer's request is checked against inbound windows and served or refused. -/
  | inboundSwarmRequest (die src peer pa : Nat) (op : SwarmOp)
  /-- LINK_STATE_CHANGE (R376). A swarm link goes up or down. -/
  | linkStateChange (die : Nat) (up : Bool) (peer : Nat)
  /-- FLIT_RETRY (R375). A flit that fails its CRC is retried and counted. -/
  | flitRetry (die : Nat) (swarm : Bool) (p lid : Nat)
  /-- SMBUS_REQUEST (R377). The board controller makes a request over SMBus. -/
  | smbusRequest (rq : SmbusRq)
  /-- ADOPT_NEW_GEN (R87). The new GEN sent by a raise arrives at a slice or a core, which adopts it so that old-generation tags miss from then on. -/
  | adoptNewGen (n : Nat)
  /-- WRITE_BACK_COMPLETE (R99). A write-back reaches its target (device memory, the host's coherence point or a peer) and its way is no longer busy. -/
  | writeBackComplete (n : Nat)
  /-- SWARM_ANSWER (R375). An answer, acknowledgement or refusal from a peer module arrives over a swarm link at the forwarding slice. -/
  | swarmAnswer (n : Nat) (ok : Bool) (data : BitVec 256)
  /-- STACK_OPERATION (R76). An AX operation arrives at the home sluice engine and linearises there in arrival order. -/
  | stackOperation (die : Nat)
  /-- WAKE_REACHES_CORE (R162). A wake or answer that is not a slice load answer (remote scratchpad answer, SEND acknowledgement, barrier phase wake, comb or sluice answer, ticket service acknowledgement) reaches a parked thread's core. -/
  | wakeReachesCore (n : Nat)
  /-- PARTITION_COMMAND_ENDED (R353). A partition command that took time (image write of SAVE, image read of RESTORE, the resume after a reshape) ends; CODE and STATE are written and a management event posted. -/
  | partitionCommandEnded (p : Nat) (err : Bool)
  /-- EVBASE (R373). A write of EVBASE makes the event ring usable, so held backlog records are written and signalled. -/
  | evbase (fn : Nat) (v : BitVec 64)
  /-- DROOP_RECOVERY (R327). The quad's supply recovers and the stretching of its core-clock cycles ends. -/
  | droopRecovery (q : Nat)
  /-- FIRMWARE_RUNS_ON_EVERY_DIE (R378). Firmware runs on every die and the module enters stage S2. -/
  | firmwareRunsOnEveryDie
  /-- JTAG_INSTRUCTION (R377). An IEEE 1149.1 instruction arrives at the JTAG port, with boundary scan served and debug instructions refused. -/
  | jtagInstruction (ir : Nat)
deriving DecidableEq, Repr

end Sys2Proof
end

