-- ==== Sys2Proof/Machine/State.lean ====
section
/-! DEFINITION. The state of the module: every register, queue, table and memory that the manual gives it, the packets
between its parts, and the reasons a step can stop. All of it is plain data. Numbers: a core is x + 640·y (R10), a slot
of a core or a bank of it is 16·core + slot, a slice is 4·quad + j (R12), a physical address is the 42 bits of R67, a
virtual address the 64 bits of R65. A partition p uses function p + 1; function 0 is PF0. -/

namespace Sys2Proof.Machine

/-- Reasons a step stops. DESIGN CHOICE, log entry 17. -/
inductive Fault where
  /-- Raised by `step` alone: the agenda names an encoded instruction where only an event may stand. The agenda is the
  model's own input, so no machine stops here. Safe: nothing is proved about a run that stops. -/
  | notAnEvent
deriving DecidableEq, Repr

/-- Reasons an instruction is refused. -/
inductive Refusal where
  /-- Raised by an arm of `exec` that has no meaning yet. Safe: nothing is proved about a run that stops. -/
  | notModelled (mnemonic : String)
deriving DecidableEq, Repr

/-- The name of a thread: its partition, its launch and its index in the launch (R168, R309, R314). -/
structure Tid where
  part : Nat := 0
  lid : Nat := 0
  idx : Nat := 0
deriving DecidableEq, Repr

/-! ## Accesses and packets -/

/-- The lines of R97 that a load names: a row line, or a column line of element width w. -/
inductive LineKind where
  | row
  | col (w : Nat)
deriving DecidableEq, Repr

/-- The operations of the memory-side ALU (R104, R155). -/
inductive AluOp where
  | add | min | max | minu | maxu | and | or | xor | swp | cas | addf
deriving DecidableEq, Repr

/-- What an access does at its home, the slice or SRAM port that holds its bytes (R153, R289). -/
inductive MemOp where
  /-- Reads the line that holds the access (R150); n is the number of bytes accessed. -/
  | read (line : LineKind) (n : Nat)
  /-- LDA's read of a word at its home; deep is the action of R297 that reads from the target. -/
  | readHome (deep : Bool)
  /-- Reads a row of code (R178). -/
  | fetch
  /-- Writes n contiguous bytes; deep writes the sector back before the answer (R302). -/
  | write (n : Nat) (data : Line) (deep : Bool)
  /-- Writes a column line (R156). -/
  | writeCol (w : Nat) (data : Line)
  /-- An ATOM of n bytes (R155). -/
  | alu (op : AluOp) (n : Nat) (v cmp : DWord)
  /-- VAADD of the 16 bytes x with eight 16-bit draws g (R157). -/
  | vaadd (t rm : BitVec 3) (x g : VReg)
  /-- CRED's update of one element of type code, with a rounding draw (R139). -/
  | red (code rm : Nat) (sat : Bool) (v g : Nat)
  /-- OPTADAM's or OPTSGD's update of one word: the word that a local slice puts in place, computed from the words of its
  element, and the operands with which a peer computes it from the word that it holds (R104, R105, R140). -/
  | fuse (v : Word) (last : Bool) (a b c : Word)
deriving DecidableEq, Repr

/-- One memory request of a thread: to a slice (by slice number) or to another core's scratchpad (by core). -/
structure Req where
  tid : Tid
  part : Nat
  core : Nat
  slot : Nat
  dst : Nat
  va : Nat
  op : MemOp
  /-- The signature that a carrying write brings (R294). -/
  sig : Sig := 0
  /-- Whether the line may be installed in L1 when it arrives (R150, R192). -/
  install : Bool := true
  /-- A parked write of L1CFG has delayed it (R146, R333). -/
  late : Bool := false
deriving DecidableEq, Repr

/-- What an answer says: performed, or a cause with its detail address. -/
inductive Verdict where
  | ok
  | trap (cause : Nat) (addr : Nat)
deriving DecidableEq, Repr

/-- What a parked instruction receives. -/
structure Answer where
  verdict : Verdict := .ok
  data : Line := 0
  val : Nat := 0
  words : List Word := []
  sig : Sig := 0
  /-- What a scratchpad read adds to its reader's seen signature (R295, R296). -/
  saw : Sig := 0
deriving DecidableEq, Repr

/-- A ticket fetch on its way to its slice (R118). -/
structure TkReq where
  tid : Tid
  part : Nat
  core : Nat
  slot : Nat
  slice : Nat
  ticket : Word
  kind : Nat
  cw : Nat
  va : Nat
  /-- The slice refused it for want of room; the core resends it (R111). -/
  refused : Bool := false
deriving DecidableEq, Repr

/-- The ticket forms that a slice serves (R113, R119). -/
inductive RedeemKind where
  | rdmv
  | rdms (dst room : Nat)
  | test
  | drop
deriving DecidableEq, Repr

/-- A redemption on its way to its slice (R113). -/
structure Redeem where
  tid : Tid
  part : Nat
  core : Nat
  slot : Nat
  slice : Nat
  ticket : Word
  kind : RedeemKind
deriving DecidableEq, Repr

/-- Who sends a message, and so who is told of its acceptance (R317). -/
inductive Sender where
  | thread (tid : Tid) (seq : Nat)
  | engine (core slot : Nat) (mtx : Bool)
  | comb (die : Nat)
  | sequencer
deriving DecidableEq, Repr

/-- A message of four words with its signature (R318). -/
structure Msg where
  w0 : Word := 0
  w1 : Word := 0
  w2 : Word := 0
  w3 : Word := 0
  sig : Sig := 0
deriving DecidableEq, Repr

/-- A message on its way to a class of a core. -/
structure MsgPkt where
  core : Nat
  cls : Nat
  msg : Msg
  sender : Sender
deriving DecidableEq, Repr

/-- What reaches a barrier home (R322, R323). -/
inductive ArriveKind where
  | bar
  | barx (red : Nat) (val : Word)
  | garv
  | gwt (since : Nat)
  /-- A member halted or stopped. -/
  | excuse
deriving DecidableEq, Repr

/-- An arrival, or a GWT's question, on its way to a barrier home. -/
structure Arrive where
  tid : Tid
  gid : Nat
  phase : Nat
  kind : ArriveKind
  sig : Sig := 0
  /-- The answer that the parked thread expects; none when it does not wait. -/
  seq : Option Nat
deriving DecidableEq, Repr

/-- A travel context (R167) on its way to a core. -/
structure Travel where
  tid : Tid
  /-- The core it goes to; the home core for GOHOME. -/
  core : Nat
  /-- GOHOME. -/
  back : Bool
  /-- The 64 bytes of the travel context (R167). -/
  ctx : BitVec 512 := 0
  /-- When it reached the core, among those that have: it waits for a visitor slot set since (R325). -/
  arrived : Option Nat := none
deriving DecidableEq, Repr

/-- What a packet carries. -/
inductive Body where
  | slice (r : Req)
  | answer (r : Req) (a : Answer) (gen : Half)
  | scratch (r : Req)
  | wake (tid : Tid) (seq : Nat) (a : Answer)
  /-- The service acknowledgement of a ticket fetch (R298). -/
  | served (tid : Tid)
  | tkFetch (t : TkReq)
  | redeem (r : Redeem)
  /-- Redeemed bytes on their way to own scratchpad, with the number of the entry that holds them (R114, R119). -/
  | rdms (tid : Tid) (core dst : Nat) (data : List Line) (entry : Nat)
  /-- A retire notice (R115). -/
  | retire (ticket : Word)
  | msg (m : MsgPkt)
  | arrive (a : Arrive)
  | travel (t : Travel)
deriving DecidableEq, Repr

/-- A packet in the mesh: its number, its partition and the core whose router it entered by. -/
structure Packet where
  seq : Nat
  part : Nat
  src : Nat
  body : Body
deriving DecidableEq, Repr

/-! ## Threads -/

/-- The CSRs that a thread holds in its own right (R64, R168). -/
structure Csrs where
  tvecl : Word := 0
  tvech : Word := 0
  epcl : Word := 0
  epch : Word := 0
  ecause : Word := 0
  eaddrl : Word := 0
  eaddrh : Word := 0
  escr : Word := 0
  repst : Word := 0
  fstat : Word := 0
  fmode : Word := 0
  fmtd : Word := 0
  sclpl : Word := 0
  sclph : Word := 0
  tblp : Word := 0
  rkeyl : Word := 0
  rkeyh : Word := 0
  rstr : Word := 0
  rposl : Word := 0
  rposh : Word := 0
  scopedem : Word := 0
  dbgctl : Word := 0
deriving DecidableEq, Repr

/-- What a parked thread waits for (R162). The waits that the watchdog exempts (R343) have names of their own. -/
inductive Wait where
  /-- An answer to a request that it sent: a line, a store's or an atomic's answer, a ticket answer, a comb or sluice
  answer, a generated fetch. -/
  | answer
  /-- Instruction words not yet fetched (R178). -/
  | fetch
  /-- A watermark (R133): the first channel that holds the access, or the place of a table entry that one holds. -/
  | watermark (k : Nat)
  /-- Too many live tickets of the thread (0) or toward a slice (1), or a refused fetch (2) (R109, R111). -/
  | tickets (k : Nat)
  /-- A release's own waits (R298); the second is that of FENCEE's or a GRP form's release. -/
  | release
  | groupRelease
  /-- An engine queue that is full (R143, R267, R74). -/
  | queueFull
  /-- CWAIT or MWAIT. -/
  | command
  | push (slot : Nat)
  | pop (slot : Nat)
  /-- WAITM on an empty class. -/
  | message
  /-- A SEND whose class is full. -/
  | send
  /-- A GRP form. -/
  | barrier
  | ring (r : Nat)
  | rdmw
  | fencee
  | idle
  /-- A GO or GOHOME that waits for queues to drain. -/
  | drain
  /-- A GO that waits for a visitor slot set. -/
  | visitor
  /-- A write of L1CFG (R146). -/
  | l1cfg
deriving DecidableEq, Repr

/-- Whether a thread issues (R162, R185, R337). -/
inductive Phase where
  /-- No thread. -/
  | none
  | run
  | parked (w : Wait)
  | halted
  /-- Stopped by a trap with a TVEC of zero. -/
  | stopped
deriving DecidableEq, Repr

/-- How far a parked instruction has come, so that its reissue repeats no effect (R153, R162). DEDUCED, log entry 18. -/
structure Stage where
  /-- 0 no release made; 1 its write-backs under way (R297); 2 made. -/
  rel : Nat := 0
  /-- The signature taken by that release. -/
  sig : Sig := 0
  /-- The write-backs that a release at scope 5 or 6 waits for. -/
  wbs : List Nat := []
  sent : Bool := false
  /-- The instruction's issue cycle has been counted (R161). -/
  charged : Bool := false
deriving DecidableEq, Repr

/-- The repeat in progress: the index of the next issue and of the last, the target's words and the steps (R58). -/
structure Rep where
  i : Nat
  last : Nat
  w0 : Word := 0
  w1 : Word := 0
  id : Nat := 0
  ia : Nat := 0
  ib : Nat := 0
deriving DecidableEq, Repr

/-- The state that a home slot keeps while its thread is away (R166). -/
structure Home where
  core : Nat
  slot : Nat
  s : Vector Word 16
  v : Vector VReg 128
  k : Vector Half 8
  csr : Csrs
  cycHi : Word
  timeHi : Word
  wake : Bool
  poison : List Nat := []
deriving DecidableEq, Repr

/-- A thread (R17, R164–R168, R294). DESIGN CHOICE, log entry 2. DESIGN CHOICE, log entry 5. -/
structure Thread where
  tid : Tid := {}
  s : Vector Word 16 := Vector.replicate 16 0
  /-- The predicate word; bit 0 reads 1. -/
  p : BitVec 8 := 1
  v : Vector VReg 128 := Vector.replicate 128 0
  k : Vector Half 8 := Vector.replicate 8 0
  pc : DWord := 0
  csr : Csrs := {}
  /-- GRP0–GRP3. -/
  grp : Vector Half 4 := Vector.replicate 4 0xFFFF
  /-- SIGH:SIGL (R334). -/
  sigHL : DWord := 0
  flog : Nat := 0
  fix : Bool := false
  det : Bool := false
  prv : Bool := false
  /-- The launch-permission bit (R191). -/
  lperm : Bool := false
  /-- The core the thread is on, and its lowest owned slot there. -/
  core : Nat := 0
  slot : Nat := 0
  /-- While it visits another core, what its home slot keeps. -/
  home : Option Home := none
  /-- In flight between cores (R325). -/
  travelling : Bool := false
  wake : Bool := false
  /-- The latches of RDCYC and RDTIME (R189). -/
  cycHi : Word := 0
  timeHi : Word := 0
  /-- The accumulator (R294), the seen signature (R295), and the signature that REL or FENCE attached (R294). -/
  acc : Sig := 0
  seen : Sig := 0
  attach : Sig := 0
  /-- The union of the signatures of the thread's releases (R293). -/
  told : Sig := 0
  /-- A_0–A_3 (R322), and the phase up to which each index has been acquired (R323). -/
  arr : Vector Nat 4 := Vector.replicate 4 0
  acquired : Vector Nat 4 := Vector.replicate 4 0
  phase : Phase := .none
  stage : Stage := {}
  answer : Option Answer := none
  /-- The packet whose answer the parked instruction takes; another answer is discarded (R343). -/
  expect : Option Nat := none
  rep : Option Rep := none
  /-- The words of a parked instruction, which its reissue takes, by address; and the row of code that it has asked for last. -/
  latch : Table Word := []
  fetchRow : Nat := 0
  /-- The next instruction is the first after a trap entry (R337). -/
  entered : Bool := false
  /-- The order in which parked threads parked (R158, R326); when the present wait began, and the ticks counted in the waits of
  the same instruction before it (R343). -/
  parkSeq : Nat := 0
  parkTime : Nat := 0
  waited : Nat := 0
  /-- Errors pending in queues of a slot that the thread has left (R347): whether a matrix queue's, word 0 and the status. -/
  owed : List (Bool × Word × Word) := []
  /-- Issue cycles consumed (R161). -/
  issued : Nat := 0
  /-- RDMS deliveries not yet made (R119), and fetches not yet acknowledged as served (R298). -/
  rdmsDue : Nat := 0
  unserved : Nat := 0
  /-- Words of registers that hold an uncorrectable error: 65536·lane + 4096·class + number (R341, R348). -/
  poison : List Nat := []
deriving DecidableEq, Repr

/-! ## Engines and slots -/

/-- Whether an access of an agent waits for a page answer, or has had a failure answer (R90, R92). -/
inductive Pf where
  | clear
  | waiting (rid : Nat)
  /-- The access to this 4 KiB page with this access class fails. -/
  | failed (page acc : Nat)
deriving DecidableEq, Repr

/-- The CSRs captured at a push (R138, R250). -/
structure Captured where
  fmtd : Word := 0
  tblp : Word := 0
  sclp : DWord := 0
  rkey : DWord := 0
  rstr : Word := 0
  rpos : DWord := 0
deriving DecidableEq, Repr

/-- The data copy of an AXPUSH or AXPOP (R75). -/
structure AxCopy where
  stack : Nat
  push : Bool
  len : Nat
  /-- The software side: the pushed bytes' source, or the pop's destination. -/
  addr : Nat
  /-- The stack side: ring offset in bytes, and the address of the Fen place when cold. -/
  ring : Nat
  cold : Option Nat
  arm : Bool
  /-- WBASE and WLEN of the stack. -/
  wbase : Nat
  wlen : Nat
  /-- The frame's number on the stack. -/
  frame : Nat
  /-- For a push: its frame has been popped or dropped. -/
  gone : Bool := false
  /-- For a pop: the push copy of its frame that was still pending, by its n (R76). -/
  src : Option Nat := none
  /-- When the operation linearised, among those of the stack (R76). -/
  n : Nat
deriving DecidableEq, Repr

/-- How far a command has come (R126, R257). -/
inductive CmdState where
  | queued
  /-- A gang arrival that waits for its mates. -/
  | arrived
  | running
  /-- All its chunks are done, or it failed; it completes next. -/
  | ending
deriving DecidableEq, Repr

/-- A command in a copy or matrix queue. -/
structure Cmd where
  id : Half
  word : Line
  cap : Captured
  ax : Option AxCopy := none
  state : CmdState := .queued
  /-- Destination bytes, or elements of a fused kind, done so far (R129). -/
  done : Nat := 0
  flags : BitVec 6 := 0
  code : Nat := 0
  /-- The unsaturated index of the first skipped or failing element. -/
  first : Option Nat := none
  /-- The element of several chunks whose rest is skipped (R128). -/
  skip : Option Nat := none
  /-- The destination signature (R298). -/
  sig : Sig := 0
  /-- The parameter block of OPTADAM and OPTSGD, read once (R140). -/
  params : Option (BitVec 512) := none
  pf : Pf := .clear
  /-- The write-backs that a completion release at scope 5 or 6 waits for; none before they are started. -/
  wbs : Option (List Nat) := none
  /-- The cores whose SRAM it reads or writes while it runs (R146). -/
  cores : List Nat := []
  /-- A parked write of L1CFG has delayed it (R146, R333). -/
  late : Bool := false
  /-- What a matrix command writes at its completion, by scratchpad offset, and whether it writes it poisoned (R256, R263). -/
  out : List (Nat × Byte) := []
  outPois : Bool := false
deriving DecidableEq, Repr

/-- A completed command in a history (R127). -/
structure Done where
  id : Half
  status : Word
  sig : Sig
  release : Bool
  /-- SC of its header. -/
  sc : Nat
deriving DecidableEq, Repr

/-- A copy or matrix queue of a slot (R121, R249). -/
structure Queue where
  cmds : List Cmd := []
  /-- The transfer counter. -/
  next : Half := 0
  /-- The last eight completed commands, newest first. -/
  hist : List Done := []
  /-- The pending deferred error: word 0 of R127 and the status word (R346). -/
  err : Option (Word × Word) := none
  /-- A completion message that its class has not accepted; the next command waits (R127, R317). -/
  posting : Bool := false
  /-- The destination signatures of the commands completed since the owner's last FENCEE, which acquires them (R298, R301). -/
  sigs : Sig := 0
  /-- The union of the destination signatures and the widest scope of the commands that have left the history (R298). -/
  past : Sig := 0
  pastSc : Nat := 0
deriving DecidableEq, Repr

/-- What belongs to one slot of one core. -/
structure Slot where
  /-- The inbound queue, oldest first (R158). -/
  inq : List Word := []
  copy : Queue := {}
  mtx : Queue := {}
  /-- CHBASE, CHLEN, CHWM in bytes (R130), and the bytes filled since the map was cleared, bit i for byte CHBASE + i. -/
  chbase : Nat := 0
  chlen : Nat := 0
  wm : Nat := 0
  filled : Nat := 0
  /-- The scope of the command that advanced WM last (R132). -/
  wmsc : Nat := 0
deriving DecidableEq, Repr

/-- A message class of a core (R317). -/
structure Class where
  queue : List Msg := []
  bound : Option Nat := none
  waiting : List MsgPkt := []
deriving DecidableEq, Repr

/-- A resident L1 line (R149). -/
structure L1Line where
  core : Nat
  part : Nat
  va : Nat
  kind : LineKind
  gen : BitVec 2
  data : Line
  /-- The SIG of the response that brought it (R295). -/
  sig : Sig := 0
deriving DecidableEq, Repr

/-- A live ticket and the slot it is charged to (R109). -/
structure Live where
  ticket : Word
  core : Nat
  part : Nat
  slot : Nat
  tid : Tid
deriving DecidableEq, Repr

/-! ## Slices -/

/-- A leaf of the shadow table as a slice uses it (R79). -/
structure Leaf where
  tgt : Nat := 0
  peer : Nat := 0
  link : Nat := 0
  /-- Target address of the page. -/
  addr : Nat := 0
  /-- log2 of the page size. -/
  size : Nat := 12
  prq : Bool := false
  enc : Bool := false
  x : Bool := false
  w : Bool := false
  rd : Bool := false
deriving DecidableEq, Repr

/-- A sector of a slice (R96). -/
structure Sector where
  slice : Nat
  set : Nat
  asn : Nat
  /-- VA[55:10]. -/
  vpn : Nat
  gen : BitVec 2
  whole : Bool := false
  valid : BitVec 32 := 0
  dirty : BitVec 32 := 0
  pois : BitVec 32 := 0
  leaf : Leaf
  /-- Target address of the sector's first byte. -/
  target : Nat
  sig : Sig := 0
  rows : Vector Line 32 := Vector.replicate 32 0
  /-- When it was last hit, for R100. -/
  used : Nat := 0
deriving DecidableEq, Repr

/-- A write-back on its way to its target; its way is busy meanwhile (R99, R100). -/
structure WriteBack where
  n : Nat
  slice : Nat
  set : Nat
  part : Nat
  /-- VA[55:10] of its sector, and its GEN[1:0]. -/
  vpn : Nat
  gen : BitVec 2
  leaf : Leaf
  target : Nat
  /-- The rows it carries. -/
  mask : BitVec 32
  pois : BitVec 32
  rows : Vector Line 32
  /-- The way stays with a sector that remains resident. -/
  keeps : Bool := false
deriving DecidableEq, Repr

/-- An entry of a translation cache (R82). -/
structure TcEntry where
  slice : Nat
  asn : Nat
  page : Nat
  gen : Half
  leaf : Leaf
deriving DecidableEq, Repr

/-- A fault entry (R90, R91). -/
structure FaultEntry where
  slice : Nat
  index : Nat
  asn : Nat
  page : Nat
  /-- 0 read, 1 write, 2 read-write, 3 fetch. -/
  acc : Nat
  rid : Nat
  /-- The 32-byte record it writes to the page-request ring. -/
  record : Line
  /-- The record has been written. -/
  recorded : Bool
deriving DecidableEq, Repr

/-- Where a request held at a slice stands. -/
inductive HeldStage where
  /-- The walk reads the entry of this level at this table (R82). -/
  | walk (level base : Nat) (gen : Half)
  /-- It needs a fault entry, and all 64 are in use. -/
  | noEntry (level : Nat) (pf : Bool) (gen : Half)
  /-- Its page fault is open. -/
  | faulted
  /-- The leaf permits it; rows are read from the target, then it is served. -/
  | fill (leaf : Leaf)
  /-- It went to a peer module and waits for the answer (R105, R375). -/
  | remote (leaf : Leaf)
deriving DecidableEq, Repr

/-- A request held at a slice. -/
structure Held where
  seq : Nat
  req : Req
  stage : HeldStage
  pf : Pf := .clear
  /-- The GEN under which its access began. -/
  gen : Half := 0
  /-- It has waited for a page answer, and its walk begins again when that comes (R88). -/
  again : Bool := false
  /-- The write-back of the victim whose way it takes (R100). -/
  evict : Option Nat := none
deriving DecidableEq, Repr

/-- The states of a ticket entry (R110). -/
inductive TkState where
  | pending | ready | claimed | spent | expired
deriving DecidableEq, Repr

/-- An entry of a ticket table (R110). -/
structure Ticket where
  n : Nat
  slice : Nat
  val : Word
  part : Nat
  lid : Nat
  core : Nat
  slot : Nat
  tid : Tid
  kind : Nat
  cw : Nat
  va : Nat
  state : TkState
  units : Nat
  pois : Bool := false
  fail : Option Nat := none
  data : List Line := []
  /-- The instant of its acceptance (`State.now`), moved on by stopped time (R115). -/
  since : Nat
  /-- The redemption that claimed it, with the packet that its thread expects. -/
  claim : Option (Redeem × Nat) := none
  pf : Pf := .clear
  /-- A drop or a launch's retirement discards the data when the fetch ends. -/
  discard : Bool := false
  /-- A redemption's bytes are on their way to its core (R114, R116). -/
  delivering : Bool := false
deriving DecidableEq, Repr

/-- The ticket's fetch has not ended (R112). -/
def Ticket.fetching (t : Ticket) : Bool :=
  t.discard || t.state == .pending || (t.state == .claimed && t.data.isEmpty && t.fail.isNone && !t.pois)

/-- The state of a group at its barrier home (R321, R322). -/
structure Bar where
  part : Nat
  lid : Nat
  gid : Nat
  count : Nat
  /-- The completed-phase count C. -/
  c : Nat := 0
  arrived : List Tid := []
  excused : List Tid := []
  red : Option Nat := none
  acc : Word := 0
  sig : Sig := 0
  /-- The union of signatures of each completed phase, oldest first. -/
  sigs : List Sig := []
  /-- Arrivals to phases above C, in arrival order. -/
  early : List Arrive := []
  /-- Arrived BAR and BARX members of phase C, and GWTs that wait. -/
  waiting : List Arrive := []
deriving DecidableEq, Repr

/-- An agent that accesses memory by itself, as a swarm answer and a page record name it. -/
inductive Agent where
  | held (seq : Nat)
  | engine (core slot : Nat) (mtx : Bool)
  | comb (n : Nat)
  | sluice (p st : Nat)
  | stackOp (n : Nat)
  | ticket (n : Nat)
  /-- An access of a launch: the read of dependence 1, or any other. -/
  | launch (p lid dep : Nat)
  | ring (p r : Nat)
deriving DecidableEq, Repr

/-- An access that found all 64 fault entries of its slice in use, and waits for one (R90). -/
structure FaultWait where
  slice : Nat
  part : Nat
  page : Nat
  acc : Nat
  agent : Agent
deriving DecidableEq, Repr

/-- A fill that found every way of its set busy, and waits for one (R100). -/
structure WayWait where
  slice : Nat
  part : Nat
  set : Nat
  agent : Agent
deriving DecidableEq, Repr

/-- A request that has reached its home in the present fabric cycle: the slice, or 1,280 + the core of a scratchpad; what it
concerns there, a sector, a word or a ticket; and its rank in the order of R103. -/
structure Met where
  home : Nat
  place : Nat
  rank : Nat
  agent : Option Agent := none
deriving DecidableEq, Repr

/-- A request to a peer module, one 32-byte line of it (R375). -/
structure Swarm where
  n : Nat
  agent : Agent
  part : Nat
  slice : Nat
  link : Nat
  peer : Nat
  addr : Nat
  write : Bool
  /-- The leaf under which its access began (R89). -/
  leaf : Leaf
  /-- The operation that the peer's slice performs. -/
  op : SwarmOp
  /-- The answer: performed or refused, and the bytes read. -/
  done : Option (Bool × Line) := none
  /-- The agent's present pass over its accesses has met it. -/
  used : Bool := false
deriving DecidableEq, Repr

/-! ## Launches, stores, stacks -/

/-- The steps of a launch (R309–R315). -/
inductive LaunchPhase where
  | waiting
  /-- Admitted; the group tables are to be read. -/
  | admitted
  /-- Ready for its dispatch tick. -/
  | ready
  | running
  /-- Retired; its counter is to be incremented (R315 step 4). -/
  | doneDue
deriving DecidableEq, Repr

/-- A launch (R307–R316). DEDUCED, log entry 53. -/
structure Launch where
  part : Nat
  lid : Nat
  entry : Nat
  ring : Nat
  level : Nat
  desc : BitVec 1024
  phase : LaunchPhase := .waiting
  /-- Whether each dependence was met at its last read (R310). -/
  met0 : Bool := false
  met1 : Bool := false
  /-- A read of each dependence is under way. -/
  read0 : Bool := false
  read1 : Bool := false
  /-- The page requests of its accesses; those of dependence 1 have a place of their own. -/
  pf : Pf := .clear
  pf1 : Pf := .clear
  /-- Ticks waited at this level up to `mark` (R312). -/
  waited : Nat := 0
  mark : Nat := 0
  status : Nat := 0
  /-- The failing check of R308, for INVALID. -/
  why : Nat := 0
  /-- The ring entry it was read from. -/
  ringEntry : Option Nat := none
  counterSkipped : Bool := false
  /-- Member counts of its groups and membership entries of its threads (R313). -/
  groups : List Nat := []
  members : List DWord := []
  sigHL : DWord := 0
  /-- Clock cycles of each quad that are not to be counted by RDCYC: those before dispatch and those of stops (R189). -/
  origin : Table Nat := []
deriving DecidableEq, Repr

/-- A loaded trajectory store (R270, R273). DEDUCED, log entry 49. -/
structure Store where
  part : Nat
  daddr : Nat
  desc : BitVec 1024
  seq : Nat := 0
  ver : Word := 0
  n : Nat := 0
  head : Nat := 0
  /-- The sums of levels 0–4, by 2^20·level + node; level 0 is T. -/
  tree : Table Nat := []
  /-- The code of R278 that broke it was returned; later operations return BROKEN. -/
  broken : Bool := false
  /-- The nodes whose word in the tree SRAM holds an uncorrectable error (R278, R348). -/
  bad : List Nat := []
deriving DecidableEq, Repr

/-- A memory access of a comb operation after its linearisation (R276, R278). -/
inductive CombTask where
  /-- Copies a slot's record to a destination; j names the result entry it belongs to. -/
  | copy (slot dst : Nat) (j : Option Nat)
  /-- Writes the captured record image to a slot. -/
  | record (slot : Nat) (prio : Word) (gen : Nat)
  /-- Writes a record's PRIO. -/
  | prio (slot : Nat) (p : Word)
  /-- Writes a result entry. -/
  | entry (j addr : Nat)
deriving DecidableEq, Repr

/-- A trajectory-store operation at a comb unit (R276–R288). -/
structure TjOp where
  n : Nat
  die : Nat
  tid : Tid
  seq : Nat
  part : Nat
  core : Nat
  slot : Nat
  form : Nat
  sid : Nat
  /-- The parameter block's first 64 bytes, and the supplied draws. -/
  block : BitVec 512
  draws : List Word := []
  /-- The record read from SRC, with a poison mark for each line (R277). -/
  src : Option (List (Line × Bool)) := none
  linearised : Bool := false
  code : Nat := 0
  perr : Bool := false
  flags : BitVec 6 := 0
  /-- The RO words of the block, by word number. -/
  ro : List (Nat × Word) := []
  handle : DWord := 0
  /-- Result entries of TJSMP: handle, weight, flags. -/
  entries : List (DWord × Word × BitVec 3) := []
  tasks : List CombTask := []
  /-- The record image that the first of the tasks writes, with a poison mark for each line, and the lines of it written (R279). -/
  buf : Option (List (Line × Bool)) := none
  copied : Nat := 0
  /-- It has passed the store and block checks (R281). -/
  checked : Bool := false
  /-- A write of DST has failed: its records are only judged (R278). -/
  dstGone : Bool := false
  /-- An access after its linearisation has met a page fault: the store's later operations wait for it to finish (R278). -/
  stuck : Bool := false
  /-- The descriptor and the policy version at its linearisation, and the signature of its writes. -/
  desc : BitVec 1024 := 0
  ver : Word := 0
  sig : Sig := 0
  pf : Pf := .clear
  /-- It has reached the comb unit: one sent later comes behind it. -/
  arrived : Bool := false
  /-- All its accesses are acknowledged; the answer is to be sent. -/
  finished : Bool := false
deriving DecidableEq, Repr

/-- A spill or recall under way (R73). -/
structure StackJob where
  spill : Bool
  /-- Lengths and offsets in bytes: the frame's length, its ring offset and its Fen place. A length of 0 is not yet read. -/
  len : Nat
  ring : Nat
  fen : Nat
  /-- The frame's number, and when the copy began among the operations of the stack. -/
  frame : Nat := 0
  n : Nat := 0
  done : Nat := 0
  pf : Pf := .clear
deriving DecidableEq, Repr

/-- A stack that was loaded at a stop: its home die, the spill or recall that was under way, and what the load of its entry for them
has come to; a load that has failed is not tried again for them. -/
structure AxLoad where
  stack : Nat
  home : Nat := 0
  job : Option StackJob := none
  pf : Pf := .clear
deriving DecidableEq, Repr

/-- A loaded stack (R71); lengths in units of 256 bytes. -/
structure Stack where
  eaddr : Nat
  fbase : Nat
  wbase : Nat
  wlen : Nat
  hi : Nat
  lo : Nat
  flen : Nat
  lbase : Nat
  home : Nat
  valid : Bool
  depth : Nat := 0
  cold : Nat := 0
  total : Nat := 0
  hot : Nat := 0
  /-- Where the next frame starts once every pending push copy has been made. -/
  wtop : Nat := 0
  job : Option StackJob := none
  /-- The spill (true) or recall that is not made until the frames change: it failed, or its frame is too long. -/
  idle : Option Bool := none
deriving DecidableEq, Repr

/-- An AX operation on its way to the home sluice engine (R74, R76). -/
structure StackOp where
  n : Nat
  tid : Tid
  seq : Nat
  part : Nat
  core : Nat
  slot : Nat
  form : Nat
  stack : Nat
  /-- The length, selector or count operand, and W. -/
  arg : Nat
  w : Bool := false
  /-- The address pair. -/
  addr : Nat := 0
  /-- The signature of the release before an AXPUSH. -/
  sig : Sig := 0
  pf : Pf := .clear
  /-- It has reached the engine: one sent later comes behind it. -/
  arrived : Bool := false
deriving DecidableEq, Repr

/-! ## Partitions and functions -/

/-- STATE of PSTAT (R352). -/
inductive PState where
  | free | running | stopped | saved
deriving DecidableEq, Repr

/-- The commands of R353 that take a stop. -/
inductive StopFor where
  | stop | save | destroy | reshape
deriving DecidableEq, Repr

/-- A synchronised stop under way (R361): its tick G, its command, and whether the halt of step 2 has been made. -/
structure StopAt where
  g : Nat
  why : StopFor
  halted : Bool := false
deriving DecidableEq, Repr

/-- What a command in progress has read of the partition block, and so what it claims (R352, R353). DEDUCED, log entry 66. -/
structure Claim where
  shape : DWord
  ctl : DWord
  memr : DWord
  linkr : DWord
  grant : DWord
  area : DWord
deriving DecidableEq, Repr

/-- A submission ring of a partition (R370, R371). -/
structure Ring where
  base : DWord := 0
  tail : Nat := 0
  log : Nat := 0
  head : Nat := 0
  overrun : Bool := false
  pf : Pf := .clear
deriving DecidableEq, Repr

/-- A generation raise that is being adopted (R87). -/
structure Raise where
  old : Half
  /-- Slices (below 1,280) and cores (1,280 + core) that have adopted the new GEN. -/
  adopted : List Nat := []
  /-- The write-backs of step 3. -/
  wbs : List Nat := []
  /-- Work begun under the old GEN: the numbers below this one (R87 step 4). -/
  before : Nat := 0
deriving DecidableEq, Repr

/-- A partition: its block (R352), its translation and occupancy blocks (R85, R101) and what the sequencer and the
controller keep for it. DEDUCED, log entry 49. DESIGN CHOICE, log entry 89. -/
structure Part where
  state : PState := .free
  pshape : DWord := 0
  pctl : DWord := 6
  pmem : DWord := 0
  plink : DWord := 0
  pgrant : DWord := 0
  pctx : DWord := 0
  ctxlen : DWord := 0
  stopt : DWord := 0
  code : Nat := 0
  busy : Bool := false
  /-- PCUR, and the values of the other registers that the last CREATE or RESHAPE read. -/
  pcur : DWord := 0
  ctl : DWord := 6
  memr : DWord := 0
  linkr : DWord := 0
  grant : DWord := 0
  stop : Option StopAt := none
  /-- The command in progress: its OP, once its work is all that remains; what it claims; and whether the partition resumes
  when it ends. -/
  working : Option Nat := none
  claim : Option Claim := none
  back : Bool := false
  /-- GTIME and the quads' cycle counts at the halt, for the counts that exclude stops. -/
  haltTime : Nat := 0
  haltCycles : Table Nat := []
  xroot : DWord := 0
  root : Nat := 0
  gen : Half := 0
  ctxgen : Half := 0
  done : Half := 0
  pend : Bool := false
  inv : Bool := false
  swp : Bool := false
  raise : Option Raise := none
  prqbase : DWord := 0
  prqhead : Nat := 0
  prqlog : Nat := 0
  prqtail : Nat := 0
  occlim : Nat := 0
  occcnt : Nat := 0
  overrun : Bool := false
  /-- The number of its key (R69). -/
  key : Option Nat := none
  rings : Vector Ring 4 := Vector.replicate 4 {}
  axtbl : DWord := 0
  tjtbl : DWord := 0
  /-- Stores (with whether each was broken) and stacks (with the spill or recall that was under way) that were loaded at the stop
  whose context was restored (R72, R76, R269). -/
  tjReload : List (Nat × Bool) := []
  axReload : List AxLoad := []
  wdog : Word := 0
  /-- The next launch id and entry number (R309). -/
  nextLid : Nat := 1
  nextEntry : Nat := 0
  /-- GTIME at the last periodic reread of the dependences (R310). -/
  reread : Nat := 0
deriving DecidableEq, Repr

/-- The event side of a function: its event ring and its MSI-X state (R370, R372–R374). -/
structure Fn where
  evbase : DWord := 0
  evhead : Nat := 0
  evlog : Nat := 0
  evtail : Nat := 0
  rcnt : Half := 0
  rerr : Bool := false
  ovf : Bool := false
  evlost : DWord := 0
  backlog : List Line := []
  /-- A message of vector 0 is outstanding. -/
  outstanding : Bool := false
  /-- The mask of the function, and those of its vectors (R374). -/
  fmask : Bool := false
  masked0 : Bool := false
  masked1 : Bool := false
  pending0 : Bool := false
  pending1 : Bool := false
deriving DecidableEq, Repr

/-- The contents of a saved image (R366), by its number: the bytes that SAVE writes to the image area stand for it, and RESTORE
finds it by the bytes that it reads there. DESIGN CHOICE, log entry 10. -/
structure Image where
  n : Nat
  /-- The 32-byte units of the image. -/
  units : Nat
  part : Nat
  ctxgen : Half
  shape : DWord
  launches : List Launch
  nextLid : Nat
  nextEntry : Nat
  threads : List Thread
  slots : Table Slot
  classes : Table Class
  banks : Memory
  tags : List Nat
  sramPois : List Nat
  live : List Live
  /-- The save buffers, each packet with its router. -/
  packets : List Packet
  held : List Held
  faults : List FaultEntry
  tickets : List Ticket
  bars : List Bar
  lost : List Nat
  comb : List TjOp
  stackOps : List StackOp
  stores : List (Nat × Bool)
  stackTab : List AxLoad
  swarms : List Swarm
  /-- L1CFG by 64·core + partition (R169). -/
  l1cfg : Table Half
  /-- GTIME and the quads' cycle counts at the halt. -/
  savedAt : Nat
  savedCycles : Table Nat
deriving DecidableEq, Repr

/-! ## Clocks, links, management -/

/-- The clock of a quad (R327, R328): the number of the core cycle that begins at an instant, which may be the next one, and
what the cycles from then on take. Instants are counted in units of 1/224 tick (`State.now`). -/
structure Clock where
  cycles : Nat := 0
  since : Nat := 0
  pinned : Bool := false
  /-- Eighths of the nominal period by which a cycle is stretched: by a droop detector, and by the power limit. -/
  stretch : Nat := 0
  limit : Nat := 0
deriving DecidableEq, Repr

/-- The error counts of a die (R349). DESIGN CHOICE, log entry 88. -/
structure Errs where
  cedram : DWord := 0
  cefen : DWord := 0
  cesram : DWord := 0
  cellc : DWord := 0
  cetree : DWord := 0
  cemtx : DWord := 0
  uecnt : DWord := 0
  tbrk : DWord := 0
  lnkrt : DWord := 0
deriving DecidableEq, Repr

/-- A swarm link (R375, R376). -/
structure Link where
  up : Bool := false
  peer : Nat := 0
deriving DecidableEq, Repr

/-- The management block (R380). -/
structure Mgmt where
  stage : Nat := 0
  /-- S0 of this start has verified its images (R381). -/
  tried : Bool := false
  dready : BitVec 16 := 0
  dfail : BitVec 16 := 0
  svna : Half
  svnb : Half
  svnmin : Half
  next : Bool
  bval : Bool
  aval : Bool
  act : Bool
  fwaddr : DWord := 0
  fwlen : DWord := 0
  fwbusy : Bool := false
  fwcode : Nat := 0
  /-- The load under way: the bytes read, and whether their read met an error or their length is excessive (R381). -/
  loading : Option (List Byte × Bool) := none
  /-- The bytes of the image that each slot holds. -/
  imga : List Byte
  imgb : List Byte
  ataddr : DWord := 0
  atpart : Nat := 0
  /-- The instant up to which ATBUSY is 1 (`State.now`). -/
  atend : Nat := 0
  atcode : Nat := 0
  idpub : BitVec 256 := Config.idPub
  pwr : Word := 0
  tmax : BitVec 8 := 0
  logcnt : DWord := 0
deriving DecidableEq, Repr

/-- What the module sends to the outside. -/
inductive Out where
  /-- An MSI-X message (R373). -/
  | msix (fn vector : Nat)
  /-- A CXL.mem read's bytes, or a write's acknowledgement, or an error completion (R369, R378). -/
  | cxlData (data : Line)
  | cxlDone
  | cxlError
  /-- The answer to a snoop: no line is held (R369). -/
  | snoopMiss
  /-- A request to a peer module (R375). -/
  | swarm (link peer addr n : Nat) (op : SwarmOp)
  /-- The answer to a peer's request: bytes, or a refusal (R376). -/
  | swarmData (die : Nat) (data : Line)
  | swarmRefused (die : Nat)
  /-- An answer over SMBus (R377). -/
  | smbus (words : List DWord)
  /-- The answer to the host's read of a register or of configuration space (R4, R360). -/
  | regData (v : DWord)
deriving DecidableEq, Repr

/-- What an error strikes (R106, R148, R341, R342, R348): the model's own input, as no part of the module makes one.
DESIGN CHOICE, log entry 88. -/
inductive Upset where
  /-- A corrected error on a die: of GDDR7 (0), the Fen tier (1), core SRAM and registers (2), a slice (3), tree SRAM (4). -/
  | corrected (die kind : Nat)
  /-- The next read of a 32-byte unit of device memory meets an uncorrectable error, and leaves its poison marker. -/
  | unit (u : Nat)
  /-- An uncorrectable error in a row of a resident sector. -/
  | row (slice part vpn row : Nat)
  /-- In the data of a ticket entry. -/
  | ticket (n : Nat)
  /-- In an SRAM word, by its address. -/
  | sram (a : Nat)
  /-- In an L1 line. -/
  | line (core part va : Nat)
  /-- In a word of a register of a thread, as `Thread.poison` numbers it. -/
  | reg (tid : Tid) (r : Nat)
  /-- In a node of a store's tree SRAM. -/
  | node (part sid node : Nat)
  /-- The host answers the next read, or write, of a 32-byte unit of its memory with an error completion. -/
  | host (write : Bool) (u : Nat)
deriving DecidableEq, Repr

/-- Which step comes next, and the time that passes before it, in units of 1/224 tick of GTIME: the model's own input (log
entry 1). DESIGN CHOICE, log entry 1. DESIGN CHOICE, log entry 12. DESIGN CHOICE, log entry 15. -/
inductive Turn where
  /-- The thread issues; with refetch its core drops its fetched words first (R178). -/
  | issue (tid : Tid) (refetch : Bool) (delay : Nat)
  | event (i : Instr) (delay : Nat)
  /-- An error strikes. -/
  | upset (u : Upset) (delay : Nat)
  /-- The host reads the doubleword at an offset of a function's BAR0, or of its configuration space (R4, R360). -/
  | hostRead (fn : Nat) (config : Bool) (a : Nat) (delay : Nat)
deriving DecidableEq, Repr

/-- The state of the module. -/
structure State where
  /-- The thread that issues, and all others. -/
  thr : Thread
  threads : List Thread := []
  /-- By 16·core + slot. -/
  slots : Table Slot := []
  /-- Core SRAM by 4096·(16·core + bank) + byte (R144). -/
  sram : Memory := []
  /-- The owner tag of each bank that has one (R144). -/
  tags : Table Nat := []
  /-- Poisoned SRAM words, by address (R148). -/
  sramPois : List Nat := []
  l1 : List L1Line := []
  /-- L1CFG by 64·core + partition (R145). -/
  l1cfg : Table Half := []
  /-- Fetched words by 2^64·(64·core + partition) + address (R178). -/
  ibuf : Table Word := []
  /-- By 16·core + class. -/
  classes : Table Class := []
  live : List Live := []
  /-- Packets in the mesh, and those in the routers' save buffers (R362). -/
  net : List Packet := []
  swept : List Packet := []
  sectors : List Sector := []
  tc : List TcEntry := []
  held : List Held := []
  faults : List FaultEntry := []
  /-- The accesses that wait for a fault entry, in arrival order (R90). -/
  faultWaits : List FaultWait := []
  /-- The fills that wait for a way, in arrival order (R100). -/
  wayWaits : List WayWait := []
  /-- The fabric cycle of the last arrivals at the homes, and the arrivals in it (R103). -/
  metAt : Nat := 0
  mets : List Met := []
  tickets : List Ticket := []
  /-- Lost flags, 64·slice + partition (R296). -/
  lost : List Nat := []
  wbs : List WriteBack := []
  bars : List Bar := []
  swarms : List Swarm := []
  /-- Device memory by physical address (R67), the key each 32-byte unit was written under, and poisoned units. -/
  dev : Memory := []
  devKey : Table Nat := []
  devPois : List Nat := []
  /-- Units of device memory whose next read meets an uncorrectable error (R106). -/
  devErr : List Nat := []
  /-- Host memory by host physical address, and the key of units written under the encrypt attribute. -/
  host : Memory := []
  hostKey : Table Nat := []
  /-- Units of host memory written poisoned (R107), and those whose next read or write the host answers with an error
  completion (R342). -/
  hostPois : List Nat := []
  hostErr : List (Bool × Nat) := []
  parts : Table Part := []
  fns : Table Fn := []
  launches : List Launch := []
  stores : Table Store := []
  comb : List TjOp := []
  stackTab : Table Stack := []
  stackOps : List StackOp := []
  images : List Image := []
  /-- GTIME (R189), and the time since its last tick in units of 1/224 tick: a pinned cycle is 35 units, a fabric cycle 28, a
  nominal elastic cycle 32 (R327, R328). -/
  gtime : Nat := 0
  frac : Nat := 0
  clocks : Table Clock := []
  /-- The fixed-admission gate is closed (R329). -/
  gate : Bool := false
  errs : Table Errs := []
  links : Table Link := []
  /-- Inbound windows by 16·die + w (R376). -/
  windows : Table Line := []
  modnum : Nat := 0
  /-- The device physical ranges of the HDM decoders, base and length, by 65·range + decoder (R369). -/
  hdm : Table (Nat × Nat) := []
  /-- GEN of the capability table (R360). -/
  capgen : Word := 0
  mgmt : Mgmt
  /-- Log records, newest first (R380). -/
  log : List Line := []
  /-- The number of the next key, and the management key's (R69, R379). -/
  nextKey : Nat := 1
  mgmtKey : Nat := 0
  out : List Out := []
  /-- The instruction that the JTAG port holds (R377). -/
  jtag : Nat := 0
  /-- The model's own: which steps come next, the issues since the last tick of an empty agenda, the next free value's
  number, the next packet's number. -/
  agenda : List Turn := []
  turn : Nat := 0
  fresh : Nat := 0
  seqno : Nat := 0
deriving DecidableEq, Repr

/-- An image carries a correct signature: its last 64 bytes, over the SHA-512 digest of its header and body (R381).
DESIGN CHOICE, log entry 83. -/
def imageSigned (image : List Byte) : Bool :=
  let n := image.length - 64
  decide (64 ≤ image.length) && Config.vendorSigned (sha512 (image.take n)) (image.drop n)

/-- Whether a slot's factory image verifies: a correct signature and a security version of at least SVNMIN (R381).
DESIGN CHOICE, log entry 6. -/
def Mgmt.factoryValid (imageB : Bool) : Bool :=
  imageSigned (Config.factoryImage imageB) &&
    decide (Config.factorySvnMin.toNat ≤ (Config.imageSvn (Config.factoryImage imageB)).toNat)

/-- The management block at the first start (R380). NEXT and ACT name image A: the manual gives no value (log entry 6).
DESIGN CHOICE, log entry 6. -/
def Mgmt.reset : Mgmt where
  svna := Config.imageSvn (Config.factoryImage false)
  svnb := Config.imageSvn (Config.factoryImage true)
  imga := Config.factoryImage false
  imgb := Config.factoryImage true
  svnmin := Config.factorySvnMin
  next := false
  bval := Mgmt.factoryValid true
  aval := Mgmt.factoryValid false
  act := false

/-- The module right after reset (R379, R380): stage S0, no partition, no thread, no owner tag, no sector, no key but the
management key. The focused thread record is a thread of no launch in phase `none` (log entry 2). DESIGN CHOICE, log entry 2. -/
def State.reset : State where
  thr := {}
  mgmt := Mgmt.reset

end Sys2Proof.Machine
end

