-- ==== Sys2Proof/Machine/Ops.lean ====
section
/-! DEFINITION. The named operations that the meanings share: where things are (R10–R12, R94), reading and writing a
thread's registers, retiring, parking, taking a trap (R336) and returning from one (R188), packets, events to the host
(R372, R373) and the clocks (R189, R327). -/

namespace Sys2Proof.Machine

/-! ## Bits and places -/

/-- Bits lo .. lo+n-1 of a value as a number. -/
def bitsOf {w : Nat} (x : BitVec w) (lo n : Nat) : Nat := x.toNat / 2 ^ lo % 2 ^ n

/-- Bit i of a number. -/
def natBit (x i : Nat) : Bool := x / 2 ^ i % 2 == 1

def coreX (c : Nat) : Nat := c % 640
def coreY (c : Nat) : Nat := c / 640
/-- The core at device coordinates (R10). -/
def coreAt (x y : Nat) : Nat := x + 640 * y
/-- The die of a core (R10). -/
def dieOf (c : Nat) : Nat := coreX c / 160 + 4 * (coreY c / 160)
/-- The core index within its die (R10). -/
def coreIndex (c : Nat) : Nat := coreX c % 160 + 160 * (coreY c % 160)
/-- The quad of a core (R12). -/
def quadOf (c : Nat) : Nat := coreX c / 32 + 20 * (coreY c / 40)
/-- The die of a quad (R12). -/
def quadDie (q : Nat) : Nat := q % 20 / 5 + 4 * (q / 20 / 4)
/-- The gang of a core (R12). -/
def gangOf (c : Nat) : Nat := coreX c / 16 + 40 * coreY c
/-- The core that a slice attaches to (R330). -/
def sliceCore (j : Nat) : Nat := coreAt (32 * (j / 4 % 20) + 16 * (j % 2)) (40 * (j / 4 / 20) + 20 * (j % 4 / 2))
/-- The core that a comb unit and a launch sequencer attach to (R330). -/
def dieCore (d : Nat) : Nat := coreAt (160 * (d % 4) + 80) (160 * (d / 4) + 80)

/-- The fields of a shape (R352). -/
def shSlots (sh : DWord) : Nat := bitsOf sh 24 16
def shFlog (sh : DWord) : Nat := bitsOf sh 22 2
def shQw (sh : DWord) : Nat := bitsOf sh 17 5
def shQh (sh : DWord) : Nat := bitsOf sh 12 5
def shQx (sh : DWord) : Nat := bitsOf sh 4 5
def shQy (sh : DWord) : Nat := bitsOf sh 0 4

/-- The quads of a shape's region, by ascending number (R94, R350). -/
def shQuads (sh : DWord) : List Nat :=
  (List.range (shQh sh * shQw sh)).map (fun i => shQx sh + i % shQw sh + 20 * (shQy sh + i / shQw sh))

/-- The number n of slices of a shape (R94). -/
def shSlices (sh : DWord) : Nat := 4 * (shQw sh * shQh sh)

/-- The slice at an index of a shape's slice set (R94). -/
def shSlice (sh : DWord) (i : Nat) : Nat :=
  4 * (shQx sh + i / 4 % shQw sh + 20 * (shQy sh + i / 4 / shQw sh)) + i % 4

/-- The index of a slice in a shape's slice set (R94). -/
def shIndex (sh : DWord) (j : Nat) : Nat :=
  4 * ((j / 4 % 20 - shQx sh) + shQw sh * (j / 4 / 20 - shQy sh)) + j % 4

/-- The quads of a shape include q. -/
def shHasQuad (sh : DWord) (q : Nat) : Bool :=
  shQx sh ≤ q % 20 && q % 20 < shQx sh + shQw sh && shQy sh ≤ q / 20 && q / 20 < shQy sh + shQh sh

/-- Partition-relative coordinates lie in the region (R11, R65). -/
def shHasRel (sh : DWord) (x y : Nat) : Bool := x < 32 * shQw sh && y < 40 * shQh sh

/-- The core at partition-relative coordinates (R11). -/
def shCore (sh : DWord) (x y : Nat) : Nat := coreAt (32 * shQx sh + x) (40 * shQy sh + y)
/-- Partition-relative coordinates of a core (R11, R168). -/
def relX (sh : DWord) (c : Nat) : Nat := coreX c - 32 * shQx sh
def relY (sh : DWord) (c : Nat) : Nat := coreY c - 40 * shQy sh

/-- The cores of a shape's region. -/
def shCores (sh : DWord) : List Nat :=
  (List.range (40 * shQh sh)).flatMap (fun y => (List.range (32 * shQw sh)).map (fun x => shCore sh x y))

/-! ## Tables of the state -/

def State.part (s : State) (p : Nat) : Part := Table.getD s.parts p {}
def State.setPart (s : State) (p : Nat) (x : Part) : State := { s with parts := Table.set s.parts p x }
def State.modPart (s : State) (p : Nat) (f : Part → Part) : State := s.setPart p (f (s.part p))

/-- The current shape of a partition, PCUR (R352). -/
def State.shape (s : State) (p : Nat) : DWord := (s.part p).pcur

def State.slotAt (s : State) (core slot : Nat) : Slot := Table.getD s.slots (16 * core + slot) {}
def State.setSlot (s : State) (core slot : Nat) (x : Slot) : State :=
  { s with slots := Table.set s.slots (16 * core + slot) x }
def State.modSlot (s : State) (core slot : Nat) (f : Slot → Slot) : State := s.setSlot core slot (f (s.slotAt core slot))

def State.classAt (s : State) (core c : Nat) : Class := Table.getD s.classes (16 * core + c) {}
def State.setClass (s : State) (core c : Nat) (x : Class) : State :=
  { s with classes := Table.set s.classes (16 * core + c) x }

def State.fn (s : State) (f : Nat) : Fn := Table.getD s.fns f {}
def State.setFn (s : State) (f : Nat) (x : Fn) : State := { s with fns := Table.set s.fns f x }

/-- Bit k of the partition's slot mask: it owns slot, bank, class and queue k of each core of its region (R350). -/
def State.ownsSlot (s : State) (p core k : Nat) : Bool :=
  natBit (shSlots (s.shape p)) k && shHasQuad (s.shape p) (quadOf core)

/-! ## Threads -/

/-- The distance between a thread's owned slots, 16/f (R160). -/
def Thread.step (t : Thread) : Nat := 16 / 2 ^ t.flog
/-- The number of a thread's vector registers, 16·f (R17). DESIGN CHOICE, log entry 61. -/
def Thread.vregs (t : Thread) : Nat := 16 * 2 ^ t.flog
/-- The thread owns slot k on its present core (R160). -/
def Thread.ownsHere (t : Thread) (k : Nat) : Bool := k < 16 && k % t.step == t.slot % t.step
/-- The mask of those slots (R168). -/
def Thread.mask (t : Thread) : Nat := ((List.range 16).filter t.ownsHere).foldl (fun m k => m + 2 ^ k) 0
/-- The thread exists and has neither halted nor stopped (R158). -/
def Thread.isLive (t : Thread) : Bool :=
  match t.phase with
  | .run | .parked _ => true
  | _ => false
/-- Slot k of a core is one of the thread's own: on the core it is on, or at home while it is away (R158, R166). -/
def Thread.holds (t : Thread) (core k : Nat) : Bool :=
  (t.core == core && !t.travelling && t.ownsHere k) ||
  (match t.home with
   | some h => h.core == core && k < 16 && k % t.step == h.slot % t.step
   | none => false)

/-- All threads, the focused one first. -/
def State.allThreads (s : State) : List Thread := s.thr :: s.threads

def State.thread? (s : State) (tid : Tid) : Option Thread :=
  s.allThreads.find? (fun t => t.tid == tid && t.phase != .none)

/-- Apply f to the thread of that name. -/
def State.modThread (s : State) (tid : Tid) (f : Thread → Thread) : State :=
  if s.thr.tid == tid && s.thr.phase != .none then { s with thr := f s.thr }
  else { s with threads := s.threads.map (fun t => if t.tid == tid then f t else t) }

/-- Apply f to every thread. -/
def State.mapThreads (s : State) (f : Thread → Thread) : State := { s with thr := f s.thr, threads := s.threads.map f }

/-- The live thread of partition p that holds slot k of a core (R158). -/
def State.liveIn (s : State) (p core k : Nat) : Option Thread :=
  s.allThreads.find? (fun t => t.isLive && t.tid.part == p && t.holds core k)

/-- The thread, live or not, whose queue is that of a slot (R121): the visitor there, or the thread at home there. -/
def State.ownerOf (s : State) (core slot : Nat) : Option Thread :=
  s.allThreads.find? (fun t => t.phase != .none &&
    ((t.core == core && t.slot == slot && !t.travelling) ||
     (match t.home with
      | some h => h.core == core && h.slot == slot
      | none => false)))

/-- The focused thread changes places with the thread of that name. -/
def State.focus (s : State) (tid : Tid) : State :=
  if s.thr.tid == tid && s.thr.phase != .none then s
  else match s.threads.find? (fun t => t.tid == tid && t.phase != .none) with
    | some t =>
      let rest := s.threads.filter (fun u => u.tid != tid)
      { s with thr := t, threads := if s.thr.phase == .none then rest else rest ++ [s.thr] }
    | none => s

/-! ## Registers (R164) -/

/-- Scalar register r. -/
def Thread.rs (t : Thread) (r : BitVec 4) : Word := t.s[r.toNat]
/-- Write scalar register r; a write of the whole register clears its poison (R341). -/
def Thread.ws (t : Thread) (r : BitVec 4) (x : Word) : Thread :=
  { t with s := t.s.set r.toNat x (by exact r.isLt), poison := t.poison.filter (· != r.toNat) }
/-- Address pair n, s(2n+1):s(2n). -/
def Thread.ra (t : Thread) (n : BitVec 3) : DWord :=
  join (t.rs (n ++ 1#1)) (t.rs (n ++ 0#1))
/-- Write address pair n: both registers. -/
def Thread.wa (t : Thread) (n : BitVec 3) (x : DWord) : Thread :=
  (t.ws (n ++ 0#1) (loWord x)).ws (n ++ 1#1) (hiWord x)
/-- Predicate n; p0 reads 1. -/
def Thread.rp (t : Thread) (n : BitVec 3) : Bool := n == 0 || t.p.getLsbD n.toNat
/-- Write predicate n; a write to p0 is ignored. -/
def Thread.wp (t : Thread) (n : BitVec 3) (b : Bool) : Thread :=
  if n == 0 then t
  else { t with p := if b then t.p ||| (1#8 <<< n.toNat) else t.p &&& ~~~(1#8 <<< n.toNat) }
/-- The predicate word as a program reads it: bit 0 reads 1. -/
def Thread.pword (t : Thread) : BitVec 8 := t.p ||| 1
/-- Vector register r. DESIGN CHOICE, log entry 61. -/
def Thread.rv (t : Thread) (r : BitVec 7) : VReg := t.v[r.toNat]
/-- Write vector register r. -/
def Thread.wv (t : Thread) (r : BitVec 7) (x : VReg) : Thread :=
  { t with v := t.v.set r.toNat x (by exact r.isLt), poison := t.poison.filter (fun n => n % 65536 != 4096 + r.toNat) }
/-- Write vector register r, of which one lane alone is a word written whole (R341). -/
def Thread.wvLane (t : Thread) (r : BitVec 7) (lane : Nat) (x : VReg) : Thread :=
  { t with v := t.v.set r.toNat x (by exact r.isLt), poison := t.poison.filter (· != 65536 * lane + 4096 + r.toNat) }
/-- The vector pair 2n, 2n+1: the even register low. -/
def Thread.rvp (t : Thread) (n : BitVec 6) : Line := t.rv (n ++ 1#1) ++ t.rv (n ++ 0#1)
/-- Write the vector pair 2n, 2n+1. -/
def Thread.wvp (t : Thread) (n : BitVec 6) (x : Line) : Thread :=
  (t.wv (n ++ 0#1) (x.extractLsb' 0 128)).wv (n ++ 1#1) (x.extractLsb' 128 128)
/-- Mask register n. -/
def Thread.rk (t : Thread) (n : BitVec 3) : Half := t.k[n.toNat]
/-- Write mask register n. -/
def Thread.wk (t : Thread) (n : BitVec 3) (x : Half) : Thread :=
  { t with k := t.k.set n.toNat x (by exact n.isLt), poison := t.poison.filter (· != 8192 + n.toNat) }
/-- OR flags into FSTAT (R168). -/
def Thread.orFlags (t : Thread) (f : BitVec 6) : Thread :=
  { t with csr := { t.csr with fstat := t.csr.fstat ||| f.setWidth 32 } }

/-- Whether a guard enables (R49): the predicate's value, exclusive-or G[25]. -/
def Thread.enabled (t : Thread) (g : BitVec 4) : Bool := t.rp (g.setWidth 3) != g.getLsbD 3

/-! ## Clocks (R189, R327, R328) -/

/-- What a core cycle takes, in units of 1/224 tick of 10 ns: 1/640 MHz pinned, else 1/700 MHz stretched by eighths, one at
most half (R327). DEDUCED, log entry 13. -/
def Clock.period (c : Clock) : Nat := if c.pinned then 35 else 32 + 4 * Nat.min 4 (Nat.max c.stretch c.limit)
/-- The cycles begun at an instant, the first of them numbered 0. -/
def Clock.at (c : Clock) (now : Nat) : Nat :=
  if now < c.since then c.cycles - 1 else c.cycles + (now - c.since) / c.period
/-- The clock from the cycle on that begins at an instant or first after it: the cycle under way keeps its length, the next
ones have another (R327). -/
def Clock.settle (c : Clock) (now : Nat) : Clock :=
  if now < c.since then c
  else
    let n := (now - c.since + c.period - 1) / c.period
    { c with cycles := c.cycles + n, since := c.since + n * c.period }

/-- The instant, in units of 1/224 tick. -/
def State.now (s : State) : Nat := 224 * s.gtime + s.frac

def State.clock (s : State) (q : Nat) : Clock := Table.getD s.clocks q {}
def State.modClock (s : State) (q : Nat) (f : Clock → Clock) : State :=
  { s with clocks := Table.set s.clocks q (f ((s.clock q).settle s.now)) }
/-- The cycle count of a quad's clock now. -/
def State.cycles (s : State) (q : Nat) : Nat := (s.clock q).at s.now
/-- An epoch tick begins now (R328). -/
def State.epoch (s : State) : Bool := s.gtime % 5 == 0 && s.frac == 0

/-! ## Packets -/

/-- A packet enters the mesh at a core's router. DESIGN CHOICE, log entry 3. -/
def State.send (s : State) (part src : Nat) (b : Body) : State :=
  { s with net := s.net ++ [{ seq := s.seqno, part := part, src := src, body := b }], seqno := s.seqno + 1 }

/-- A packet of the focused thread enters the mesh; the thread takes its answer. -/
def State.request (s : State) (b : Body) : State :=
  let s1 := s.send s.thr.tid.part s.thr.core b
  { s1 with thr := { s1.thr with expect := some s.seqno } }

/-- The bytes that a signature adds to a payload. -/
def sigSize (g : Sig) : Nat := if g == 0 then 0 else 64

/-- The bytes of a packet's payload (R362): data, and the 64 bytes of a signature or of a travel context. DEDUCED, log entry 115. -/
def Body.bytes (b : Body) : Nat :=
  match b with
  | .slice r =>
    (match r.op with
     | .write n .. => n
     | .writeCol .. | .vaadd .. => 32
     | .alu _ n .. => 2 * n
     | _ => 0) + sigSize r.sig
  | .answer r _ _ =>
    (match r.op with
     | .write .. | .writeCol .. => 0
     | .vaadd .. => 0
     | .fetch => 32
     | .alu _ n .. => n + 64
     | _ => 32 + 64)
  | .scratch r =>
    (match r.op with
     | .write n .. => n
     | .writeCol .. | .vaadd .. => 32
     | .alu _ n .. => 2 * n
     | _ => 0)
  | .wake _ _ a => 32 + sigSize a.sig
  | .rdms _ _ _ data _ => 32 * data.length
  | .msg _ => 16 + 64
  | .arrive _ => 64
  | .travel _ => 64
  | .served _ | .tkFetch _ | .redeem _ | .retire _ => 0

/-- The entries of 64 bytes that a packet takes in a router's save buffer (R362): ceil(n / 64) for a payload of n bytes, and no less
than one; one that waits at its endpoint takes none. DEDUCED, log entry 115. -/
def Packet.entries (k : Packet) : Nat :=
  match k.body with
  | .travel { arrived := some _, .. } => 0
  | .tkFetch { refused := true, .. } => 0
  | b => Nat.max 1 ((b.bytes + 63) / 64)

/-- The packet has its credits at the router it entered by: with the earlier packets of its partition there, and those in the
save buffer, it takes at most 64 entries; without them it still waits at its source (R362). DEDUCED, log entry 115. -/
def State.granted (s : State) (k : Packet) : Bool :=
  let ks := (s.net ++ s.swept).filter (fun x => x.part == k.part && x.src == k.src && x.seq < k.seq)
  ks.foldl (fun n x => n + x.entries) k.entries ≤ 64

/-- The packet of a number, once it is in the mesh. -/
def State.packet? (s : State) (n : Nat) : Option Packet := (s.net.find? (fun k => k.seq == n)).filter s.granted
def State.dropPacket (s : State) (n : Nat) : State := { s with net := s.net.filter (fun k => k.seq != n) }

/-- A free value's number. DESIGN CHOICE, log entry 3. -/
def State.tick (s : State) : State := { s with fresh := s.fresh + 1 }

/-! ## Events to the host (R372, R373) -/

/-- An event record. -/
def eventRecord (d1 d0 : DWord) (arg lid time : Nat) (rc : Half) (sub type : Nat) : Line :=
  d1 ++ d0 ++ BitVec.ofNat 32 arg ++ BitVec.ofNat 32 lid ++ BitVec.ofNat 32 time ++ rc ++ BitVec.ofNat 8 sub
    ++ BitVec.ofNat 8 type

/-- The event ring can take a record. DEDUCED, log entry 58. -/
def Fn.room (f : Fn) : Bool :=
  f.evbase != 0 && 4 ≤ f.evlog && f.evlog ≤ 12 && (f.evtail + 1) % 2 ^ f.evlog != f.evhead % 2 ^ f.evlog

/-- A vector's messages are held: it is masked, or its function (R374). -/
def Fn.masks (f : Fn) (vector : Nat) : Bool := f.fmask || (if vector = 0 then f.masked0 else f.masked1)

/-- Send the message of a vector (R373). -/
def State.sendMsix (s : State) (fn vector : Nat) : State :=
  let f := s.fn fn
  { s.setFn fn (if vector = 0 then { f with outstanding := true, pending0 := false } else { f with pending1 := false }) with
    out := s.out ++ [.msix fn vector] }

/-- A record has been written: its message, held as the pending bit while it is masked; vector 0 sends none while one is
outstanding (R373, R374). -/
def State.signal (s : State) (fn vector : Nat) : State :=
  let f := s.fn fn
  if f.masks vector then s.setFn fn (if vector = 0 then { f with pending0 := true } else { f with pending1 := true })
  else if vector = 0 && f.outstanding then s
  else s.sendMsix fn vector

/-- Write bytes of host memory. -/
def State.hostWrite (s : State) (a : Nat) (bs : List Byte) : State :=
  { s with host := Memory.writeBytes s.host a bs }

/-- Write one record at EVTAIL and signal it. -/
def State.writeEvent (s : State) (fn : Nat) (r : Line) : State :=
  let f := s.fn fn
  let s1 := s.hostWrite (f.evbase.toNat + 32 * f.evtail) (leBytes r.toNat 32)
  (s1.setFn fn { f with evtail := (f.evtail + 1) % 2 ^ f.evlog }).signal fn 0

/-- Write held records while the ring has room. -/
def State.drainEvents (s : State) (fn : Nat) (rs : List Line) : State :=
  match rs with
  | [] => s.setFn fn { s.fn fn with backlog := [] }
  | r :: rest =>
    if (s.fn fn).room then State.drainEvents (s.writeEvent fn r) fn rest
    else s.setFn fn { s.fn fn with backlog := r :: rest }

/-- Post an event of a function (R373). DEDUCED, log entry 58. -/
def State.postEvent (s : State) (fn type sub arg lid : Nat) (d0 d1 : DWord) : State :=
  let f := s.fn fn
  let r := eventRecord d1 d0 arg lid s.gtime f.rcnt sub type
  if f.backlog.isEmpty && f.room then s.writeEvent fn r
  else if f.backlog.length < 1024 then s.setFn fn { f with backlog := f.backlog ++ [r] }
  else s.setFn fn { f with ovf := true, evlost := f.evlost + 1 }

/-- Post an event of a partition, to its virtual function (R350). -/
def State.postPart (s : State) (p type sub arg lid : Nat) (d0 d1 : DWord) : State :=
  s.postEvent (p + 1) type sub arg lid d0 d1

/-- A log record (R380); its layout is not given, so it holds a kind and two values (log entry 9). DESIGN CHOICE, log entry 9. -/
def State.logEntry (s : State) (kind a b : Nat) : State :=
  { s with log := ((BitVec.ofNat 128 b ++ BitVec.ofNat 64 a ++ BitVec.ofNat 64 kind) :: s.log).take 4096
           mgmt := { s.mgmt with logcnt := s.mgmt.logcnt + 1 } }

/-! ## Error counts (R349) and timing breaks (R333) -/

/-- A count that saturates. -/
def satInc (x : DWord) : DWord := if x == BitVec.allOnes 64 then x else x + 1

def State.modErrs (s : State) (die : Nat) (f : Errs → Errs) : State :=
  { s with errs := Table.set s.errs die (f (Table.getD s.errs die {})) }

/-- A timing break of a FIXED launch: it is counted on its die and posted to the partition (R333, R372). -/
def State.timingBreak (s : State) (p lid die sub : Nat) : State :=
  (s.modErrs die (fun e => { e with tbrk := satInc e.tbrk })).postPart p 4 sub 0 lid 0 0

/-- An operation of a thread is delayed on a core beyond its time; in a FIXED launch that breaks the timing (R333).
DEDUCED, log entry 133. -/
def State.delayed (s : State) (t : Thread) (core : Nat) : State :=
  if t.fix then s.timingBreak t.tid.part t.tid.lid (dieOf core) 3 else s

/-! ## Halting and stopping -/

/-- The slice that is a group's barrier home (R321). -/
def barrierHome (sh : DWord) (lid gid : Nat) : Nat :=
  shSlice sh (Nat.xor (lid * 0x9E3779B9 % 2 ^ 32) (gid * 0x85EBCA6B % 2 ^ 32) % shSlices sh)

/-- A halted or stopped thread excuses itself from each of its groups, behind its arrivals in flight (R322). DEDUCED, log entry 54. -/
def State.excuse (s : State) (t : Thread) : State :=
  (t.grp.toList.filter (fun g => g != 0xFFFF)).foldl (fun s g =>
    s.send t.tid.part t.core (.arrive { tid := t.tid, gid := g.toNat, phase := 0, kind := .excuse, seq := none })) s

/-- The slots whose queues a thread owns: the one it is on, and its home slot while it is away (R166). -/
def Thread.queues (t : Thread) : List (Nat × Nat) :=
  (if t.travelling then [] else [(t.core, t.slot)]) ++ (match t.home with
    | some h => [(h.core, h.slot)]
    | none => [])

/-- The errors pending in the queues of a slot: whether a matrix queue's, word 0 and the status (R346). -/
def Slot.errs (k : Slot) : List (Bool × Word × Word) :=
  (k.copy.err.map (fun e => (false, e.1, e.2))).toList ++ (k.mtx.err.map (fun e => (true, e.1, e.2))).toList
/-- The slot without its pending error of one queue. -/
def Slot.clearErr (k : Slot) (mtx : Bool) : Slot :=
  if mtx then { k with mtx := { k.mtx with err := none } } else { k with copy := { k.copy with err := none } }

/-- The errors pending for a thread that has halted or stopped are posted as events (R347). DEDUCED, log entry 54. -/
def State.undelivered (s : State) (t : Thread) : State :=
  let es := t.owed ++ t.queues.flatMap (fun cs => (s.slotAt cs.1 cs.2).errs)
  let s1 := es.foldl (fun s e => s.postPart t.tid.part 3 0 t.tid.idx t.tid.lid (e.2.1.setWidth 64) (e.2.2.setWidth 64)) s
  let s2 := t.queues.foldl (fun s cs => s.modSlot cs.1 cs.2 (fun k => (k.clearErr false).clearErr true)) s1
  s2.modThread t.tid (fun t => { t with owed := [] })

/-! ## Taking a trap (R336, R337) -/

/-- REPST for the issue at which a repeat stands, STEP modulo 64; 0 outside a repeat (R59). DESIGN CHOICE, log entry 121. -/
def repstOf (r : Option Rep) : Word :=
  match r with
  | some r => BitVec.ofNat 32 (2 ^ 31 + (r.last - r.i) % 64 * 256 + r.i % 64)
  | none => 0

/-- TVEC (R168). -/
def Thread.tvec (t : Thread) : DWord := join t.csr.tvech t.csr.tvecl

/-- The CSRs that a trap writes (R336 steps 2–4). -/
def Csrs.trapped (c : Csrs) (cause : Nat) (detail epc : DWord) (repst : Word) : Csrs :=
  { c with epcl := loWord epc, epch := hiWord epc, repst := repst, ecause := BitVec.ofNat 32 (cause % 256)
           eaddrl := loWord detail, eaddrh := hiWord detail, dbgctl := 0 }

/-- A CSR as `Thread.poison` numbers it (R341). -/
def csrReg (n : Nat) : Nat := 4096 * 4 + n

/-- The CSRs that trap entry writes whole (R336): EPC, ECAUSE, EADDR, REPST and DBGCTL. -/
def trapCsrs : List Nat := [0x002, 0x003, 0x004, 0x005, 0x006, 0x008, 0x070].map csrReg

/-- Trap entry of a thread: the saved registers, the cleared single-step bit, and the handler's address; the thread
stops when TVEC is zero or when it may not enter (R336, R337). A word written whole loses its poison (R341). -/
def Thread.takeTrap (t : Thread) (cause : Nat) (detail epc : DWord) (repst : Word) (mayEnter : Bool) : Thread :=
  let t1 := { t with csr := t.csr.trapped cause detail epc repst, rep := none, stage := {}, answer := none
                     expect := none, latch := [], waited := 0, poison := t.poison.filter (fun r => !trapCsrs.contains r) }
  if t.tvec != 0 && mayEnter then { t1 with pc := t.tvec &&& ~~~3#64, phase := .run, entered := true }
  else { t1 with phase := .stopped, entered := false }

/-- The focused thread takes a trap; a thread that stops posts an event (R337). -/
def State.trapWith (s : State) (cause : Nat) (detail epc : DWord) (repst : Word) (mayEnter : Bool) : State :=
  let s1 := { s with thr := s.thr.takeTrap cause detail epc repst mayEnter }
  match s1.thr.phase with
  | .stopped =>
    ((s1.postPart s.thr.tid.part 2 cause s.thr.tid.idx s.thr.tid.lid epc detail).undelivered s1.thr).excuse s1.thr
  | _ => s1

/-- The issue cycles that an issue consumes (R161). DESIGN CHOICE, log entry 12. -/
def State.charge (s : State) (n : Nat) : State := { s with thr := { s.thr with issued := s.thr.issued + n } }

/-- A precise trap at the instruction that the focused thread issues, after its last issue cycle (R336). -/
def State.trapCost (s : State) (cost cause : Nat) (detail : DWord) : State :=
  (s.charge cost).trapWith cause detail s.thr.pc (repstOf s.thr.rep) true

/-- The same for a one-cycle instruction. -/
def State.trap (s : State) (cause : Nat) (detail : DWord) : State := s.trapCost 1 cause detail

/-- A trap of an instruction fetch: the first instruction after a trap entry stops the thread (R178, R337). -/
def State.trapFetch (s : State) (cause : Nat) (detail : DWord) : State :=
  s.trapWith cause detail s.thr.pc (repstOf s.thr.rep) (!s.thr.entered)

/-! ## Retiring and parking (R58, R161, R162, R345) -/

/-- The thread goes on at a pc with a repeat state; nothing of the retired instruction remains. -/
def Thread.goOn (t : Thread) (pc : DWord) (rep : Option Rep) : Thread :=
  { t with pc := pc, rep := rep, phase := .run, stage := {}, answer := none, expect := none, entered := false, latch := []
           waited := 0 }

/-- Where the thread goes after a form of len bytes, within a repeat or outside (R45, R58). -/
def Thread.after (t : Thread) (len : Nat) : DWord × Option Rep :=
  match t.rep with
  | some r => if r.i < r.last then (t.pc, some { r with i := r.i + 1 }) else (t.pc + BitVec.ofNat 64 (4 + len), none)
  | none => (t.pc + BitVec.ofNat 64 len, none)

/-- The single-step trap that follows a retired instruction (R345). -/
def State.stepped (s : State) (old : DWord) : State :=
  if s.thr.csr.dbgctl == 1 then s.trapWith 0x10 old s.thr.pc (repstOf s.thr.rep) true else s

/-- An enabled instruction retires to a pc: its issue cycles are counted, and it may be single-stepped. -/
def State.retireTo (s : State) (cost : Nat) (pc : DWord) (rep : Option Rep) : State :=
  ({ s.charge cost with thr := (s.charge cost).thr.goOn pc rep }).stepped s.thr.pc

/-- An enabled instruction of len bytes retires. -/
def State.retire (s : State) (len cost : Nat) : State :=
  s.retireTo cost (s.thr.after len).1 (s.thr.after len).2

/-- A disabled instruction passes: one issue cycle, no effect, no single step (R49, R338). -/
def State.pass (s : State) (len : Nat) : State :=
  { s.charge 1 with thr := (s.charge 1).thr.goOn (s.thr.after len).1 (s.thr.after len).2 }

/-- The word at an address as the focused thread's core holds it: kept for a parked instruction, or fetched (R178). -/
def State.word? (s : State) (a : Nat) : Option Word :=
  (Table.get? s.thr.latch a).or (Table.get? s.ibuf (2 ^ 64 * (64 * s.thr.core + s.thr.tid.part) + a))

/-- The words of the instruction at the pc, and of a repeat's target, that are held. -/
def State.wordsHere (s : State) : Table Word :=
  [0, 4, 8].filterMap (fun i => (s.word? (s.thr.pc.toNat + i)).map (fun w => (s.thr.pc.toNat + i, w)))

/-- Waits on other agents of the program, which the watchdog exempts (R343). -/
def Wait.exempt (w : Wait) : Bool :=
  match w with
  | .idle | .message | .push _ | .pop _ | .barrier | .groupRelease | .command | .rdmw | .fencee | .send | .visitor
  | .watermark _ => true
  | _ => false

/-- The ticks that a parked thread has waited in waits that count, up to a tick (R343). -/
def Thread.waitedAt (t : Thread) (now : Nat) : Nat :=
  match t.phase with
  | .parked w => if w.exempt then t.waited else t.waited + (now - t.parkTime)
  | _ => t.waited

/-- The focused thread parks at its instruction, which consumes one issue cycle (R162). A reissue that still waits for the
same thing is no issue; one that waits for another has come further, and consumes a cycle of its own. DEDUCED, log entry 18. -/
def State.park (s : State) (w : Wait) : State :=
  let t := s.thr
  let t1 : Thread := { t with issued := t.issued + 1, stage := { t.stage with charged := true }, phase := .parked w
                              latch := if t.stage.charged then t.latch else s.wordsHere }
  match t.phase with
  | .parked v =>
    if v = w then (if t.stage.charged then s else { s with thr := t1 })
    else { s with thr := { t1 with parkTime := s.gtime, waited := t.waitedAt s.gtime } }
  | _ => { s with thr := { t1 with parkSeq := s.seqno, parkTime := s.gtime }, seqno := s.seqno + 1 }

/-- An outcome with a next state: every meaning ends so. -/
abbrev Next := Host.Outcome State Fault Refusal

/-- A guarded form (R49). -/
def guarded (g : BitVec 4) (len : Nat) (s : State) (f : State → State) : Next :=
  .next (if s.thr.enabled g then f s else s.pass len)

/-- A one-word form that writes only registers of its thread, of a given cost. -/
def regForm (g : BitVec 4) (cost : Nat) (s : State) (f : Thread → Thread) : Next :=
  guarded g 4 s (fun s => ({ s with thr := f s.thr }).retire 4 cost)

/-- A one-word form without a guard that writes only registers of its thread. -/
def vecForm (cost : Nat) (s : State) (f : Thread → Thread) : Next :=
  .next (({ s with thr := f s.thr }).retire 4 cost)

/-! ## Returning from a trap (R188) -/

/-- EPC (R168). -/
def Thread.epc (t : Thread) : DWord := join t.csr.epch t.csr.epcl

/-- ERET without a repeat to resume: the pc becomes EPC and REPST is cleared; ERET is not single-stepped itself. -/
def Thread.eretPlain (t : Thread) : Thread :=
  { t.goOn t.epc none with csr := { t.csr with repst := 0 } }

/-- ERET into a repeat: the prefix is not consumed again and issue STEP comes next (R59). -/
def Thread.eretRepeat (t : Thread) (w0 w1 : Word) (id ia ib : Nat) : Thread :=
  let i := bitsOf t.csr.repst 0 6
  { t.goOn t.epc (some { i := i, last := i + bitsOf t.csr.repst 8 6, w0 := w0, w1 := w1, id := id, ia := ia, ib := ib })
    with csr := { t.csr with repst := 0 } }

/-- Time moves on, in units of 1/224 tick. -/
def State.advance (s : State) (delay : Nat) : State :=
  { s with gtime := s.gtime + (s.frac + delay) / 224, frac := (s.frac + delay) % 224 }

/-- A slot's copy or matrix queue (R121, R249). -/
def Slot.queue (k : Slot) (mtx : Bool) : Queue := if mtx then k.mtx else k.copy

/-- An answer reaches the thread that expects it; an answer that nothing expects is discarded (R343). DEDUCED, log entry 18. -/
def State.deliver (s : State) (tid : Tid) (seq : Nat) (a : Answer) : State :=
  s.modThread tid (fun t => if t.expect == some seq then { t with answer := some a, expect := none, seen := t.seen ||| a.saw } else t)

end Sys2Proof.Machine
end

