-- ==== Sys2Proof/Machine/Flags.lean ====
section
/-! DEFINITION. Number formats, exact values, rounding and every exception flag (R195–R209, R212, R213). -/

namespace Sys2Proof.Machine

/-- The six flags, in FSTAT's order (R168, R208). -/
abbrev Flags := BitVec 6
def fNV : Flags := 32
def fOF : Flags := 16
def fUF : Flags := 8
def fNX : Flags := 4
def fDZ : Flags := 2
def fNF : Flags := 1

/-- A flag when a condition holds. -/
def flagIf (b : Bool) (f : Flags) : Flags := if b then f else 0

/-- An exact value: a real ±m·2^e with a signed zero, an infinity, or a NaN (R197, R198). -/
inductive Val where
  | nan
  | inf (neg : Bool)
  | fin (neg : Bool) (m : Nat) (e : Int)
deriving DecidableEq, Repr

/-- A binary floating-point format (R196, R198): width, fraction width, bias, the encodings of the largest finite
magnitude, infinity and canonical NaN. -/
structure Fmt where
  w : Nat
  m : Nat
  bias : Nat
  max : Nat
  inf : Option Nat
  nan : Option Nat
deriving DecidableEq, Repr

def fmtF : Fmt := { w := 32, m := 23, bias := 127, max := 0x7F7FFFFF, inf := some 0x7F800000, nan := some 0x7FC00000 }
def fmtBf : Fmt := { w := 16, m := 7, bias := 127, max := 0x7F7F, inf := some 0x7F80, nan := some 0x7FC0 }
def fmtHf : Fmt := { w := 16, m := 10, bias := 15, max := 0x7BFF, inf := some 0x7C00, nan := some 0x7E00 }
def fmtE5 : Fmt := { w := 8, m := 2, bias := 15, max := 0x7B, inf := some 0x7C, nan := some 0x7E }
def fmtE4 : Fmt := { w := 8, m := 3, bias := 7, max := 0x7E, inf := none, nan := some 0x7F }
def fmtE2 : Fmt := { w := 4, m := 1, bias := 1, max := 0x7, inf := none, nan := none }
def fmtX : Fmt := { w := 19, m := 10, bias := 127, max := 0x3FBFF, inf := some 0x3FC00, nan := some 0x3FE00 }

/-- The value of a finite encoding's magnitude: significand and exponent of its unit (R197). -/
def Fmt.finite (f : Fmt) (mag : Nat) : Nat × Int :=
  let ef := mag / 2 ^ f.m
  let frac := mag % 2 ^ f.m
  if ef = 0 then (frac, 1 - (f.bias : Int) - f.m) else (2 ^ f.m + frac, (ef : Int) - f.bias - f.m)

/-- The value of an encoding (R197, R198). -/
def Fmt.value (f : Fmt) (x : Nat) : Val :=
  let mag := x % 2 ^ (f.w - 1)
  let neg := x / 2 ^ (f.w - 1) % 2 == 1
  if mag ≤ f.max then .fin neg (f.finite mag).1 (f.finite mag).2
  else if f.inf == some mag then .inf neg
  else .nan

/-- An encoding with its sign. -/
def Fmt.sign (f : Fmt) (neg : Bool) (mag : Nat) : Nat := if neg then 2 ^ (f.w - 1) + mag else mag

/-- Rounding modes (R52, R204). -/
abbrev Rm := Nat

/-- A nonnegative real as num / den, slightly above it when `more`: the exact value of a function that no fraction gives. -/
structure Mag where
  num : Nat
  den : Nat := 1
  more : Bool := false
deriving DecidableEq, Repr

/-- m·2^e as a fraction. -/
def Mag.of (m : Nat) (e : Int) : Mag :=
  match e with
  | .ofNat k => { num := m * 2 ^ k }
  | .negSucc k => { num := m, den := 2 ^ (k + 1) }

/-- The fraction times 2^k. -/
def Mag.scale (v : Mag) (k : Int) : Mag :=
  match k with
  | .ofNat k => { v with num := v.num * 2 ^ k }
  | .negSucc k => { v with den := v.den * 2 ^ (k + 1) }

/-- floor(log2 v) of a nonzero v. -/
def Mag.log2 (v : Mag) : Int :=
  let e := (Nat.log2 v.num : Int) - Nat.log2 v.den
  let s := v.scale (-e)
  if s.num < s.den then e - 1 else e

/-- Whether a magnitude between two grid points rounds up: q is the quotient's floor, rem / den its fraction (R204, R206). -/
def roundsUp (rm : Rm) (neg : Bool) (g q rem den : Nat) (more : Bool) : Bool :=
  match rm with
  | 0 => decide (den < 2 * rem) || (2 * rem == den && (more || q % 2 == 1))
  | 2 => (rem != 0 || more) && !neg
  | 3 => (rem != 0 || more) && neg
  | 4 => decide (den ≤ 2 * rem)
  | 5 => decide (65536 ≤ 65536 * rem / den + g)
  | _ => false

/-- Round to multiples of 2^u: the multiple and whether it is inexact. -/
def Mag.toUnit (v : Mag) (u : Int) (rm : Rm) (neg : Bool) (g : Nat) : Nat × Bool :=
  let s := v.scale (-u)
  let q := s.num / s.den
  let rem := s.num % s.den
  (if roundsUp rm neg g q rem s.den v.more then q + 1 else q, rem != 0 || v.more)

/-- What an overflow delivers (R205): the encoding and whether it is an infinity or a NaN. -/
def Fmt.overrun (f : Fmt) (rm : Rm) (sat neg : Bool) : Nat × Bool :=
  let beyond : Bool := !sat && (rm == 0 || rm == 4 || (rm == 2 && !neg) || (rm == 3 && neg))
  if beyond then
    match f.inf, f.nan with
    | some i, _ => (f.sign neg i, true)
    | none, some n => (n, true)
    | none, none => (f.sign neg f.max, false)
  else (f.sign neg f.max, false)

/-- Round a finite magnitude to a format (R204–R206, R208). -/
def Fmt.roundMag (f : Fmt) (rm : Rm) (sat : Bool) (g : Nat) (neg : Bool) (v : Mag) : Nat × Flags :=
  if v.num = 0 then (f.sign neg 0, 0)
  else
    let emin : Int := 1 - (f.bias : Int)
    let e := v.log2
    let u := (if e < emin then emin else e) - f.m
    let (r, nx) := v.toUnit u rm neg g
    let mx := f.finite f.max
    if u ≥ mx.2 && (r * 2 ^ (u - mx.2).toNat > mx.1) then
      let (x, nf) := f.overrun rm sat neg
      (x, fOF ||| fNX ||| flagIf nf fNF)
    else
      let (t, _) := v.toUnit (e - f.m) rm neg g
      let tiny := decide (e - f.m < emin - f.m) && decide (t < 2 ^ (emin - (e - f.m)).toNat)
      let (r1, u1) := if r = 2 ^ (f.m + 1) then (2 ^ f.m, u + 1) else (r, u)
      let mag := if r1 < 2 ^ f.m then r1 else (u1 + f.m + f.bias).toNat * 2 ^ f.m + (r1 - 2 ^ f.m)
      (f.sign neg mag, flagIf nx fNX ||| flagIf (nx && tiny) fUF)

/-- Round an exact value to a format, non-finite values by R205. -/
def Fmt.round (f : Fmt) (rm : Rm) (sat : Bool) (g : Nat) (v : Val) : Nat × Flags :=
  match v with
  | .fin neg m e => f.roundMag rm sat g neg (.of m e)
  | .inf neg =>
    match f.inf, f.nan with
    | some i, _ => (f.sign neg i, fNF)
    | none, some n => if sat then (f.sign neg f.max, fNF) else (n, fNV ||| fNF)
    | none, none => (f.sign neg f.max, fNF)
  | .nan =>
    match f.nan with
    | some n => (n, fNF)
    | none => (0, fNV ||| fNF)

/-- f32(x): FP32 under RNE (R7). -/
def f32 (v : Val) : Nat × Flags := fmtF.round 0 false 0 v

/-! ## Exact arithmetic with special values (R207, R213, R217) -/

/-- The signed numerator of a finite value over 2^base. -/
def Val.overBase (base : Int) : Val → Int
  | .fin neg m e => (if neg then -1 else 1) * (m * 2 ^ (e - base).toNat : Nat)
  | _ => 0

def Val.isNan : Val → Bool
  | .nan => true
  | _ => false
def Val.isInf : Val → Bool
  | .inf _ => true
  | _ => false
/-- An infinity or a NaN. -/
def Val.nonFinite (v : Val) : Bool := v.isNan || v.isInf
def Val.isZero : Val → Bool
  | .fin _ 0 _ => true
  | _ => false
def Val.neg? : Val → Bool
  | .fin n _ _ => n
  | .inf n => n
  | .nan => false
def Val.negate : Val → Val
  | .fin n m e => .fin (!n) m e
  | .inf n => .inf (!n)
  | .nan => .nan
def Val.expo : Val → Int
  | .fin _ _ e => e
  | _ => 0

/-- The least exponent among values. -/
def leastExpo (vs : List Val) : Int := vs.foldl (fun b v => if v.expo < b then v.expo else b) 0

/-- An exact sum (R207, R213): a NaN term gives NaN, infinities of both signs are invalid. R213's first row decides where a
term is NaN, whatever the others are. DEDUCED, log entry 57. DESIGN CHOICE, log entry 105. -/
def sumVals (rm : Rm) (vs : List Val) : Val × Flags :=
  if vs.any Val.isNan then (.nan, fNF)
  else if vs.any (· == .inf false) then
    if vs.any (· == .inf true) then (.nan, fNV ||| fNF) else (.inf false, fNF)
  else if vs.any (· == .inf true) then (.inf true, fNF)
  else
    let base := leastExpo vs
    let total : Int := vs.foldl (fun t v => t + v.overBase base) 0
    if total = 0 then
      (.fin (if vs.all Val.isZero then vs.all Val.neg? else rm == 3) 0 0, 0)
    else (.fin (decide (total < 0)) total.natAbs base, 0)

/-- An exact product (R207, R217). DEDUCED, log entry 57. -/
def mulVals (a b : Val) : Val × Flags :=
  match a, b with
  | .nan, _ => (.nan, fNF)
  | _, .nan => (.nan, fNF)
  | .inf s, v => if v.isZero then (.nan, fNV ||| fNF) else (.inf (s != v.neg?), fNF)
  | v, .inf s => if v.isZero then (.nan, fNV ||| fNF) else (.inf (s != v.neg?), fNF)
  | .fin s m e, .fin t n d => (.fin (s != t) (m * n) (e + d), 0)

/-- Comparison as reals, infinities at the ends, −0 equal to +0; none with a NaN (R203, R219). -/
def cmpVals (a b : Val) : Option Ordering :=
  match a, b with
  | .nan, _ => none
  | _, .nan => none
  | .inf s, .inf t => some (if s == t then .eq else if s then .lt else .gt)
  | .inf s, _ => some (if s then .lt else .gt)
  | _, .inf t => some (if t then .gt else .lt)
  | x, y =>
    let base := leastExpo [x, y]
    some (compare (x.overBase base) (y.overBase base))

def ltVals (a b : Val) : Bool := cmpVals a b == some .lt
def eqVals (a b : Val) : Bool := cmpVals a b == some .eq

/-- Round a value that an operation produced with flags of its own. -/
def Fmt.finish (f : Fmt) (rm : Rm) (sat : Bool) (g : Nat) (r : Val × Flags) : Nat × Flags :=
  let (x, fl) := f.round rm sat g r.1
  (x, fl ||| r.2)

/-- f32(a + b), f32(a × b), on encodings (R7). -/
def addF (a b : Nat) : Nat × Flags := fmtF.finish 0 false 0 (sumVals 0 [fmtF.value a, fmtF.value b])
def subF (a b : Nat) : Nat × Flags := fmtF.finish 0 false 0 (sumVals 0 [fmtF.value a, (fmtF.value b).negate])
def mulF (a b : Nat) : Nat × Flags := fmtF.finish 0 false 0 (mulVals (fmtF.value a) (fmtF.value b))

/-- One group of R212 and R213: an accumulator and products of operand values, exact. -/
def groupSum (c : Val) (ps : List (Val × Val)) : Val × Flags :=
  let prods := ps.map (fun p => mulVals p.1 p.2)
  let pf := prods.foldl (fun f p => f ||| (p.2 &&& fNV)) 0
  let r := sumVals 0 (c :: prods.map (·.1))
  (r.1, r.2 ||| pf)

/-! ## Integers (R195, R205) -/

/-- Sign-extended value of the low n bits. -/
def sextNat (x n : Nat) : Int := if x % 2 ^ n < 2 ^ (n - 1) then (x % 2 ^ n : Nat) else (x % 2 ^ n : Nat) - (2 ^ n : Nat)

/-- An integer's two's-complement image of n bits. -/
def wrapInt (x : Int) (n : Nat) : Nat := (x % (2 ^ n : Nat)).toNat

/-- Clamp to a range; OF and NX when it clamps (R208). -/
def clampInt (x lo hi : Int) : Int × Flags :=
  if x < lo then (lo, fOF ||| fNX) else if hi < x then (hi, fOF ||| fNX) else (x, 0)

/-- An exact value rounded to an integer (R204, R206); finite values only. -/
def roundInt (rm : Rm) (g : Nat) (neg : Bool) (m : Nat) (e : Int) : Int × Bool :=
  let (q, nx) := (Mag.of m e).toUnit 0 rm neg g
  (if neg then -(q : Int) else q, nx)

/-- Codes of ST and DT (R51). -/
def codeWidth (c : Nat) : Nat :=
  match c with
  | 11 => 4
  | 0 | 1 | 9 | 10 | 12 => 8
  | 2 | 3 | 6 | 7 => 16
  | _ => 32
def codeInt (c : Nat) : Bool := c < 6
def codeSigned (c : Nat) : Bool := c == 0 || c == 2 || c == 4
/-- The format of a float code. -/
def codeFmt (c : Nat) : Fmt :=
  match c with
  | 6 => fmtHf
  | 7 => fmtBf
  | 8 => fmtF
  | 9 => fmtE4
  | 10 => fmtE5
  | 11 => fmtE2
  | _ => fmtX
/-- The range of an integer code (R195). -/
def codeLo (c : Nat) : Int := if codeSigned c then -(2 ^ (codeWidth c - 1) : Nat) else 0
def codeHi (c : Nat) : Int := if codeSigned c then (2 ^ (codeWidth c - 1) : Nat) - 1 else (2 ^ codeWidth c : Nat) - 1

/-- The integer that an encoding of an integer code holds. -/
def codeIntVal (c x : Nat) : Int := if codeSigned c then sextNat x (codeWidth c) else (x % 2 ^ codeWidth c : Nat)

/-- The exact value of an encoding of a code other than tc (R195–R199). -/
def codeVal (c x : Nat) : Val :=
  if codeInt c then
    let i := codeIntVal c x
    .fin (decide (i < 0)) i.natAbs 0
  else (codeFmt c).value x

/-- An exact value converted to a code other than tc (R205, R230). -/
def toCode (dt : Nat) (rm : Rm) (sat : Bool) (g : Nat) (v : Val) : Nat × Flags :=
  if codeInt dt then
    match v with
    | .nan => (0, fNV ||| fNF)
    | .inf neg => (wrapInt (if neg then codeLo dt else codeHi dt) (codeWidth dt), fNV ||| fNF)
    | .fin neg m e =>
      let (r, nx) := roundInt rm g neg m e
      let (y, fl) := clampInt r (codeLo dt) (codeHi dt)
      (wrapInt y (codeWidth dt), if fl = 0 then flagIf nx fNX else fl)
  else (codeFmt dt).round rm sat g v

/-- One lane of VCVT between codes other than tc (R230). -/
def convert (st dt : Nat) (rm : Rm) (sat : Bool) (g x : Nat) : Nat × Flags :=
  if codeInt st && codeInt dt then
    let i := codeIntVal st x
    if sat then
      let (y, fl) := clampInt i (codeLo dt) (codeHi dt)
      (wrapInt y (codeWidth dt), fl)
    else (wrapInt i (codeWidth dt), 0)
  else toCode dt rm sat g (codeVal st x)

/-! ## Element types of T (R214) -/

/-- The ST code of a T value. -/
def tCode (t : Nat) : Nat :=
  match t with
  | 0 => 0
  | 1 => 2
  | 2 => 4
  | 3 => 6
  | 4 => 7
  | 5 => 8
  | 6 => 9
  | _ => 10

/-- Element width in bits of a T value. -/
def tWidth (t : Nat) : Nat := codeWidth (tCode t)
/-- b, h or w. -/
def tIsInt (t : Nat) : Bool := t < 3
/-- The value of element i of a register under T. -/
def elem (x : VReg) (w i : Nat) : Nat := x.toNat / 2 ^ (w * i) % 2 ^ w
/-- A register from its elements, element 0 lowest. -/
def packElems (w : Nat) (xs : List Nat) : Nat :=
  match xs with
  | [] => 0
  | x :: r => x % 2 ^ w + 2 ^ w * packElems w r
/-- A vector register from its elements. -/
def vecOf (w : Nat) (xs : List Nat) : VReg := .ofNat 128 (packElems w xs)
/-- The n elements of a register. -/
def elems (x : VReg) (w n : Nat) : List Nat := (List.range n).map (elem x w)

/-- FMODE.RM and, for e4 and e5, FMODE.SAT (R168, R215). -/
def Csrs.rm (c : Csrs) : Rm := bitsOf c.fmode 0 3
def Csrs.sat (c : Csrs) (t : Nat) : Bool := bitsOf c.fmode 3 1 == 1 && 6 ≤ t

end Sys2Proof.Machine
end

