-- ==== Sys2Proof/Machine/Numeric.lean ====
section
/-! DEFINITION. The special functions (R239–R242), the block quantiser (R210, R211), table codes (R203) and the
counter-based generator (R244). -/

namespace Sys2Proof.Machine

/-! ## Roots -/

/-- Bits k-1 … 0 of the integer square root of n, above the part r already found. -/
def isqrtFrom (n : Nat) (k r : Nat) : Nat :=
  match k with
  | 0 => r
  | j + 1 => if (r + 2 ^ j) * (r + 2 ^ j) ≤ n then isqrtFrom n j (r + 2 ^ j) else isqrtFrom n j r

/-- floor(√n). -/
def isqrt (n : Nat) : Nat := isqrtFrom n (Nat.log2 n / 2 + 1) 0

/-- √(m·2^e) with 64 bits or more. -/
def sqrtMag (m : Nat) (e : Int) : Mag :=
  let k : Int := if e % 2 = 0 then 128 else 129
  let n := m * 2 ^ k.toNat
  let r := isqrt n
  let v := Mag.of r ((e - k) / 2)
  { v with more := r * r != n }

/-- 1/√(m·2^e). -/
def rsqrtMag (m : Nat) (e : Int) : Mag :=
  let (m1, e1) := if e % 2 = 0 then (m, e) else (m * 2, e - 1)
  let n := 2 ^ 256 / m1
  let r := isqrt n
  let v := Mag.of r (-128 - e1 / 2)
  { v with more := r * r * m1 != 2 ^ 256 }

/-! ## 2^a and log2 a, with 320 fraction bits (log entry 11) -/

/-- floor(ln 2 · 2^320). DEDUCED, log entry 11. -/
def ln2Fix : Nat := 0xb17217f7d1cf79abc9e3b39803f2f6af40f343267298b62d8a0d175b8baafa2be7b876206debac98

/-- Terms n, n+1, … of Σ t^n / n!, the term before n given; k terms. -/
def expTerms (t : Nat) (k n term : Nat) : Nat :=
  match k with
  | 0 => 0
  | j + 1 =>
    let u := term * t / 2 ^ 320 / n
    u + expTerms t j (n + 1) u

/-- 2^(x / 2^320) · 2^320 for x below 2^320. DEDUCED, log entry 11. -/
def exp2Fix (x : Nat) : Nat := 2 ^ 320 + expTerms (x * ln2Fix / 2 ^ 320) 96 1 (2 ^ 320)

/-- Terms of Σ z^(2k+1) / (2k+1), z and z² given with 320 fraction bits. -/
def atanhTerms (z2 : Nat) (k n term : Nat) : Nat :=
  match k with
  | 0 => 0
  | j + 1 => term / n + atanhTerms z2 j (n + 2) (term * z2 / 2 ^ 320)

/-- ln(y / 2^b) · 2^320 for y / 2^b in [1, 2]. DEDUCED, log entry 11. -/
def lnFix (y b : Nat) : Nat :=
  let z := (y - 2 ^ b) * 2 ^ 320 / (y + 2 ^ b)
  2 * atanhTerms (z * z / 2 ^ 320) 112 1 z

/-- 2^a of a finite nonzero a, as FP32 (R239, R240). DEDUCED, log entry 11. -/
def exp2F (neg : Bool) (m : Nat) (e : Int) : Nat × Flags :=
  -- |a| at least 2^10 is out of range on either side
  if decide (10 ≤ (Mag.of m e).log2) then
    if neg then (0, fUF ||| fNX) else (fmtF.sign false 0x7F800000, fOF ||| fNX ||| fNF)
  else
    -- a = i + f, f in [0, 1), in units of 2^-320
    let v := Mag.of m (e + 320)
    let whole : Int := if neg then -Int.ofNat ((v.num + v.den - 1) / v.den) else Int.ofNat (v.num / v.den)
    let i : Int := whole / 2 ^ 320
    let f := (whole % 2 ^ 320).toNat
    let exact := f == 0 && v.num % v.den == 0
    let r : Mag := if exact then Mag.of 1 i else { (Mag.of (exp2Fix f) (i - 320)) with more := true }
    fmtF.roundMag 0 false 0 false r

/-- log2 of a finite positive value, as FP32 (R239, R240). DEDUCED, log entry 11. -/
def log2F (m : Nat) (e : Int) : Nat × Flags :=
  let b := Nat.log2 m
  let ex : Int := e + b
  if m = 2 ^ b then fmtF.roundMag 0 false 0 (decide (ex < 0)) (.of ex.natAbs 0)
  else
    let l : Nat := lnFix m b * 2 ^ 320 / ln2Fix
    let total : Int := ex * 2 ^ 320 + l
    if total < 0 then fmtF.roundMag 0 false 0 true { Mag.of (total.natAbs - 1) (-320) with more := true }
    else fmtF.roundMag 0 false 0 false { Mag.of total.natAbs (-320) with more := true }

/-- Canonical FP32 NaN and infinities. -/
def nanF : Nat := 0x7FC00000
def infF (neg : Bool) : Nat := fmtF.sign neg 0x7F800000

/-- VRCP (R240). -/
def rcpF (x : Nat) : Nat × Flags :=
  match fmtF.value x with
  | .nan => (nanF, fNF)
  | .inf s => (fmtF.sign s 0, fNF)
  | .fin s 0 _ => (infF s, fDZ ||| fNF)
  | .fin s m e =>
    let v := Mag.of m e
    fmtF.roundMag 0 false 0 s { num := v.den, den := v.num }

/-- VRSQ (R240). -/
def rsqF (x : Nat) : Nat × Flags :=
  match fmtF.value x with
  | .nan => (nanF, fNF)
  | .inf true => (nanF, fNV ||| fNF)
  | .inf false => (0, fNF)
  | .fin s 0 _ => (infF s, fDZ ||| fNF)
  | .fin true _ _ => (nanF, fNV ||| fNF)
  | .fin false m e => fmtF.roundMag 0 false 0 false (rsqrtMag m e)

/-- VSQRT (R240). -/
def sqrtF (x : Nat) : Nat × Flags :=
  match fmtF.value x with
  | .nan => (nanF, fNF)
  | .inf true => (nanF, fNV ||| fNF)
  | .inf false => (infF false, fNF)
  | .fin s 0 _ => (fmtF.sign s 0, 0)
  | .fin true _ _ => (nanF, fNV ||| fNF)
  | .fin false m e => fmtF.roundMag 0 false 0 false (sqrtMag m e)

/-- VEXP2 (R240). -/
def vexp2F (x : Nat) : Nat × Flags :=
  match fmtF.value x with
  | .nan => (nanF, fNF)
  | .inf true => (0, fNF)
  | .inf false => (infF false, fNF)
  | .fin _ 0 _ => (0x3F800000, 0)
  | .fin s m e => exp2F s m e

/-- VLOG2 (R240). -/
def vlog2F (x : Nat) : Nat × Flags :=
  match fmtF.value x with
  | .nan => (nanF, fNF)
  | .inf true => (nanF, fNV ||| fNF)
  | .inf false => (infF false, fNF)
  | .fin _ 0 _ => (infF true, fDZ ||| fNF)
  | .fin true _ _ => (nanF, fNV ||| fNF)
  | .fin false m e => log2F m e

/-- VDIV (R241). -/
def divF (a b : Nat) : Nat × Flags :=
  match fmtF.value a, fmtF.value b with
  | .nan, _ => (nanF, fNF)
  | _, .nan => (nanF, fNF)
  | .inf _, .inf _ => (nanF, fNV ||| fNF)
  | .inf s, .fin t _ _ => (infF (s != t), fNF)
  | .fin s _ _, .inf t => (fmtF.sign (s != t) 0, fNF)
  | .fin _ 0 _, .fin _ 0 _ => (nanF, fNV ||| fNF)
  | .fin s _ _, .fin t 0 _ => (infF (s != t), fDZ ||| fNF)
  | .fin s 0 _, .fin t _ _ => (fmtF.sign (s != t) 0, 0)
  | .fin s m e, .fin t n d =>
    let v := Mag.of m e
    let w := Mag.of n d
    fmtF.roundMag 0 false 0 (s != t) { num := v.num * w.den, den := v.den * w.num }

/-- VFLR and VRND: rounding to the integer grid, exact by definition; an integer is unchanged (R242). -/
def toIntegral (f : Fmt) (rm : Rm) (g x : Nat) : Nat × Flags :=
  match f.value x with
  | .nan => (f.nan.getD 0, fNF)
  | .inf s => (f.sign s (f.inf.getD f.max), fNF)
  | .fin s m e =>
    let (q, nx) := (Mag.of m e).toUnit 0 rm s g
    if nx then ((f.roundMag 0 false 0 s { num := q }).1, 0) else (x, 0)

/-! ## The block quantiser (R201, R210, R211) -/

/-- Element bound emax and largest magnitude code, by ST code (R201). -/
def blockEmax (c : Nat) : Int :=
  match c with
  | 11 => 2
  | 9 => 8
  | 10 => 15
  | _ => 0
def blockLargest (c : Nat) (neg : Bool) : Nat :=
  match c with
  | 11 => if neg then 0xF else 0x7
  | 9 => if neg then 0xFE else 0x7E
  | 10 => if neg then 0xFB else 0x7B
  | _ => if neg then 0x81 else 0x7F

/-- The value of a block element code: b is code × 2^−6 (R201). -/
def blockVal (c x : Nat) : Val :=
  if c == 0 then
    let i := sextNat x 8
    .fin (decide (i < 0)) i.natAbs (-6)
  else (codeFmt c).value x

/-- Round an exact finite value to a block element, RNE, saturating (R210). -/
def blockRound (c : Nat) (neg : Bool) (m : Nat) (e : Int) : Nat × Flags :=
  if c == 0 then
    let (r, nx) := roundInt 0 0 neg m (e + 6)
    let (y, fl) := clampInt r (-127) 127
    (wrapInt y 8, fl ||| flagIf nx fNX)
  else (codeFmt c).roundMag 0 true 0 neg (.of m e)

/-- A pairwise tree of FP32 additions: k levels. -/
def treeSum (k : Nat) (xs : List Nat) : Nat :=
  match k with
  | 0 => xs.headD 0
  | j + 1 => treeSum j ((List.range (xs.length / 2)).map (fun i => (addF (xs.getD (2 * i) 0) (xs.getD (2 * i + 1) 0)).1))

/-- The candidate of one scale exponent: codes, S_k and the flags of R211. -/
def blockTry (ety : Nat) (xs : List Val) (c : Int) : List Nat × Nat × Flags :=
  let one (x : Val) : Nat × Nat × Flags :=
    match x with
    | .fin s m e =>
      let (q, fl) := blockRound ety s m (e - c)
      let v := match blockVal ety q with
        | .fin t n d => Val.fin t n (d + c)
        | v => v
      let d := (fmtF.finish 0 false 0 (sumVals 0 [x, v.negate])).1
      (q, (mulF d d).1,
        flagIf (!eqVals x v) fNX ||| (fl &&& fOF) ||| flagIf (m != 0 && v.isZero) fUF)
    | .inf s => (blockLargest ety s, 0, fNF)
    | .nan => (0, 0, 0)
  let rs := xs.map one
  (rs.map (·.1), treeSum 5 (rs.map (·.2.1)), rs.foldl (fun f r => f ||| r.2.2) 0)

/-- The block quantiser: scale byte, codes and flags. -/
def quantise (ety : Nat) (xs : List Nat) : Nat × List Nat × Flags :=
  let vs := xs.map fmtF.value
  if vs.any Val.isNan then (0xFF, xs.map (fun _ => 0), fNV ||| fNF)
  else
    let top := vs.foldl (fun (b : Option Int) v =>
      match v with
      | .fin _ (m + 1) e =>
        let l := (Mag.of (m + 1) e).log2
        match b with
        | some k => some (if k < l then l else k)
        | none => some l
      | _ => b) none
    let e0 : Int := match top with
      | some l => l - blockEmax ety
      | none => 0
    let clamp (k : Int) : Int := if k < -127 then -127 else if 127 < k then 127 else k
    let cand (k : Int) := (clamp k, blockTry ety vs (clamp k))
    let a := cand (e0 - 1)
    let b := cand e0
    let c := cand (e0 + 1)
    -- the least S_k, a tie to the larger k
    let best (p q : Int × List Nat × Nat × Flags) := if ltVals (fmtF.value p.2.2.1) (fmtF.value q.2.2.1) then p else q
    let r := best (best a b) c
    ((r.1 + 127).toNat, r.2.1, r.2.2.2)

/-- An E8M0 scale times an exact value; 0xFF is NaN (R199, R200). -/
def scaleVal (scale : Nat) (v : Val) : Val :=
  if scale == 0xFF then .nan
  else match v with
    | .fin s m e => .fin s m (e + (scale : Int) - 127)
    | v => v

/-! ## Table codes (R202, R203) -/

/-- The search of R203 for a non-NaN v: the index found and the entries probed. -/
def tcSearch (t : Nat → Val) (v : Val) (b i : Nat) (probed : List Nat) : Nat × List Nat :=
  match b with
  | 0 => (i, probed)
  | k + 1 =>
    let j := i + 2 ^ k - 1
    tcSearch t v k (if ltVals (t j) v then i + 2 ^ k else i) (probed ++ [j])

/-- The nearer of two entries by |v − t|, a tie to lo; an entry at infinity is never the nearer of a finite one. -/
def tcNearer (v tl th : Val) : Bool :=
  if th.isInf then true
  else if tl.isInf then false
  else
    let base := leastExpo [v, tl, th]
    decide (v.overBase base - tl.overBase base ≤ th.overBase base - v.overBase base)

/-- Whether an entry's magnitude is smaller or equal. -/
def magLe (a b : Val) : Bool :=
  match a, b with
  | _, .inf _ => true
  | .inf _, _ => false
  | a, b =>
    let base := leastExpo [a, b]
    (a.overBase base).natAbs ≤ (b.overBase base).natAbs

/-- The code between lo and hi (R203); the search has found that t[lo] is less than v. No comparison with a NaN entry holds,
so with t[hi] a NaN SR delivers lo, and so do RNE, RNA and RZ, whose choice the rule does not phrase as a comparison.
DESIGN CHOICE, log entry 104. -/
def tcBetween (rm : Rm) (g : Nat) (v tl th : Val) (lo hi : Nat) : Nat :=
  match rm with
  | 1 => if th.isNan || magLe tl th then lo else hi
  | 2 => hi
  | 3 => lo
  | 5 =>
    if th.isNan || (tl.isInf && th.isInf) then lo
    else if tl.isInf then hi
    else if th.isInf then lo
    else
      let base := leastExpo [v, tl, th]
      let p := (v.overBase base - tl.overBase base).toNat
      let q := (th.overBase base - tl.overBase base).toNat
      if 65536 ≤ 65536 * p / q + g then hi else lo
  | _ => if th.isNan || tcNearer v tl th then lo else hi

/-- Encode an exact value as a table code: code, flags and the entries read (R203, R238). -/
def tcEncode (t : Nat → Val) (rm : Rm) (g : Nat) (v : Val) : Nat × Flags × List Nat :=
  match v with
  | .nan => (0, fNV ||| fNF, [])
  | v =>
    let (i, probed) := tcSearch t v 8 0 []
    let base := probed ++ [i]
    let nf := flagIf v.isInf fNF
    let fin (code : Nat) (f : Flags) (reads : List Nat) : Nat × Flags × List Nat :=
      (code, f ||| nf ||| flagIf (!eqVals (t code) v) fNX, reads)
    if eqVals (t i) v then fin i 0 base
    else if ltVals (t i) v then fin 255 fOF (base ++ [255])
    else if i == 0 then fin 0 fOF base
    else fin (tcBetween rm g v (t (i - 1)) (t i) (i - 1) i) 0 (base ++ [i - 1])

/-! ## The generator (R244) -/

/-- One round of the mix, i from 0. -/
def mixRound (klo khi : Word) (i : Nat) (w : Word × Word × Word × Word) : Word × Word × Word × Word :=
  let (w0, w1, w2, w3) := w
  let w0 := w0 + w1
  let w3 := rotl32 (w3 ^^^ w0) 11
  let w2 := w2 + w3
  let w1 := rotl32 (w1 ^^^ w2) 7
  let w0 := w0 + w1
  let w3 := rotl32 (w3 ^^^ w0) 13
  let w2 := w2 + w3
  let w1 := rotl32 (w1 ^^^ w2) 17
  (w0 ^^^ klo, w1 + BitVec.ofNat 32 (i + 1), w2 ^^^ khi, w3)

/-- The generator's 128 bits for a key, a stream and a position. -/
def mix (key : DWord) (stream : Word) (pos : DWord) : BitVec 128 :=
  let i0 : Word × Word × Word × Word := (loWord pos, hiWord pos, stream, 0x6A09E667)
  let w := (List.range 10).foldl (fun w i => mixRound (loWord key) (hiWord key) i w) i0
  (w.2.2.2 + i0.2.2.2) ++ (w.2.2.1 + i0.2.2.1) ++ (w.2.1 + i0.2.1) ++ (w.1 + i0.1)

/-- The 16-bit draw of element i at base position P: bits of output floor(i / 8), 2^40 positions apart (R231, R245). -/
def drawAt (key : DWord) (stream : Word) (pos : DWord) (i : Nat) : Nat :=
  bitsOf (mix key stream (pos + BitVec.ofNat 64 (i / 8 * 2 ^ 40))) (16 * (i % 8)) 16

def Csrs.rkey (c : Csrs) : DWord := join c.rkeyh c.rkeyl
def Csrs.rpos (c : Csrs) : DWord := join c.rposh c.rposl
/-- The thread's draw for element i (R215, R231). -/
def Csrs.draw (c : Csrs) (rm : Rm) (i : Nat) : Nat := if rm = 5 then drawAt c.rkey c.rstr c.rpos i else 0
/-- RPOS advances by one (R231). -/
def Csrs.advance (c : Csrs) : Csrs :=
  let p := c.rpos + 1
  { c with rposl := loWord p, rposh := hiWord p }

end Sys2Proof.Machine
end

