-- ==== Sys2Proof/Machine/Dram.lean ====
section
/-! DEFINITION. Device and host memory behind the slices: 32-byte units, the key each was written under, and poison
(R67–R70, R106). -/

namespace Sys2Proof.Machine

/-- Populated length of a tier: 0 GDDR7, 1 Fen (R67). -/
def tierLength (tier : Nat) : Nat := if tier = 0 then 11999903744 else 127999672320

/-- A physical address of device memory lies in a populated range, with no bit above [41:0] (R67). -/
def populated (pa : Nat) : Bool := pa < 2 ^ 42 && pa % 2 ^ 37 < tierLength (pa / 2 ^ 37 % 2)

/-- A line as bytes, and bytes as a line (R3). -/
def lineBytes (l : Line) : List Byte := leBytes l.toNat 32
def bytesLine (bs : List Byte) : Line := .ofNat 256 (leNat bs)

/-- The bytes of the unit at a device address as the holder of a key reads it (R69, R70). A partition with no key reads as
the holder of no key does. DESIGN CHOICE, log entry 7. -/
def State.devBytes (s : State) (key : Option Nat) (pa : Nat) : Line :=
  let u := pa / 32
  let written := Table.get? s.devKey u
  if written.isSome && written == key then bytesLine (Memory.bytes s.dev (32 * u) 32) else Config.unrelated written key u

/-- A read of the unit, and whether it is poisoned: by its marker, or by an error that the read meets (R70, R106). -/
def State.devRead (s : State) (key : Option Nat) (pa : Nat) : Line × Bool :=
  if s.devErr.contains (pa / 32) then (Config.receivedBytes s.fresh, true)
  else (s.devBytes key pa, s.devPois.contains (pa / 32))

/-- The die that holds a physical address (R67). -/
def dieOfPa (pa : Nat) : Nat := pa / 2 ^ 38 % 16

/-- An uncorrectable error on a die creates poison (R349). -/
def State.countUe (s : State) (die : Nat) : State := s.modErrs die (fun e => { e with uecnt := satInc e.uecnt })

/-- What a read of the unit leaves behind: the error that it met stays as the unit's poison marker, which a write alone clears
(R107, R348). DESIGN CHOICE, log entry 88. -/
def State.devMeet (s : State) (pa : Nat) : State :=
  if s.devErr.contains (pa / 32) then
    (({ s with devErr := s.devErr.filter (· != pa / 32)
               devPois := pa / 32 :: s.devPois.filter (· != pa / 32) }).countUe (dieOfPa pa)).tick
  else s

/-- The unit at a device address written under a key, with or without the poison marker. -/
def State.devWrite (s : State) (key : Option Nat) (pa : Nat) (l : Line) (pois : Bool) : State :=
  let u := pa / 32
  { s with
    dev := Memory.writeBytes s.dev (32 * u) (lineBytes l)
    devKey := match key with
      | some k => Table.set s.devKey u k
      | none => Table.erase s.devKey u
    devPois := let r := s.devPois.filter (· != u); if pois then u :: r else r
    devErr := s.devErr.filter (· != u) }

/-- The bytes of the unit of host memory that a page with or without the encrypt attribute reads (R69). -/
def State.hostRead (s : State) (key : Option Nat) (enc : Bool) (a : Nat) : Line :=
  let u := a / 32
  let written := Table.get? s.hostKey u
  if written == (if enc then key else none) then bytesLine (Memory.bytes s.host (32 * u) 32)
  else Config.unrelated written (if enc then key else none) (2 ^ 40 + u)

/-- The unit of host memory written through such a page, with or without a poison mark (R107). A unit whose write the host
answers with an error completion has been written or not (R342: undefined). DESIGN CHOICE, log entry 87. -/
def State.hostWriteUnit (s : State) (key : Option Nat) (enc : Bool) (a : Nat) (l : Line) (pois : Bool) : State :=
  let u := a / 32
  let refused := s.hostErr.contains (true, u)
  let s0 := if refused then { s.tick with hostErr := s.hostErr.filter (· != (true, u)) } else s
  if refused && !Config.refusedStoreLands s.fresh then s0
  else
    let s1 := s0.hostWrite (32 * u) (lineBytes l)
    { s1 with hostKey := match (if enc then key else none) with
                | some k => Table.set s1.hostKey u k
                | none => Table.erase s1.hostKey u
              hostPois := let r := s1.hostPois.filter (· != u); if pois then u :: r else r }

/-- The unit at a leaf's target for partition p, and whether it is poisoned: device or host memory (R79, R106, R342). -/
def State.targetRead (s : State) (p : Nat) (leaf : Leaf) (a : Nat) : Line × Bool :=
  if leaf.tgt = 0 then s.devRead (s.part p).key a
  else (s.hostRead (s.part p).key leaf.enc a, s.hostPois.contains (a / 32) || s.hostErr.contains (false, a / 32))

/-- What a read of the unit leaves behind: the error that it met stays as a poison mark (R342, R348). DESIGN CHOICE, log entry 88. -/
def State.targetMeet (s : State) (leaf : Leaf) (a : Nat) : State :=
  if leaf.tgt = 0 then s.devMeet a
  else if s.hostErr.contains (false, a / 32) then
    { s with hostErr := s.hostErr.filter (· != (false, a / 32)), hostPois := a / 32 :: s.hostPois.filter (· != a / 32) }
  else s

def State.targetWrite (s : State) (p : Nat) (leaf : Leaf) (a : Nat) (l : Line) (pois : Bool) : State :=
  if leaf.tgt = 0 then s.devWrite (s.part p).key a l pois else s.hostWriteUnit (s.part p).key leaf.enc a l pois

/-- A doubleword of device memory under the management key, as a walk reads it (R78). -/
def State.tableRead (s : State) (pa : Nat) : DWord :=
  let l := s.devBytes (some s.mgmtKey) pa
  .ofNat 64 (l.toNat / 2 ^ (8 * (pa % 32)) % 2 ^ 64)

end Sys2Proof.Machine
end

