-- ==== Sys2Proof/Machine/Sram.lean ====
section
/-! DEFINITION. Core SRAM: banks and their owners, the scratchpad, watermark channels, and the operations performed at an
SRAM port (R66, R130–R133, R144–R148, R153, R155). -/

namespace Sys2Proof.Machine

/-- L1M of a partition on a core (R145). -/
def State.l1m (s : State) (p core : Nat) : Half := Table.getD s.l1cfg (64 * core + p) 0

/-- The scratchpad banks of a partition on a core, ascending (R147). -/
def State.banks (s : State) (p core : Nat) : List Nat :=
  (List.range 16).filter (fun k => s.ownsSlot p core k && !(s.l1m p core).getLsbD k)

/-- The scratchpad's size in bytes (R66, R147). -/
def State.scratchSize (s : State) (p core : Nat) : Nat := 4096 * (s.banks p core).length

/-- The L1 lines that a partition's L1 banks on a core hold (R147). -/
def State.l1Lines (s : State) (p core : Nat) : Nat :=
  128 * ((List.range 16).filter (fun k => s.ownsSlot p core k && (s.l1m p core).getLsbD k)).length

/-- The SRAM address of a scratchpad offset (R147). -/
def State.sramAddr (s : State) (p core off : Nat) : Nat :=
  4096 * (16 * core + (s.banks p core).getD (off / 4096) 0) + off % 4096

/-- An access by partition p finds the bank of an SRAM address: a bank of another owner reads as zero from then on, and
its tag passes (R144). -/
def State.touchBank (s : State) (p a : Nat) : State :=
  let b := a / 4096
  if Table.get? s.tags b == some p then s
  else { s with tags := Table.set s.tags b p
                sram := Memory.clear s.sram (4096 * b) 4096
                sramPois := s.sramPois.filter (fun w => w / 4096 != b) }

/-- Touch the banks of scratchpad offsets. -/
def State.touchOffs (s : State) (p core : Nat) (offs : List Nat) : State :=
  offs.foldl (fun s o => s.touchBank p (s.sramAddr p core o)) s

/-- Bytes at scratchpad offsets, and whether a word of them is poisoned (R148). -/
def State.scratchRead (s : State) (p core : Nat) (offs : List Nat) : State × List Byte × Bool :=
  let s1 := s.touchOffs p core offs
  let as := offs.map (s1.sramAddr p core)
  (s1, as.map (Memory.read s1.sram), as.any (fun a => s1.sramPois.contains (a / 4 * 4)))

/-- Bytes written at scratchpad offsets; a word written whole loses its poison (R148). -/
def State.scratchWrite (s : State) (p core : Nat) (ws : List (Nat × Byte)) : State :=
  let s1 := s.touchOffs p core (ws.map (·.1))
  let as := ws.map (fun w => (s1.sramAddr p core w.1, w.2))
  let hit := as.map (·.1)
  { s1 with sram := as.foldl (fun m w => Memory.write m w.1 w.2) s1.sram
            sramPois := s1.sramPois.filter (fun w => !((List.range 4).all (fun i => hit.contains (w + i)))) }

/-- Poison the words of scratchpad offsets (R263). DESIGN CHOICE, log entry 88. -/
def State.scratchPoison (s : State) (p core : Nat) (offs : List Nat) : State :=
  { s with sramPois := (offs.map (fun o => s.sramAddr p core o / 4 * 4)).eraseDups ++ s.sramPois }

/-- n consecutive numbers. -/
def span (a n : Nat) : List Nat := (List.range n).map (a + ·)

/-- The bytes of a column line named by the address of its first element (R97). -/
def colSpan (a w : Nat) : List Nat :=
  (List.range (32 / w)).flatMap (fun i => (List.range w).map (fun b => a + 32 * i + b))

/-- The bytes that an operation accesses, from its address (R154–R156). -/
def MemOp.span (op : MemOp) (a : Nat) : List Nat :=
  match op with
  | .read .row n => Machine.span a n
  | .read (.col w) _ => colSpan a w
  | .readHome _ => Machine.span a 4
  | .fetch => Machine.span a 4
  | .write n _ _ => Machine.span a n
  | .writeCol w _ => colSpan a w
  | .alu _ n _ _ => Machine.span a n
  | .vaadd .. => Machine.span a 16
  | .red c _ _ _ _ => Machine.span a (codeWidth c / 8)
  | .fuse .. => Machine.span a 4

/-- The operation reads its bytes, so poison traps it (R107, R148, R152). -/
def MemOp.reads (op : MemOp) : Bool :=
  match op with
  | .write .. | .writeCol .. => false
  | _ => true

/-- The operation is write-like (R103). -/
def MemOp.writes (op : MemOp) : Bool :=
  match op with
  | .write .. | .writeCol .. | .alu .. | .vaadd .. | .red .. | .fuse .. => true
  | _ => false

/-- The access class of R81 and R90: 0 read, 1 write, 2 read-write, 3 fetch. -/
def MemOp.accClass (op : MemOp) : Nat :=
  match op with
  | .write .. | .writeCol .. => 1
  | .alu .. | .vaadd .. | .red .. | .fuse .. => 2
  | .fetch => 3
  | _ => 0

/-! ## The memory-side ALU (R104, R155, R157) -/

/-- New value and flags of an ATOM on n-byte operands. -/
def AluOp.eval (op : AluOp) (n : Nat) (old v cmp : Nat) : Nat × Flags :=
  let w := 8 * n
  let m := 2 ^ w
  let signedLe : Bool := sextNat old w ≤ sextNat v w
  match op with
  | .add => ((old + v) % m, 0)
  | .min => (if signedLe then old else v % m, 0)
  | .max => (if signedLe then v % m else old, 0)
  | .minu => (Nat.min old (v % m), 0)
  | .maxu => (Nat.max old (v % m), 0)
  | .and => (Nat.land old v % m, 0)
  | .or => (Nat.lor old v % m, 0)
  | .xor => (Nat.xor old v % m, 0)
  | .swp => (v % m, 0)
  | .cas => (if old = cmp % m then v % m else old, 0)
  | .addf => addF old v

/-- VAADD: the 16 new bytes and the flags of all additions (R157). -/
def vaaddEval (t rm : BitVec 3) (old x g : VReg) : VReg × Flags :=
  let tn := t.toNat
  let w := tWidth tn
  let n := 128 / w
  if tIsInt tn then (vecOf w ((List.range n).map (fun i => elem old w i + elem x w i)), 0)
  else
    let f := codeFmt (tCode tn)
    let rs := (List.range n).map (fun i =>
      f.finish rm.toNat false (bitsOf g (16 * i) 16)
        (sumVals rm.toNat [f.value (elem old w i), f.value (elem x w i)]))
    (vecOf w (rs.map (·.1)), rs.foldl (fun a r => a ||| r.2) 0)

/-- CRED's update of one element: an exact sum, rounded or wrapped or saturated in the element's type (R139). -/
def redEval (c rm : Nat) (sat : Bool) (g old v : Nat) : Nat × Flags :=
  if codeInt c then
    let x := codeIntVal c old + codeIntVal c v
    if sat then
      let (y, f) := clampInt x (codeLo c) (codeHi c)
      (wrapInt y (codeWidth c), f)
    else (wrapInt x (codeWidth c), 0)
  else (codeFmt c).finish rm sat g (sumVals rm [(codeFmt c).value old, (codeFmt c).value v])

/-- OPTADAM's or OPTSGD's update of one word: of the weight, by WD, LR and u; else of a sum, by a factor and an addend (R140). -/
def fuseEval (last : Bool) (a b c : Word) (old : Nat) : Nat × Flags :=
  if last then
    let d := mulF a.toNat old
    let u := addF c.toNat d.1
    let v := mulF b.toNat u.1
    let w := subF old v.1
    (w.1, d.2 ||| u.2 ||| v.2 ||| w.2)
  else
    let d := mulF a.toNat old
    let m := addF d.1 b.toNat
    (m.1, d.2 ||| m.2)

/-- A whole operation on the bytes at its home: the bytes after it (none for a read) and its answer value and flags. -/
def MemOp.eval (op : MemOp) (old : List Byte) : List Byte × Nat × Flags :=
  match op with
  | .write n d _ => (leBytes d.toNat n, 0, 0)
  | .writeCol _ d => (leBytes d.toNat 32, 0, 0)
  | .alu a n v cmp =>
    let o := leNat old
    let (r, f) := a.eval n o v.toNat cmp.toNat
    (leBytes r n, o, f)
  | .vaadd t rm x g =>
    let (r, f) := vaaddEval t rm (.ofNat 128 (leNat old)) x g
    (leBytes r.toNat 16, leNat old, f)
  | .red c rm sat v g =>
    let (r, f) := redEval c rm sat g (leNat old) v
    (leBytes r (codeWidth c / 8), leNat old, f)
  | .fuse v .. => (leBytes v.toNat 4, leNat old, 0)
  | _ => ([], leNat old, 0)

/-- An operation at the SRAM port of a core: the answer of a window access (R153). A read of a scratchpad may read the
carrying write of a release, so its reader has seen all ones (R293, R296). -/
def State.sramOp (s : State) (p core off va : Nat) (op : MemOp) : State × Answer :=
  let offs := op.span off
  let (s1, old, pois) := s.scratchRead p core offs
  if op.reads && pois then (s1, { verdict := .trap 0x06 va })
  else
    let (new, val, f) := op.eval old
    let s2 := if op.writes then s1.scratchWrite p core (offs.zip new) else s1
    (s2, { val := val, data := bytesLine old, words := [f.setWidth 32], saw := if op.reads then BitVec.allOnes 512 else 0 })

/-- A write of L1CFG of the partition on a core is parked; accesses that reach the core meanwhile are held (R146). -/
def State.l1cfgWaits (s : State) (p core : Nat) : Bool :=
  s.allThreads.any (fun t => t.tid.part == p && t.core == core && t.phase == .parked .l1cfg && t.stage.sent)

/-! ## Watermark channels (R130–R133) -/

/-- The first enabled channel of one of the partition's slots above whose watermark a byte of its scratchpad lies. -/
def State.heldMark (s : State) (p core : Nat) (offs : List Nat) : Option Nat :=
  (List.range 16).find? (fun k =>
    s.ownsSlot p core k &&
    (let c := s.slotAt core k
     c.chlen != 0 && offs.any (fun o => c.chbase + c.wm ≤ o && o < c.chbase + c.chlen)))

/-- A byte of the partition's scratchpad lies above the watermark of an enabled channel of one of its slots. -/
def State.aboveMark (s : State) (p core : Nat) (offs : List Nat) : Bool := (s.heldMark p core offs).isSome

/-- The scope at which an access that a watermark releases acquires: the widest among the channels that hold its bytes
(R133, R298). DEDUCED, log entry 22. -/
def State.markScope (s : State) (p core : Nat) (offs : List Nat) : Nat :=
  ((List.range 16).filter (fun k => s.ownsSlot p core k && offs.any (fun o =>
      (s.slotAt core k).chbase ≤ o && o < (s.slotAt core k).chbase + (s.slotAt core k).chlen))).foldl
    (fun m k => Nat.max m (s.slotAt core k).wmsc) 0

/-- Whether the n bits of a mask from bit i are all set. -/
def bitsSet (m i n : Nat) : Bool := m / 2 ^ i % 2 ^ n == 2 ^ n - 1

/-- The watermark of a fill mask: whole units filled from the base, k units left to look at (R132). -/
def markOf (filled len k u : Nat) : Nat :=
  match k with
  | 0 => 32 * u
  | j + 1 => if 32 * u < len && bitsSet filled (32 * u) 32 then markOf filled len j (u + 1) else 32 * u

/-- A mask with bits a .. a+n-1 set. -/
def setBits (m a n : Nat) : Nat := Nat.lor m ((2 ^ n - 1) * 2 ^ a)

/-- Bytes off .. off+n-1 of a channel are filled by a command of scope sc; whether the watermark advanced. The map is kept by
bytes, so that parts of a unit that several arming commands write add up. DEDUCED, log entry 22. DESIGN CHOICE, log entry 130. -/
def Slot.fill (c : Slot) (off n sc : Nat) : Slot × Bool :=
  if c.chlen = 0 || off < c.chbase || c.chbase + c.chlen < off + n then (c, false)
  else
    let filled := setBits c.filled (off - c.chbase) n
    let wm := markOf filled c.chlen 2048 (c.wm / 32)
    ({ c with filled := filled, wm := wm, wmsc := if c.wm < wm then sc else c.wmsc }, decide (c.wm < wm))

/-- A write of CHBASE or CHLEN: a range past the scratchpad stores LEN 0; the map is cleared (R130, R131). -/
def Slot.setChannel (c : Slot) (base len size : Nat) : Slot :=
  { c with chbase := base, chlen := if 65536 < len || size < base + len then 0 else len, wm := 0, filled := 0 }

end Sys2Proof.Machine
end

