-- ==== Sys2Proof/Machine/L1.lean ====
section
/-! DEFINITION. Generations as slices and cores see them (R87), signatures (R294) and the L1 (R149–R151). -/

namespace Sys2Proof.Machine

/-- The GEN that a slice (by number) or a core (1,280 + its number) goes by: the old one until it adopts (R87). -/
def State.genAt (s : State) (p target : Nat) : Half :=
  match (s.part p).raise with
  | some r => if r.adopted.contains target then (s.part p).gen else r.old
  | none => (s.part p).gen

/-- GEN[1:0] (R87). -/
def gen2 (g : Half) : BitVec 2 := g.setWidth 2

/-- The number of a core among the targets of a raise. -/
def coreTarget (c : Nat) : Nat := 1280 + c

/-! ## Signatures (R294) -/

/-- The sector number k = VA[55:10]. -/
def sectorNo (va : Nat) : Nat := va / 1024 % 2 ^ 46

/-- h1 and h2 of a sector number. -/
def sigH1 (k : Nat) : Nat :=
  ([9, 18, 27, 36, 45].foldl (fun x i => Nat.xor x (k / 2 ^ i)) k) % 512
def sigH2 (k : Nat) : Nat :=
  ([13, 22, 31, 40].foldl (fun x i => Nat.xor x (k / 2 ^ i)) (k / 2 ^ 4)) % 512

/-- The bits that a sector sets. -/
def sigBits (k : Nat) : Sig := (1#512 <<< sigH1 k) ||| (1#512 <<< sigH2 k)

/-- A sector matches a signature when both bits are set. -/
def sigHit (g : Sig) (k : Nat) : Bool := g.getLsbD (sigH1 k) && g.getLsbD (sigH2 k)

/-- All ones (R296). -/
def sigOnes : Sig := BitVec.allOnes 512

/-! ## The L1 -/

/-- The addresses of a line's bytes (R97). -/
def L1Line.bytes (l : L1Line) : List Nat :=
  match l.kind with
  | .row => span l.va 32
  | .col w => colSpan l.va w

/-- A resident line whose tag matches the access and the current GEN (R149). -/
def State.l1Hit (s : State) (core p : Nat) (kind : LineKind) (va : Nat) : Option L1Line :=
  s.l1.find? (fun l => l.core == core && l.part == p && l.kind == kind && l.va == va
    && l.gen == gen2 (s.genAt p (coreTarget core)))

/-- The partition's lines on a core that satisfy f are invalidated. -/
def State.l1Drop (s : State) (core p : Nat) (f : L1Line → Bool) : State :=
  { s with l1 := s.l1.filter (fun l => !(l.core == core && l.part == p && f l)) }

/-- A line that arrives is installed, if the partition has an L1 bank on the core (R147, R150); which line it displaces is
not visible. DESIGN CHOICE, log entry 14. -/
def State.l1Install (s : State) (core p : Nat) (kind : LineKind) (va : Nat) (gen : Half) (d : Line) (g : Sig) : State :=
  let cap := s.l1Lines p core
  if cap = 0 then s
  else
    let s1 := s.l1Drop core p (fun l => l.kind == kind && l.va == va)
    let kept := match Config.l1Victim s1.fresh with
      | some k => s1.l1.eraseIdx k
      | none => s1.l1
    let mine := kept.filter (fun l => l.core == core && l.part == p)
    let kept1 := if mine.length < cap then kept
      else match mine.getLast? with
        | some v => kept.erase v
        | none => kept
    { s1.tick with l1 := { core := core, part := p, va := va, kind := kind, gen := gen2 gen, data := d, sig := g } :: kept1 }

/-- A line with stored bytes put in (R151), and the signature that they bring. DEDUCED, log entry 131. -/
def L1Line.update (l : L1Line) (ws : List (Nat × Byte)) (g : Sig) : L1Line :=
  if ws.any (fun w => l.bytes.contains w.1) then
    { l with sig := l.sig ||| g
             data := bytesLine ((l.bytes.zip (lineBytes l.data)).map (fun ab =>
               match ws.find? (fun w => w.1 == ab.1) with
               | some w => w.2
               | none => ab.2)) }
  else l

/-- Every resident line of the partition on the core takes the stored bytes it holds (R151). -/
def State.l1Store (s : State) (core p : Nat) (ws : List (Nat × Byte)) (g : Sig) : State :=
  { s with l1 := s.l1.map (fun l => if l.core == core && l.part == p then l.update ws g else l) }

/-- Requests of a partition from a core that are under way install no line (R192); an acquire, a store and an atomic of
the core do the same to requests for the lines they concern, so that no line older than them is installed. -/
def State.noInstall (s : State) (core p : Nat) (f : Req → Bool) : State :=
  let g (r : Req) : Req := if r.core == core && r.part == p && f r then { r with install := false } else r
  { s with
    net := s.net.map (fun k => match k.body with
      | .slice r => { k with body := .slice (g r) }
      | .answer r a gen => { k with body := .answer (g r) a gen }
      | _ => k)
    held := s.held.map (fun h => { h with req := g h.req }) }

/-- The sector that a request's bytes lie in. -/
def Req.sector (r : Req) : Nat := sectorNo r.va

/-- The L1 line that a load asks for: its kind and the address of its first byte (R97, R150). -/
def Req.line (r : Req) : Option (LineKind × Nat) :=
  match r.op with
  | .read .row _ => some (.row, r.va / 32 * 32)
  | .read (.col w) _ => some (.col w, r.va)
  | _ => none

/-- A slice has served a load of a line: an answer of an earlier service that is still on its way installs no line, or a
reader of the newer bytes could hit older ones (R292). -/
def State.outdate (s : State) (r : Req) : State :=
  { s with net := s.net.map (fun k => match k.body with
      | .answer q a gen =>
        if q.core == r.core && q.part == r.part && r.line.isSome && q.line == r.line then { k with body := .answer { q with install := false } a gen }
        else k
      | _ => k) }

/-- Empty a partition's fetched words on a core (R178, R192). -/
def State.dropFetched (s : State) (core p : Nat) : State :=
  let base := 2 ^ 64 * (64 * core + p)
  { s with ibuf := s.ibuf.filter (fun w => w.1 < base || base + 2 ^ 64 ≤ w.1) }

/-- Every translated write of a thread of the partition on the core sets its sector's bits in the accumulators of the
partition's threads there (R294). DEDUCED, log entry 21. -/
def State.accumulate (s : State) (core p : Nat) (g : Sig) : State :=
  s.mapThreads (fun t =>
    if t.phase != .none && t.tid.part == p && t.core == core && !t.travelling then { t with acc := t.acc ||| g } else t)

end Sys2Proof.Machine
end

