-- ==== Sys2Proof/Machine/Slice.lean ====
section
/-! DEFINITION. The slices: the hash (R94), the shadow table and its walk (R78–R83), sectors and their lines (R96–R101),
the service of a request (R102–R107), page requests (R90–R92) and requests to peer modules (R105, R375). -/

namespace Sys2Proof.Machine

/-! ## Where an address is served (R94) -/

def sectorHash (asn va : Nat) : Nat :=
  let k := sectorNo va
  Nat.xor (Nat.xor (k % 2 ^ 32) (k / 2 ^ 32 * 128)) (asn * 0x9E3779B9 % 2 ^ 32)

/-- The index in the partition's slice set, the slice, and the set within it. -/
def State.sliceIx (s : State) (p va : Nat) : Nat := sectorHash p va % shSlices (s.shape p)
def State.sliceOf (s : State) (p va : Nat) : Nat := shSlice (s.shape p) (s.sliceIx p va)
def State.setOf (s : State) (p va : Nat) : Nat := sectorHash p va / shSlices (s.shape p) % 64

/-- The slices of a partition. -/
def State.slicesOf (s : State) (p : Nat) : List Nat :=
  (List.range (shSlices (s.shape p))).map (shSlice (s.shape p))

/-! ## The shadow table (R78–R81) -/

/-- The index of a level (R78). -/
def walkIndex (va level : Nat) : Nat := va / 2 ^ (12 + 9 * level) % (if level = 3 then 2 ^ 17 else 2 ^ 9)

/-- The fields of a leaf entry (R79). -/
def Leaf.of (e : DWord) (level : Nat) : Leaf where
  tgt := bitsOf e 62 2
  peer := bitsOf e 52 10
  link := bitsOf e 8 4
  addr := bitsOf e 12 40 * 4096
  size := 12 + 9 * level
  prq := e.getLsbD 7
  enc := e.getLsbD 6
  x := e.getLsbD 5
  w := e.getLsbD 4
  rd := e.getLsbD 3

/-- A present entry is malformed at a level (R80). -/
def malformed (e : DWord) (level : Nat) : Bool :=
  let tgt := bitsOf e 62 2
  let addr := bitsOf e 12 40 * 4096
  (if e.getLsbD 1 then level == 3 || bitsOf e 12 (9 * level) != 0
   else level == 0 || tgt != 0 || bitsOf e 52 10 != 0 || bitsOf e 2 10 != 0) ||
  tgt == 3 || e.getLsbD 2 || ((tgt == 0 || tgt == 2) && !populated addr)

/-- What reading one entry of the table leads to (R82). -/
inductive WalkEnd where
  | down (level base : Nat)
  | leaf (l : Leaf)
  | absent
  | bad
deriving DecidableEq, Repr

def State.walkEntry (s : State) (va level base : Nat) : WalkEnd :=
  let e := s.tableRead (base + 8 * walkIndex va level)
  if !e.getLsbD 0 then .absent
  else if malformed e level then .bad
  else if e.getLsbD 1 then .leaf (Leaf.of e level)
  else .down (level - 1) (bitsOf e 12 40 * 4096)

/-- The level at which a leaf stands (R78, R79). -/
def Leaf.level (l : Leaf) : Nat := (l.size - 12) / 9

/-- The target address of a virtual address under a leaf. -/
def Leaf.target (l : Leaf) (va : Nat) : Nat := l.addr + va % 2 ^ l.size

/-- A leaf holds the bits that an access class requires (R81). -/
def Leaf.permits (l : Leaf) (acc : Nat) : Bool :=
  match acc with
  | 0 => l.rd
  | 1 => l.w
  | 2 => l.rd && l.w
  | _ => l.x

/-- How a translation ends: a usable leaf, a page request at a level, or a failure with its cause (R81, R82). -/
inductive Xlate where
  | ok (l : Leaf)
  | request (level : Nat) (pf : Bool)
  | fail (cause : Nat)
deriving DecidableEq, Repr

/-- The outcome of a leaf for an access (R67, R81). -/
def Leaf.judge (l : Leaf) (va acc level : Nat) : Xlate :=
  if (l.tgt == 0 || l.tgt == 2) && !populated (l.target va) then .fail 0x04
  else if l.permits acc then .ok l
  else if l.prq then .request level true
  else .fail 0x05

/-- A whole walk, as the agents that are not threads make it in one step. DEDUCED, log entry 92. -/
def State.walkAll (s : State) (va acc : Nat) (level base : Nat) : Xlate :=
  match s.walkEntry va level base with
  | .leaf l => l.judge va acc level
  | .absent => .request level false
  | .bad => .fail 0x04
  | .down _ b =>
    match level with
    | 0 => .fail 0x04
    | k + 1 => State.walkAll s va acc k b

/-! ## The translation cache (R82) -/

/-- DEDUCED, log entry 92. -/
def State.tcFind (s : State) (slice p va : Nat) : Option Leaf :=
  (s.tc.find? (fun e => e.slice == slice && e.asn == p && e.gen == s.genAt p slice
    && va / 2 ^ e.leaf.size == e.page)).map (·.leaf)

/-- Install a leaf under the GEN at which its walk began; which entry it displaces is not visible. DESIGN CHOICE, log entry 14. -/
def State.tcInstall (s : State) (slice p va : Nat) (gen : Half) (l : Leaf) : State :=
  let page := va / 2 ^ l.size
  let kept := s.tc.filter (fun e => !(e.slice == slice && e.asn == p && e.page == page && e.leaf.size == l.size))
  let kept1 := match Config.tcVictim s.fresh with
    | some k => kept.eraseIdx k
    | none => kept
  let new : TcEntry := { slice := slice, asn := p, page := page, gen := gen, leaf := l }
  { s.tick with tc := if (kept1.filter (fun e => e.slice == slice)).length < 2048 then new :: kept1 else kept1 }

/-! ## Sectors (R96–R100) -/

def Sector.is (c : Sector) (slice p va : Nat) (gen : Half) : Bool :=
  c.slice == slice && c.asn == p && c.vpn == sectorNo va && c.gen == gen2 gen

/-- The sector that an access hits. -/
def State.sector? (s : State) (slice p va : Nat) : Option Sector :=
  s.sectors.find? (fun c => c.is slice p va (s.genAt p slice))

/-- Put a sector back, most recently used. -/
def State.putSector (s : State) (c : Sector) : State :=
  { s with
    sectors := { c with used := s.seqno } ::
      s.sectors.filter (fun d => !(d.slice == c.slice && d.asn == c.asn && d.vpn == c.vpn && d.gen == c.gen))
    seqno := s.seqno + 1 }

/-- Set the lost flag of a slice for a partition (R296). DEDUCED, log entry 23. -/
def State.lose (s : State) (slice p : Nat) : State :=
  if s.lost.contains (64 * slice + p) then s else { s with lost := (64 * slice + p) :: s.lost }

/-- The dirty rows of a sector, as the rows of its write-back (R99). -/
def Sector.dirtyRows (c : Sector) : BitVec 32 :=
  if c.whole then (if c.dirty.getLsbD 0 then BitVec.allOnes 32 else 0) else c.dirty

/-- Start the write-back of a sector's dirty rows (R99). -/
def State.startWb (s : State) (c : Sector) (keeps : Bool) : State :=
  if c.dirtyRows == 0 then s
  else
    let w : WriteBack := { n := s.seqno, slice := c.slice, set := c.set, part := c.asn, vpn := c.vpn, leaf := c.leaf,
                           gen := c.gen, target := c.target, mask := c.dirtyRows, pois := c.pois, rows := c.rows
                           keeps := keeps }
    { s with wbs := s.wbs ++ [w], seqno := s.seqno + 1 }

/-- A write-back's row reaches its target. A read during it that meets an error poisons the row, in the slice as well (R106).
DESIGN CHOICE, log entry 87. -/
def WriteBack.landRow (w : WriteBack) (s : State) (r : Fin 32) : State :=
  let a := w.target + 32 * r.val
  let bad := w.leaf.tgt == 0 && s.devErr.contains (a / 32)
  let s1 := s.targetWrite w.part w.leaf a w.rows[r] (w.pois.getLsbD r.val || bad)
  if bad then
    { s1.countUe (dieOfPa a) with
      sectors := s1.sectors.map (fun c =>
        if c.slice == w.slice && c.asn == w.part && c.vpn == w.vpn && c.gen == w.gen then { c with pois := c.pois ||| (1#32 <<< r.val) }
        else c) }
  else s1

/-- The rows of a write-back reach their target. -/
def WriteBack.land (w : WriteBack) (s : State) : State :=
  (List.finRange 32).foldl (fun s r => if w.mask.getLsbD r.val then w.landRow s r else s) s

/-- A write-back is complete: its way is no longer busy (R99, R100). -/
def State.landWb (s : State) (w : WriteBack) : State :=
  let s1 := w.land s
  { s1 with wbs := s1.wbs.filter (fun x => x.n != w.n) }

/-- A write-back carries rows of a page's sector. -/
def WriteBack.of (w : WriteBack) (slice p va : Nat) : Bool := w.slice == slice && w.part == p && w.vpn == sectorNo va

/-- A write-back of a sector that is no longer resident has not reached its target: a fill of it would read older bytes. -/
def State.landingOut (s : State) (slice p va : Nat) : Bool := s.wbs.any (fun w => w.of slice p va && !w.keeps)

/-- Complete the write-backs of a sector. DESIGN CHOICE, log entry 24. -/
def State.settle (s : State) (slice p va : Nat) : State := (s.wbs.filter (fun w => w.of slice p va)).foldl State.landWb s

/-- Remove a sector; a signature that it held is lost (R100, R296). DEDUCED, log entry 23. -/
def State.removeSector (s : State) (c : Sector) : State :=
  let s1 := { s with sectors := s.sectors.filter (fun d => !(d.slice == c.slice && d.asn == c.asn && d.vpn == c.vpn
                && d.gen == c.gen)) }
  if c.sig != 0 then s1.lose c.slice c.asn else s1

/-- Write a sector's dirty rows back to their target now. DESIGN CHOICE, log entry 24. -/
def State.cleanNow (s : State) (c : Sector) : State := (s.startWb c true).settle c.slice c.asn (1024 * c.vpn)

/-- The least recently used of some sectors. -/
def leastUsed (cs : List Sector) : Option Sector :=
  match cs with
  | [] => none
  | c :: r => match leastUsed r with
    | some d => if d.used < c.used then some d else some c
    | none => some c

/-- A write-back of the sector is in progress, or a fill or an operation on it is pending, so its way is no victim (R100). -/
def State.busy (s : State) (c : Sector) : Bool :=
  s.wbs.any (fun w => w.keeps && w.slice == c.slice && w.part == c.asn && w.vpn == c.vpn && w.gen == c.gen) ||
  s.held.any (fun h => h.req.dst == c.slice && h.req.part == c.asn && h.req.sector == c.vpn && (match h.stage with
    | .fill _ => true
    | _ => false))

/-- The victim of a set (R100): one of an owner over its limit first; none when every way is busy. -/
def State.victim (s : State) (slice set : Nat) : Option Sector :=
  let cs := s.sectors.filter (fun c => c.slice == slice && c.set == set && !s.busy c)
  match leastUsed (cs.filter (fun c => (s.part c.asn).overrun)) with
  | some c => some c
  | none => leastUsed cs

/-- A held request has a way of a set for its fill: that of the victim that it evicted, whose write-back has ended. -/
def State.holdsWay (s : State) (h : Held) (slice set : Nat) : Bool :=
  h.req.dst == slice && s.setOf h.req.part h.req.va == set && (match h.evict with
    | some k => s.wbs.all (fun w => w.n != k)
    | none => false)

/-- The ways of a set that are taken: by residents, by write-backs of sectors that have left, and by held requests. -/
def State.waysUsed (s : State) (slice set : Nat) : Nat :=
  (s.sectors.filter (fun c => c.slice == slice && c.set == set)).length
    + (s.wbs.filter (fun w => w.slice == slice && w.set == set && !w.keeps)).length
    + (s.held.filter (fun h => s.holdsWay h slice set)).length

/-- A new sector can take a way of a set. -/
def State.hasWay (s : State) (slice set : Nat) : Bool := s.waysUsed slice set < 16 || (s.victim slice set).isSome

/-- A way for a new sector: a victim's dirty rows are written back first. DESIGN CHOICE, log entry 24. -/
def State.makeWay (s : State) (slice set : Nat) : State :=
  if s.waysUsed slice set < 16 then s
  else match s.victim slice set with
    | some v => (s.cleanNow v).removeSector v
    | none => s

/-- Fill the invalid rows among some rows of a sector from its target (R98, R106). -/
def State.fillRows (s : State) (c : Sector) (rows : List (Fin 32)) : State × Sector :=
  rows.foldl (fun x r =>
    if x.2.valid.getLsbD r.val then x
    else
      let a := c.target + 32 * r.val
      let (l, pois) := x.1.targetRead c.asn c.leaf a
      (x.1.targetMeet c.leaf a,
       { x.2 with valid := x.2.valid ||| (1#32 <<< r.val), rows := x.2.rows.set r.val l r.isLt
                  pois := if pois then x.2.pois ||| (1#32 <<< r.val) else x.2.pois })) (s, c)

/-- Orientation becomes whole (R98); every row is valid by then. -/
def Sector.makeWhole (c : Sector) : Sector :=
  if c.whole then c else { c with whole := true, dirty := if c.dirty == 0 then 0 else 1 }

/-- The rows that an operation covers, by its offset in the sector. -/
def MemOp.rows (op : MemOp) (off : Nat) : List (Fin 32) :=
  (List.finRange 32).filter (fun r => (op.span off).any (fun o => o / 32 == r.val))

/-- The operation goes by column lines (R98). -/
def MemOp.column (op : MemOp) : Bool :=
  match op with
  | .read (.col _) _ | .writeCol .. => true
  | _ => false

/-- The operation stores whole rows, which then need no fill (R98). -/
def MemOp.wholeRows (op : MemOp) (off : Nat) : Bool :=
  match op with
  | .write n _ _ => n == 32 && off % 32 == 0
  | _ => false

/-- The same leaf, or the same target under both leaves: the permissions alone may differ. -/
def Sector.under (c : Sector) (leaf : Leaf) (va : Nat) : Bool :=
  c.leaf == leaf || (c.leaf.tgt == leaf.tgt && c.leaf.peer == leaf.peer && c.leaf.link == leaf.link && c.leaf.enc == leaf.enc
    && c.target == leaf.target (va / 1024 * 1024))

/-- An empty sector of a page under a leaf (R98). -/
def State.newSector (s : State) (slice p va : Nat) (leaf : Leaf) : Sector :=
  { slice := slice, set := s.setOf p va, asn := p, vpn := sectorNo va, gen := gen2 (s.genAt p slice), leaf := leaf
    target := leaf.target (va / 1024 * 1024) }

/-- The sector of an access under a leaf. A sector that was filled under another target is written back to it and leaves, so
no access uses a mixture of two leaves (R84). -/
def State.place (s : State) (slice p va : Nat) (leaf : Leaf) : State × Sector :=
  let fresh (s : State) : State × Sector :=
    (((s.settle slice p va).makeWay slice (s.setOf p va)), s.newSector slice p va leaf)
  match s.sector? slice p va with
  | some c =>
    if c.under leaf va then (s, { c with leaf := { c.leaf with rd := leaf.rd, w := leaf.w, x := leaf.x, prq := leaf.prq } })
    else fresh ((s.cleanNow c).removeSector c)
  | none => fresh s

/-- The sector of an access is resident under a leaf, with the rows that the operation needs. -/
def State.bring (s : State) (slice p va : Nat) (leaf : Leaf) (op : MemOp) : State × Sector :=
  let (s1, c) := s.place slice p va leaf
  let (s2, c1) := if op.column then
      let (s2, c1) := s1.fillRows c (List.finRange 32)
      (s2, c1.makeWhole)
    else if op.wholeRows (va % 1024) then (s1, c)
    else s1.fillRows c (op.rows (va % 1024))
  (s2.putSector c1, c1)

/-! ## Serving at a sector (R102–R107) -/

/-- A byte of a sector by its offset. -/
def Sector.byte (c : Sector) (off : Nat) : Byte :=
  byteOf (c.rows.getD (off / 32) 0) (off % 32)

/-- A sector with a byte stored. -/
def Sector.setByte (c : Sector) (off : Nat) (b : Byte) : Sector :=
  let l := c.rows.getD (off / 32) 0
  let k := 8 * (off % 32)
  { c with rows := c.rows.setIfInBounds (off / 32) ((l &&& ~~~(0xFF#256 <<< k)) ||| (b.setWidth 256 <<< k)) }

/-- A mask of rows. -/
def rowMask (rows : List (Fin 32)) : BitVec 32 := rows.foldl (fun m r => m ||| (1#32 <<< r.val)) 0

/-- The line that a read delivers: the row line of its first byte, or the column line (R97, R150). -/
def Sector.line (c : Sector) (op : MemOp) (off : Nat) : Line :=
  match op with
  | .read (.col w) _ => bytesLine ((colSpan off w).map c.byte)
  | _ => c.rows.getD (off / 32) 0

/-- An operation on a resident sector: the sector after it and the answer; `seen` is the signature that a response to the
partition carries (R295, R296). DEDUCED, log entry 35. -/
def Sector.perform (c : Sector) (op : MemOp) (va : Nat) (sig seen : Sig) : Sector × Answer :=
  let off := va % 1024
  let rows := op.rows off
  if op.reads && rows.any (fun r => c.pois.getLsbD r.val) then (c, { verdict := .trap 0x06 va })
  else
    let offs := op.span off
    let old := offs.map c.byte
    let (new, val, f) := op.eval old
    let c1 := if op.writes then
        let c1 := (offs.zip new).foldl (fun c ob => c.setByte ob.1 ob.2) c
        let c2 := { c1 with dirty := if c1.whole then 1 else c1.dirty ||| rowMask rows, sig := c1.sig ||| sig }
        if op.wholeRows off then { c2 with valid := c2.valid ||| rowMask rows, pois := c2.pois &&& ~~~(rowMask rows) } else c2
      else c
    (c1, { data := c.line op off, val := val, words := [f.setWidth 32], sig := seen })

/-- SIG as a slice returns it to a partition (R296). -/
def State.sigOf (s : State) (c : Sector) : Sig := if s.lost.contains (64 * c.slice + c.asn) then sigOnes else c.sig

/-- The action of a deep operation before it: LDA at scope 5 or 6 writes back and invalidates the slice's copy (R297). -/
def State.deepBefore (s : State) (slice p va : Nat) (op : MemOp) : State × Sig :=
  match op with
  | .readHome true =>
    match s.sector? slice p va with
    | some c => ((s.cleanNow c).removeSector c, s.sigOf c)
    | none => (s, 0)
  | _ => (s, 0)

/-- The host answers the write of a row of the operation with an error completion (R342). -/
def State.hostRefuses (s : State) (c : Sector) (op : MemOp) (off : Nat) : Bool :=
  c.leaf.tgt == 1 && (op.rows off).any (fun r => s.hostErr.contains (true, c.target / 32 + r.val))

/-- A deep store is written back before it is answered (R302); STORE when its target does not perform the store itself (R342). -/
def State.deepAfter (s : State) (slice p va : Nat) (op : MemOp) (a : Answer) : State × Answer :=
  match op with
  | .write _ _ true =>
    match s.sector? slice p va with
    | some c =>
      ((s.cleanNow c).putSector { c with dirty := 0 }, if s.hostRefuses c op (va % 1024) then { verdict := .trap 0x13 va } else a)
    | none => (s, a)
  | _ => (s, a)

/-- A request served at its slice under a leaf of device or host memory. -/
def State.serve (s : State) (slice p va : Nat) (leaf : Leaf) (op : MemOp) (sig : Sig) : State × Answer :=
  let (s0, g) := s.deepBefore slice p va op
  let (s1, c) := s0.bring slice p va leaf op
  let (c1, a) := c.perform op va sig (s1.sigOf c ||| g)
  (s1.putSector c1).deepAfter slice p va op a

/-! ## Peer modules (R105, R375) -/

/-- The operation number of an ATOM (R155). -/
def AluOp.code (op : AluOp) : Nat :=
  match op with
  | .add => 0 | .min => 1 | .max => 2 | .minu => 3 | .maxu => 4 | .and => 5 | .or => 6 | .xor => 7 | .swp => 8
  | .cas => 9 | .addf => 10

/-- The bytes that an operation writes outright, by offset. -/
def MemOp.stored (op : MemOp) (off : Nat) : List (Nat × Byte) :=
  match op with
  | .write n d _ => (Machine.span off n).zip (leBytes d.toNat n)
  | .writeCol w d => (colSpan off w).zip (leBytes d.toNat 32)
  | _ => []

/-- A write of some bytes of one row, as a request to a peer. -/
def swarmWrite (row : Nat) (ws : List (Nat × Byte)) : SwarmOp :=
  let mine := ws.filter (fun w => w.1 / 32 == row)
  .write (bytesLine ((List.range 32).map (fun i => ((mine.find? (fun w => w.1 % 32 == i)).map (·.2)).getD 0)))
    (mine.foldl (fun m w => m ||| (1#32 <<< (w.1 % 32))) 0)

/-- The requests to a peer, one for each row, that an operation takes. -/
def MemOp.remote (op : MemOp) (off : Nat) : List (Nat × SwarmOp) :=
  match op with
  | .write .. | .writeCol .. => (op.rows off).map (fun r => (r.val, swarmWrite r.val (op.stored off)))
  | .alu a n v cmp => [(off / 32, .alu a.code n (off % 32) v cmp)]
  | .vaadd t rm x g => [(off / 32, .vaadd t rm (off % 32 == 16) x g)]
  | .red c rm sat v g => [(off / 32, .red c rm sat (off % 32) v g)]
  | .fuse _ last a b c => [(off / 32, .fuse last (off % 32) a b c)]
  | _ => (op.rows off).map (fun r => (r.val, .read))

/-- The same place and kind of request, whatever its data. DEDUCED, log entry 44. -/
def swarmLike (a b : SwarmOp) : Bool :=
  match a, b with
  | .read, .read => true
  | .write .., .write .. => true
  | .alu k _ i _ _, .alu l _ j _ _ => k == l && i == j
  | .vaadd _ _ i _ _, .vaadd _ _ j _ _ => i == j
  | .red _ _ _ i _ _, .red _ _ _ j _ _ => i == j
  | .fuse _ i _ _ _, .fuse _ j _ _ _ => i == j
  | _, _ => false

/-- Ask a peer for one row, once: none while the answer is awaited. DEDUCED, log entry 44. -/
def State.ask (s : State) (ag : Agent) (p slice : Nat) (leaf : Leaf) (addr : Nat) (op : SwarmOp) :
    State × Option (Bool × Line) :=
  match s.swarms.find? (fun w => w.agent == ag && w.addr == addr && w.link == leaf.link && swarmLike w.op op && !w.used) with
  | some w => ({ s with swarms := s.swarms.map (fun (x : Swarm) => if x.n == w.n then { x with used := true } else x) }, w.done)
  | none =>
    let up := (Table.getD s.links leaf.link {}).up
    let w : Swarm := { n := s.seqno, agent := ag, part := p, slice := slice, link := leaf.link, peer := leaf.peer
                       addr := addr, write := op != .read, leaf := leaf, op := op, done := if up then none else some (false, 0)
                       used := true }
    ({ s with swarms := s.swarms ++ [w], seqno := s.seqno + 1
              out := if up then s.out ++ [.swarm leaf.link leaf.peer addr s.seqno op] else s.out }, w.done)

/-- Ask for each row. -/
def State.askAll (s : State) (ag : Agent) (p slice : Nat) (leaf : Leaf) (base : Nat) (ops : List (Nat × SwarmOp)) :
    State × List (Option (Nat × Bool × Line)) :=
  match ops with
  | [] => (s, [])
  | (r, op) :: rest =>
    let (s1, a) := s.ask ag p slice leaf (base + 32 * r) op
    let (s2, as) := State.askAll s1 ag p slice leaf base rest
    (s2, a.map (fun x => (r, x.1, x.2)) :: as)

/-- The answer of an operation from the peer's answers to its rows (R376). -/
def MemOp.fromPeer (op : MemOp) (va : Nat) (as : List (Nat × Bool × Line)) : Answer :=
  if as.any (fun a => !a.2.1) then { verdict := .trap (if op.writes then 0x13 else 0x06) va }
  else
    let row (r : Nat) : Line := ((as.find? (fun a => a.1 == r)).map (·.2.2)).getD 0
    match op with
    | .write .. | .writeCol .. => {}
    | .alu .. | .vaadd .. | .red .. | .fuse .. =>
      let l := row (va % 1024 / 32)
      { val := bitsOf l 0 128, words := [l.extractLsb' 128 32] }
    | _ =>
      let off := va % 1024
      let bs := (op.span off).map (fun o => byteOf (row (o / 32)) (o % 32))
      let line := match op with
        | .read (.col _) _ => bytesLine bs
        | _ => row (off / 32)
      { data := line, val := leNat bs }

/-- An agent will go over its accesses from the start again. -/
def State.again (s : State) (ag : Agent) : State :=
  { s with swarms := s.swarms.map (fun (x : Swarm) => if x.agent == ag then { x with used := false } else x) }

/-- The leaf under which an agent has asked a peer for an access already: the access began under it, and goes by it whatever
the GEN has become since (R89). -/
def State.askedLeaf (s : State) (ag : Agent) (p va : Nat) (op : MemOp) : Option Leaf :=
  (op.remote (va % 1024)).head?.bind (fun x =>
    (s.swarms.find? (fun w => w.agent == ag && w.part == p && w.addr == w.leaf.target (va / 1024 * 1024) + 32 * x.1
      && swarmLike w.op x.2 && !w.used)).map (·.leaf))

/-- An operation at a peer: none while answers are awaited (R105). -/
def State.peerOp (s : State) (ag : Agent) (p slice va : Nat) (leaf : Leaf) (op : MemOp) : State × Option Answer :=
  let (s1, as) := s.askAll ag p slice leaf (leaf.target (va / 1024 * 1024)) (op.remote (va % 1024))
  if as.all Option.isSome then (s1, some (op.fromPeer va (as.filterMap id))) else (s1.again ag, none)

/-- What a peer's request does to a unit of this module's memory: the unit after it and the answer (R376). -/
def swarmEval (op : SwarmOp) (old : Line) : Line × Line :=
  let sub (byte n : Nat) : Nat := old.toNat / 2 ^ (8 * byte) % 2 ^ (8 * n)
  let put (byte n v : Nat) : Line :=
    let m : Line := BitVec.ofNat 256 ((2 ^ (8 * n) - 1) * 2 ^ (8 * byte))
    (old &&& ~~~m) ||| (BitVec.ofNat 256 (v * 2 ^ (8 * byte)) &&& m)
  let answer (v : Nat) (f : Flags) : Line := f.setWidth 128 ++ BitVec.ofNat 128 v
  match op with
  | .read => (old, old)
  | .write d m =>
    (bytesLine ((List.range 32).map (fun i => if m.getLsbD i then byteOf d i else byteOf old i)), 0)
  | .alu a n byte v cmp =>
    let o := sub byte n
    let k : AluOp := match a with
      | 0 => .add | 1 => .min | 2 => .max | 3 => .minu | 4 => .maxu | 5 => .and | 6 => .or | 7 => .xor | 8 => .swp
      | 9 => .cas | _ => .addf
    let (r, f) := k.eval n o v.toNat cmp.toNat
    (put byte n r, answer o f)
  | .vaadd t rm up x g =>
    let b := if up then 16 else 0
    let (r, f) := vaaddEval t rm (BitVec.ofNat 128 (sub b 16)) x g
    (put b 16 r.toNat, answer (sub b 16) f)
  | .red c rm sat byte v g =>
    let n := codeWidth c / 8
    let (r, f) := redEval c rm sat g (sub byte n) v
    (put byte n r, answer (sub byte n) f)
  | .fuse last byte a b c =>
    let (r, f) := fuseEval last a b c (sub byte 4)
    (put byte 4 r, answer (sub byte 4) f)

/-! ## Page requests (R90–R92) -/

/-- The first requester of a record (R91). -/
structure Who where
  die : Nat
  core : Nat
  slot : Nat
  agent : Nat

/-- A core's slot as a requester. -/
def Who.of (core slot agent : Nat) : Who := { die := dieOf core, core := coreIndex core, slot := slot, agent := agent }

/-- The page-request ring takes a record (R85); a stopped partition sends none (R93). -/
def Part.prqRoom (x : Part) : Bool :=
  4 ≤ x.prqlog && x.prqlog ≤ 12 && (x.prqtail + 1) % 2 ^ x.prqlog != x.prqhead % 2 ^ x.prqlog && x.state == .running

/-- Write the records that wait, oldest first, while the ring has room, at whatever address PRQBASE holds and whatever place TAIL
names, past a ring that has become smaller too. DESIGN CHOICE, log entry 99. DESIGN CHOICE, log entry 125. -/
def State.writeRecords (s : State) (p : Nat) (fs : List FaultEntry) : State :=
  match fs with
  | [] => s
  | f :: rest =>
    if f.asn == p && !f.recorded && (s.part p).prqRoom then
      let x := s.part p
      let s1 := s.hostWrite (x.prqbase.toNat + 32 * x.prqtail) (lineBytes f.record)
      let s2 := { s1.setPart p { x with prqtail := (x.prqtail + 1) % 2 ^ x.prqlog } with
                  faults := s1.faults.map (fun (e : FaultEntry) => if e.rid == f.rid then { e with recorded := true } else e) }
      State.writeRecords (s2.signal 0 1) p rest
    else State.writeRecords s p rest

def State.flushRecords (s : State) (p : Nat) : State := s.writeRecords p s.faults

/-- The record of R91. -/
def State.record (s : State) (p va acc level : Nat) (pf : Bool) (gen : Half) (who : Who) (rid : Nat) : Line :=
  BitVec.ofNat 256 (va / 4096 % 2 ^ 44 * 2 ^ 212 + gen.toNat * 2 ^ 196 + (s.part p).ctxgen.toNat * 2 ^ 180
    + p * 2 ^ 174 + acc * 2 ^ 172 + (if pf then 2 ^ 171 else 0) + level * 2 ^ 168 + who.die * 2 ^ 124
    + who.core * 2 ^ 109 + who.slot * 2 ^ 105 + who.agent * 2 ^ 102 + rid)

/-- A free fault entry of a slice, the lowest. DESIGN CHOICE, log entry 124. -/
def State.freeFault (s : State) (slice : Nat) : Option Nat :=
  (List.range 64).find? (fun i => s.faults.all (fun f => !(f.slice == slice && f.index == i)))

/-- An access waits for a page answer. -/
def Pf.waits (f : Pf) : Bool :=
  match f with
  | .waiting _ => true
  | _ => false

/-- An agent still has accesses to make: its request, command, operation, copy, fetch, launch or ring is there. -/
def State.present (s : State) (ag : Agent) : Bool :=
  match ag with
  | .held n => s.held.any (fun h => h.seq == n)
  | .engine core slot mtx => !((s.slotAt core slot).queue mtx).cmds.isEmpty
  | .comb n => s.comb.any (fun o => o.n == n)
  | .sluice p st =>
    ((Table.get? s.stackTab (16 * p + st)).bind (·.job)).isSome || (s.part p).axReload.any (fun k => k.stack == st)
  | .stackOp n => s.stackOps.any (fun o => o.n == n)
  | .ticket n => s.tickets.any (fun t => t.n == n && t.fetching)
  | .launch p lid _ => s.launches.any (fun l => l.part == p && l.lid == lid)
  | .ring .. => true

/-- An agent waits for a page answer, or for a fault entry to ask for one. -/
def State.pageHeld (s : State) (ag : Agent) : Bool :=
  s.faultWaits.any (fun w => w.agent == ag) ||
  (match ag with
   | .held n => s.held.any (fun h => h.seq == n && h.pf.waits)
   | .engine core slot mtx => (((s.slotAt core slot).queue mtx).cmds.head?).any (fun c => c.pf.waits)
   | .comb n => s.comb.any (fun o => o.n == n && o.pf.waits)
   | .sluice p st =>
     (((Table.get? s.stackTab (16 * p + st)).bind (·.job)).any (fun j => j.pf.waits)) ||
       (s.part p).axReload.any (fun k => k.stack == st && k.pf.waits)
   | .stackOp n => s.stackOps.any (fun o => o.n == n && o.pf.waits)
   | .ticket n => s.tickets.any (fun t => t.n == n && t.pf.waits)
   | .launch p lid dep => s.launches.any (fun l => l.part == p && l.lid == lid && (if dep = 1 then l.pf1 else l.pf).waits)
   | .ring p r => (((s.part p).rings.toList)[r]?).any (fun x => x.pf.waits))

/-- A waiting access is still there, and its partition runs. -/
def State.stillWaits (s : State) (w : FaultWait) : Bool := (s.part w.part).state == .running && s.present w.agent

/-- An access that waited for a fault entry of its page and class waits no longer. -/
def State.stopWait (s : State) (w : FaultWait) : State := { s with faultWaits := s.faultWaits.filter (· != w) }

/-- An agent waits for a fault entry and a way no more. -/
def State.dropWaits (s : State) (ag : Agent) : State :=
  { s with faultWaits := s.faultWaits.filter (fun w => w.agent != ag), wayWaits := s.wayWaits.filter (fun w => w.agent != ag) }

/-- It is an access's turn to open an entry of its slice: an entry is free, and no access has waited longer (R90). -/
def State.faultTurn (s : State) (w : FaultWait) : Bool :=
  (s.freeFault w.slice).isSome &&
  (match s.faultWaits.find? (fun v => v.slice == w.slice && s.stillWaits v) with
   | some v => v == w
   | none => true)

/-- An access joins the open entry of its page and class, or opens one: its request id, of a running number modulo 2^15. None
when all are in use: it waits, in arrival order (R90). DESIGN CHOICE, log entry 123. -/
def State.openFault (s : State) (ag : Agent) (slice p va acc level : Nat) (pf : Bool) (gen : Half) (who : Who) :
    State × Option Nat :=
  let w : FaultWait := { slice := slice, part := p, page := va / 4096, acc := acc, agent := ag }
  match s.faults.find? (fun f => f.slice == slice && f.asn == p && f.page == va / 4096 && f.acc == acc) with
  | some f => (s.stopWait w, some f.rid)
  | none =>
    match (if s.faultTurn w then s.freeFault slice else none) with
    | none =>
      (if s.faultWaits.contains w then s
       else { s with faultWaits := s.faultWaits.filter (fun v => v.agent != ag) ++ [w]
                     wayWaits := s.wayWaits.filter (fun v => v.agent != ag) }, none)
    | some i =>
      let rid := slice * 2 ^ 21 + i * 2 ^ 15 + s.seqno % 2 ^ 15
      let f : FaultEntry := { slice := slice, index := i, asn := p, page := va / 4096, acc := acc, rid := rid
                              record := s.record p va acc level pf gen who rid, recorded := false }
      (({ s.stopWait w with faults := s.faults ++ [f], seqno := s.seqno + 1 }).flushRecords p, some rid)

/-- A failure answer has come for an access to this page of this class (R92). -/
def Pf.fails (f : Pf) (va acc : Nat) : Bool := f == .failed (va / 4096) acc

/-! ## The accesses of agents that are not threads -/

/-- How such an access ends: done, waiting for its turn, a way, a peer or a fault entry, a page request, or a failure.
DEDUCED, log entry 44. -/
inductive Got where
  | ok (s : State) (a : Answer)
  | wait (s : State)
  | fault (s : State) (rid : Nat)
  | fail (s : State) (cause : Nat)

/-- The ranges of R65. -/
def unimplemented (va : Nat) : Bool := 2 ^ 56 ≤ va && va < 0xFE00000000000000
def isWindow (va : Nat) : Bool := 0xFE00000000000000 ≤ va

/-- The core and offset of a window address, and whether the window's rules hold for some bytes of it (R65, R66). -/
def State.window (s : State) (p core va : Nat) (offs : List Nat) : Option (Nat × Nat) :=
  let fits (c off : Nat) : Bool := off < 65536 && offs.all (fun o => o < s.scratchSize p c)
  if 0xFF00000000000000 ≤ va then
    let off := va % 2 ^ 56
    if off < 65536 && fits core off then some (core, off) else none
  else
    let x := va / 2 ^ 16 % 2 ^ 16
    let y := va / 2 ^ 32 % 2 ^ 16
    let off := va % 2 ^ 16
    if va / 2 ^ 48 % 256 == 0 && shHasRel (s.shape p) x y && fits (shCore (s.shape p) x y) off
    then some (shCore (s.shape p) x y, off) else none

/-- A command of an engine has begun to read or write the SRAM of a core: its accesses there are completed before a write of L1CFG, not
held by it (R146). -/
def State.engineRuns (s : State) (ag : Agent) (c : Nat) : Bool :=
  match ag with
  | .engine core slot mtx =>
    (((s.slotAt core slot).queue mtx).cmds.head?.map (fun k => k.state != .queued && k.cores.contains c)).getD false
  | _ => false

/-- A command of an engine reads or writes the SRAM of a core from now on (R146). -/
def State.noteCore (s : State) (ag : Agent) (c : Nat) : State :=
  match ag with
  | .engine core slot mtx =>
    if s.engineRuns ag c then s
    else
      let note (q : Queue) : Queue :=
        match q.cmds with
        | k :: r => { q with cmds := { k with cores := k.cores ++ [c] } :: r }
        | [] => q
      s.modSlot core slot (fun k => if mtx then { k with mtx := note k.mtx } else { k with copy := note k.copy })
  | _ => s

/-- The core and offset of a window address while an access is on its way: the size of a scratchpad whose L1CFG is being
written is not yet known (R146). -/
def State.windowAt (s : State) (p core va : Nat) (offs : List Nat) : Option (Nat × Nat) :=
  match s.window p core va [] with
  | some (c, off) => if s.l1cfgWaits p c then some (c, off) else s.window p core va offs
  | none => none

/-- A held request whose page fault is not open is served before a later access to its sector (R103). -/
def HeldStage.inLine (st : HeldStage) : Bool :=
  match st with
  | .faulted | .noEntry .. => false
  | _ => true

/-- A request held at a slice is to be served at a sector. -/
def State.heldAt (s : State) (slice p k : Nat) : Bool :=
  s.held.any (fun h => h.req.dst == slice && h.req.part == p && h.req.sector == k && h.stage.inLine)

/-- A ticket fetch that no page fault holds is to be served at a sector. -/
def State.fetchAt (s : State) (slice p k : Nat) : Bool :=
  s.tickets.any (fun t => t.slice == slice && t.part == p && sectorNo t.va == k && t.fetching && t.pf == .clear)

/-- Requests that came to the sector of an agent's access before it are served first (R103). -/
def State.agentHeld (s : State) (ag : Agent) (slice p va : Nat) : Bool :=
  match ag with
  | .ticket _ => false
  | _ => s.heldAt slice p (sectorNo va) || s.fetchAt slice p (sectorNo va)

/-- It is an agent's turn to take a way of a set: no fill has waited longer for one (R100). -/
def State.wayTurn (s : State) (ag : Agent) (slice set : Nat) : Bool :=
  match s.wayWaits.find? (fun w => w.slice == slice && w.set == set && (s.part w.part).state == .running && s.present w.agent) with
  | some w => w.agent == ag
  | none => true

/-- An agent waits for a way of a set, in arrival order (R100). -/
def State.waitWay (s : State) (ag : Agent) (slice p set : Nat) : State :=
  let w : WayWait := { slice := slice, part := p, set := set, agent := ag }
  if s.wayWaits.contains w then s
  else { s with wayWaits := s.wayWaits.filter (fun v => v.agent != ag) ++ [w] }

/-- An agent waits for a way of a set no more. -/
def State.tookWay (s : State) (ag : Agent) (slice set : Nat) : State :=
  { s with wayWaits := s.wayWaits.filter (fun v => !(v.agent == ag && v.slice == slice && v.set == set)) }

/-- The sector of an agent's access is resident, or finds a way at its turn (R100). -/
def State.agentWay (s : State) (ag : Agent) (slice p va : Nat) : Bool :=
  (s.sector? slice p va).isSome || (s.wayTurn ag slice (s.setOf p va) && s.hasWay slice (s.setOf p va))

/-! ## Arrivals in one fabric cycle (R103) -/

/-- The ranks of the write-like requests of one fabric cycle, by die, y, x and slot, the comb unit and the sluice engine after the
cores of their die; a read comes after them all. -/
def slotRank (core slot : Nat) : Nat := dieOf core * 2 ^ 25 + coreY core * 2 ^ 14 + coreX core * 2 ^ 4 + slot
def combRank (die : Nat) : Nat := die * 2 ^ 25 + 2 ^ 24
def sluiceRank (die : Nat) : Nat := die * 2 ^ 25 + 2 ^ 24 + 1
def readRank : Nat := 2 ^ 30

/-- The rank of an agent's access; none for a launch sequencer's, to which R103 gives no place. DEDUCED, log entry 132. -/
def agentRank (ag : Agent) (die : Nat) (op : MemOp) : Option Nat :=
  match ag with
  | .launch .. | .ring .. | .held _ => none
  | .ticket _ => some readRank
  | .engine core slot _ => some (if op.writes then slotRank core slot else readRank)
  | .comb _ => some (if op.writes then combRank die else readRank)
  | .sluice .. | .stackOp _ => some (if op.writes then sluiceRank die else readRank)

/-- The arrivals of the present fabric cycle, which takes 28 of the units of `State.now`. -/
def State.metNow (s : State) : List Met := if s.metAt == s.now / 28 then s.mets else []

/-- A request comes before one that has been taken in this fabric cycle, so it does not arrive in it (R103). DEDUCED, log entry 132. -/
def State.overtaken (s : State) (m : Met) : Bool :=
  s.metNow.any (fun x => x.home == m.home && x.place == m.place && m.rank < x.rank && (m.agent.isNone || x.agent != m.agent))

/-- A request arrives. -/
def State.meet (s : State) (m : Met) : State := { s with metAt := s.now / 28, mets := m :: s.metNow }

/-- The arrival of an agent's access at a slice. -/
def agentMet (ag : Agent) (die slice va : Nat) (op : MemOp) : Option Met :=
  (agentRank ag die op).map (fun k => { home := slice, place := sectorNo va, rank := k, agent := some ag })

/-- The translation of an agent's access: by the sector that it hits, the translation cache or a walk (R82, R83). -/
def State.agentLeaf (s : State) (slice p va acc : Nat) : State × Xlate :=
  let walk : State × Xlate := match s.walkAll va acc 3 (s.part p).root with
    | .ok l => (s.tcInstall slice p va (s.genAt p slice) l, .ok l)
    | e => (s, e)
  match s.sector? slice p va with
  | some c => if c.leaf.permits acc then (s, c.leaf.judge va acc 0) else walk
  | none => match s.tcFind slice p va with
    | some l => (s, l.judge va acc l.level)
    | none => walk

/-- An access of an agent of partition p with an access class; core is the core that the 0xFF window names, and pf what its page
request has come to. Its bytes lie in one row line, or are an element's. -/
def State.agentOpAs (s : State) (ag : Agent) (who : Who) (pf : Pf) (p core va acc : Nat) (op : MemOp) : Got :=
  if isWindow va then
    match s.windowAt p core va (op.span (va % 2 ^ 16)) with
    | some (c, off) =>
      if s.l1cfgWaits p c && !s.engineRuns ag c then .wait s
      else
        (match s.window p core va (op.span (va % 2 ^ 16)) with
         | some _ => let (s1, a) := (s.noteCore ag c).sramOp p c off va op; .ok s1 a
         | none => .fail s 0x05)
    | none => .fail s 0x05
  else if unimplemented va then .fail s 0x04
  else
    let slice := s.sliceOf p va
    let w : FaultWait := { slice := slice, part := p, page := va / 4096, acc := acc, agent := ag }
    let peer (s : State) (l : Leaf) : Got :=
      match s.peerOp ag p slice va l op with
      | (s1, some a) => .ok (s1.stopWait w) a
      | (s1, none) => .wait (s1.stopWait w)
    match s.askedLeaf ag p va op with
    | some l => peer s l
    | none =>
      if pf.fails va acc then .fail (s.stopWait w) 0x04
      else if s.agentHeld ag slice p va || ((s.sector? slice p va).isNone && s.landingOut slice p va)
          || (agentMet ag who.die slice va op).any s.overtaken then .wait s
      else if !s.agentWay ag slice p va then .wait (s.waitWay ag slice p (s.setOf p va))
      else
        let s0 := match agentMet ag who.die slice va op with
          | some m => s.meet m
          | none => s
        let (s1, x) := s0.agentLeaf slice p va acc
        match x with
        | .ok l =>
          if l.tgt == 2 then peer s1 l
          else let (s2, a) := s1.serve slice p va l op 0; .ok ((s2.stopWait w).tookWay ag slice (s.setOf p va)) a
        | .fail c => .fail (s1.stopWait w) c
        | .request level pf =>
          match s1.openFault ag slice p va acc level pf (s.genAt p slice) who with
          | (s2, some rid) => .fault s2 rid
          | (s2, none) => .wait s2

/-- An access of an agent with the access class of its operation (R81). -/
def State.agentOp (s : State) (ag : Agent) (who : Who) (pf : Pf) (p core va : Nat) (op : MemOp) : Got :=
  s.agentOpAs ag who pf p core va op.accClass op

/-- What a blocked agent leaves behind: the peer's requests and fault entries, nothing of its own work. -/
def State.blocked (s t : State) (ag : Agent) : State :=
  let asked := (t.again ag).swarms
  { s with swarms := asked, seqno := if asked == s.swarms then s.seqno else t.seqno
           out := t.out, faults := t.faults, faultWaits := t.faultWaits, wayWaits := t.wayWaits
           host := t.host, hostKey := t.hostKey, hostPois := t.hostPois, parts := t.parts, fns := t.fns }

/-- An agent's pass is over: the peer's answers to it have been used, and it waits for nothing. -/
def State.forget (s : State) (ag : Agent) : State :=
  { s.dropWaits ag with swarms := s.swarms.filter (fun w => w.agent != ag) }

/-- A page's sectors at a peer module are kept by no slice, so a release that a write carries there is as one whose sector has been
evicted (R105, R296). DEDUCED, log entry 23. -/
def State.losePeer (s : State) (slice p : Nat) (sig : Sig) : State := if sig != 0 then s.lose slice p else s

/-- The SIG of a peer's answer as its slice returns it (R295, R296). DEDUCED, log entry 23. -/
def State.peerSig (s : State) (slice p : Nat) : Sig := if s.lost.contains (64 * slice + p) then sigOnes else 0

end Sys2Proof.Machine
end

