-- ==== Sys2Proof/Machine/Order.lean ====
section
/-! DEFINITION. Releases and acquires (R290–R298): scopes and their cap (R291), the wait and the signature of a release
(R294, R297, R298), and what an acquire invalidates (R295, R297). -/

namespace Sys2Proof.Machine

/-- A named scope is capped (R291): scope 6 under a MAXSCOPE of 4. DEDUCED, log entry 19. -/
def State.capped (s : State) (p sc : Nat) : Bool := sc == 6 && bitsOf (s.part p).ctl 0 3 == 4

/-- The scope at which an operation that names sc executes (R291). DEDUCED, log entry 19. -/
def State.scope (s : State) (p sc : Nat) : Nat := if s.capped p sc then 4 else sc

/-- A capped operation of the focused thread adds 1 to SCOPEDEM (R291). DEDUCED, log entry 19. -/
def State.countCap (s : State) (sc : Nat) : State :=
  if s.capped s.thr.tid.part sc then
    { s with thr := { s.thr with csr := { s.thr.csr with scopedem := s.thr.csr.scopedem + 1 } } }
  else s

/-- Start the write-backs of a sector that stays resident, clean from then on. -/
def State.cleanLater (s : State) (c : Sector) : State :=
  let s1 := s.startWb c true
  { s1 with sectors := s1.sectors.map (fun d =>
      if d.slice == c.slice && d.asn == c.asn && d.vpn == c.vpn && d.gen == c.gen then { d with dirty := 0 } else d) }

/-- Start the write-backs of some dirty sectors; the numbers of the write-backs. -/
def State.cleanAll (s : State) (cs : List Sector) : State × List Nat :=
  match cs with
  | [] => (s, [])
  | c :: r =>
    let (s1, ns) := State.cleanAll (s.cleanLater c) r
    (s1, if c.dirtyRows == 0 then ns else s.seqno :: ns)

/-- The sectors of a partition that match a signature (R297). -/
def State.matching (s : State) (p : Nat) (g : Sig) : List Sector :=
  s.sectors.filter (fun c => c.asn == p && sigHit g c.vpn)

/-- Write-backs have all reached their targets. -/
def State.landed (s : State) (ns : List Nat) : Bool := ns.all (fun n => s.wbs.all (fun w => w.n != n))

/-- The write-backs under way of a partition's sectors that match a signature (R297). -/
def State.landing (s : State) (p : Nat) (g : Sig) : List Nat :=
  (s.wbs.filter (fun w => w.part == p && sigHit g w.vpn)).map (·.n)

/-- The write-backs that a release at an executed scope starts and waits for: none below scope 5 (R297). -/
def State.writeOut (s : State) (p scope : Nat) (g : Sig) : State × List Nat :=
  if 5 ≤ scope then
    let (s1, ns) := s.cleanAll (s.matching p g)
    (s1, s.landing p g ++ ns)
  else (s, [])

/-- A request of a thread is on its way, is held, or its answer has not reached the core: an access that is not yet
acknowledged (R153, R298, R343). -/
def State.unacknowledged (s : State) (tid : Tid) : Bool :=
  s.net.any (fun k => match k.body with
    | .slice r | .scratch r | .answer r .. => r.tid == tid
    | .wake t .. => t == tid
    | _ => false) ||
  s.held.any (fun h => h.req.tid == tid)

/-- The release of the focused thread's instruction at a named scope, as far as it has come: its waits (R298), the
signature that it takes from the accumulator (R294), and the write-backs of scopes 5 and 6 (R297). Every access before an
earlier release comes before this one too (R293), so the signatures of the thread's earlier releases are part of its own. At
scope 0 nothing is published and the accumulator stays (R301). True when it is made; its signature stands in the stage then.
DEDUCED, log entry 20. DEDUCED, log entry 108. -/
def State.release (s : State) (sc : Nat) : State × Bool :=
  let t := s.thr
  match t.stage.rel with
  | 0 =>
    if t.unserved != 0 || s.unacknowledged t.tid then (s, false)
    else
      let n := s.scope t.tid.part sc
      let s0 := s.countCap sc
      if n = 0 then ({ s0 with thr := { s0.thr with stage := { s0.thr.stage with rel := 2, sig := 0 } } }, true)
      else
        let g := t.acc ||| t.told
        let (s1, ns) := s0.writeOut t.tid.part n g
        ({ s1 with thr := { s1.thr with
            acc := 0, attach := 0, told := g
            stage := { s1.thr.stage with rel := if ns.isEmpty then 2 else 1, sig := g, wbs := ns } } }, ns.isEmpty)
  | 1 =>
    if s.landed t.stage.wbs then ({ s with thr := { t with stage := { t.stage with rel := 2 } } }, true) else (s, false)
  | _ => (s, true)

/-- The core applies a signature for a partition: every matching L1 line of it is invalidated (R295). -/
def State.applySig (s : State) (core p : Nat) (g : Sig) : State :=
  (s.l1Drop core p (fun l => sigHit g (sectorNo l.va))).noInstall core p (fun r => sigHit g r.sector)

/-- Every slice of the partition's set invalidates every clean sector of it (R297). -/
def State.dropClean (s : State) (p : Nat) : State :=
  (s.sectors.filter (fun c => c.asn == p && c.dirtyRows == 0)).foldl State.removeSector s

/-- An acquire of the focused thread at an executed scope, applying a signature (R295, R297). DEDUCED, log entry 20. -/
def State.acquire (s : State) (sc : Nat) (g : Sig) : State :=
  if sc = 0 then s
  else
    let p := s.thr.tid.part
    let g1 := if 5 ≤ sc then sigOnes else g
    let s1 := (if 5 ≤ sc then s.dropClean p else s).applySig s.thr.core p g1
    { s1 with thr := { s1.thr with acc := s1.thr.acc ||| g1 } }

/-- The acquire of ACQ, FENCE and FENCEE: the seen signature is applied and cleared; at scope 0 nothing happens (R301). -/
def State.acquireSeen (s : State) (sc : Nat) : State :=
  let g := s.thr.seen
  if sc = 0 then s
  else
    let s1 := s.acquire sc g
    { s1 with thr := { s1.thr with seen := 0 } }

end Sys2Proof.Machine
end

