-- ==== Sys2Proof/Machine/Access.lean ====
section
/-! DEFINITION. A memory form's access, from its address to its answer (R150–R153, R302): the checks of R152 in their order,
scratchpad windows, L1 hits and requests to slices and other cores. -/

namespace Sys2Proof.Machine

/-- va of a memory form (R152). -/
def Thread.va (t : Thread) (bp : BitVec 3) (off : BitVec 24) : Nat := (t.ra bp + off.signExtend 64).toNat

/-- Multiple of an alignment. -/
def aligned (va n : Nat) : Bool := va % n == 0

/-- The address names a column line of element width w (R97). -/
def columnOk (va w : Nat) : Bool := va % 32 % w == 0 && va % 1024 / 32 % (32 / w) == 0

/-- A trap of the access at its one issue cycle. -/
def State.accessTrap (s : State) (cause va : Nat) : State := s.trap cause (BitVec.ofNat 64 va)

/-- An answer as the form takes it: its continuation, or the trap that it brings. DEDUCED, log entry 18. -/
def State.answered (s : State) (a : Answer) (k : State → Answer → State) : State :=
  match a.verdict with
  | .ok => k s a
  | .trap c va => s.accessTrap c va

/-- The value of n bytes at an address in the line that holds them. -/
def lineValue (d : Line) (va n : Nat) : Nat := d.toNat / 2 ^ (8 * (va % 32)) % 2 ^ (8 * n)

/-- An L1 hit's answer, for the loads that look in the L1 (R149). A hit can return a release's carrying write, so its reader has seen
the SIG that came with the line (R293). DEDUCED, log entry 131. -/
def State.hit (s : State) (va : Nat) (op : MemOp) : Option Answer :=
  match op with
  | .read .row n =>
    (s.l1Hit s.thr.core s.thr.tid.part .row (va / 32 * 32)).map (fun l => { data := l.data, val := lineValue l.data va n, saw := l.sig })
  | .read (.col w) _ =>
    (s.l1Hit s.thr.core s.thr.tid.part (.col w) va).map (fun l => { data := l.data, val := l.data.toNat, saw := l.sig })
  | _ => none

/-- The request of the focused thread for an operation. -/
def State.req (s : State) (dst va : Nat) (op : MemOp) (sig : Sig) (install : Bool) : Req :=
  { tid := s.thr.tid, part := s.thr.tid.part, core := s.thr.core, slot := s.thr.slot, dst := dst, va := va, op := op
    sig := sig, install := install }

/-- The thread's requests to a slice that are not sent while a refused fetch of its goes to that slice (R111). -/
def State.fetchRefused (s : State) (slice : Nat) : Bool :=
  s.net.any (fun k => match k.body with
    | .tkFetch r => r.refused && r.tid == s.thr.tid && r.slice == slice
    | _ => false)

/-- The focused thread's request is under way. -/
def State.sent (s : State) : State := { s with thr := { s.thr with stage := { s.thr.stage with sent := true } } }

/-- The focused thread's seen signature takes what a read at its own core has seen (R293, R295). -/
def State.saw (s : State) (a : Answer) : State := { s with thr := { s.thr with seen := s.thr.seen ||| a.saw } }

/-- The access once its checks at the core have passed: at the own scratchpad, at the L1, or sent to its home. -/
def State.goMem (s : State) (va : Nat) (op : MemOp) (install : Bool) (k : State → Answer → State) : State :=
  let t := s.thr
  let p := t.tid.part
  if isWindow va then
    match s.windowAt p t.core va (op.span (va % 2 ^ 16)) with
    | some (c, off) =>
      if c = t.core then
        let (s1, a) := s.sramOp p c off va op
        (s1.saw a).answered a k
      else ((s.request (.scratch (s.req c va op 0 false))).sent).park .answer
    | none => s.accessTrap 0x05 va
  else
    match s.hit va op with
    | some a => k (s.saw a) a
    | none =>
      let slice := s.sliceOf p va
      if s.fetchRefused slice then s.park (.tickets 2)
      else
        let sig := if op.writes then t.attach ||| t.stage.sig else 0
        ((s.request (.slice (s.req slice va op sig install))).sent).park .answer

/-- Checks 1 to 3 of R152: the cause of the first that fails. -/
def State.addressCause (s : State) (va : Nat) (alignOk windowOk : Bool) (op : MemOp) : Option Nat :=
  if unimplemented va then some 0x04
  else if !alignOk then some 0x03
  else if isWindow va && (!windowOk || (s.windowAt s.thr.tid.part s.thr.core va (op.span (va % 2 ^ 16))).isNone) then some 0x05
  else none

/-- The offsets on the thread's own core that an access names through either window; none elsewhere. -/
def State.ownOffsets (s : State) (va : Nat) (op : MemOp) : List Nat :=
  if isWindow va then
    match s.windowAt s.thr.tid.part s.thr.core va (op.span (va % 2 ^ 16)) with
    | some (c, off) => if c = s.thr.core then op.span off else []
    | none => []
  else []

/-- Check 4 of R152, and the acquire of an access that a watermark has woken (R133). DEDUCED, log entry 22. -/
def State.markAcquire (s : State) (offs : List Nat) : State :=
  match s.thr.phase with
  | .parked (.watermark _) => s.acquire (s.markScope s.thr.tid.part s.thr.core offs) sigOnes
  | _ => s

/-- The focused thread's own access is held while a write of L1CFG is parked on its core (R146); it is late from then on (R333). -/
def State.holdAccess (s : State) : State :=
  (if s.thr.phase == .parked .l1cfg then s else s.delayed s.thr s.thr.core).park .l1cfg

/-- A memory form's access. The form may release at a scope first (STR). k is what the form does with its answer. -/
def State.access (s : State) (va : Nat) (alignOk windowOk : Bool) (op : MemOp) (install : Bool) (rel : Option Nat)
    (k : State → Answer → State) : State :=
  match s.thr.answer with
  | some a => s.answered a k
  | none =>
    if s.thr.stage.sent then s.park .answer
    else
      match s.addressCause va alignOk windowOk op with
      | some c => s.accessTrap c va
      | none =>
        let offs := s.ownOffsets va op
        if !offs.isEmpty && s.l1cfgWaits s.thr.tid.part s.thr.core then s.holdAccess
        else match s.heldMark s.thr.tid.part s.thr.core offs with
        | some k => s.park (.watermark k)
        | none =>
          let s1 := s.markAcquire offs
          match rel with
          | none => s1.goMem va op install k
          | some sc =>
            let (s2, made) := s1.release sc
            if made then s2.goMem va op install k else s2.park .release

end Sys2Proof.Machine
end

