-- ==== Sys2Proof/Decode.lean ====
section
/-! DEFINITION. The decoder and the encoder (R45-R57, R60). Words are numbered with bit 0 least significant;
a field is read as `fld w lo n`, its n bits from bit lo up. `decodeRaw` reads a word into an instruction, refusing
unassigned codes and nonzero unused fields; `formCheck` makes the checks of R60 orders 1 to 3 on the fields that were
read; `shapeCheck` makes orders 4 and 5, which depend on the thread. -/

namespace Sys2Proof

/-- Why the decoder refuses a word: the cause of R60 that it traps with, or too few bytes to hold the instruction. -/
inductive Reject where
  | illegal | scope | format | truncated
deriving DecidableEq, Repr

/-- Bits lo .. lo+n-1 of a word. -/
def fld (w lo n : Nat) : Nat := w / 2 ^ lo % 2 ^ n

/-- The same bits as a field of an instruction. -/
def bf (w lo n : Nat) : BitVec n := .ofNat n (fld w lo n)

/-- Whether word 0 begins a two-word form: formats M and VM (R45, R55, R56). -/
def twoWord (w : Nat) : Bool :=
  let mo := fld w 26 6
  (0x10 ≤ mo && mo ≤ 0x13) || mo == 0x36

/-- Major 0x00, SYS (R55, R56). -/
def decodeSys (w : Nat) : Except Reject Instr :=
  match fld w 8 6 with
  | 0 => if fld w 0 8 = 0 ∧ fld w 14 8 = 0 then .ok (.nop (bf w 22 4)) else .error .illegal
  | 1 => if fld w 0 8 = 0 ∧ fld w 14 8 = 0 then .ok (.halt (bf w 22 4)) else .error .illegal
  | 2 => if fld w 0 8 = 0 ∧ fld w 14 8 = 0 then .ok (.idle (bf w 22 4)) else .error .illegal
  | 3 => if fld w 14 8 = 0 then .ok (.trap (bf w 22 4) (bf w 0 8)) else .error .illegal
  | 4 => if fld w 0 8 = 0 ∧ fld w 14 8 = 0 then .ok (.eret (bf w 22 4)) else .error .illegal
  | 5 => if fld w 14 8 = 0 then .ok (.bkpt (bf w 22 4) (bf w 0 8)) else .error .illegal
  | 6 => if fld w 1 7 = 0 ∧ fld w 14 4 = 0 then .ok (.rdcyc (bf w 22 4) (bf w 18 4) (bf w 0 1)) else .error .illegal
  | 7 => if fld w 1 7 = 0 ∧ fld w 14 4 = 0 then .ok (.rdtime (bf w 22 4) (bf w 18 4) (bf w 0 1)) else .error .illegal
  | 8 => if fld w 1 7 = 0 ∧ fld w 14 4 = 0 then .ok (.rdsig (bf w 22 4) (bf w 18 4) (bf w 0 1)) else .error .illegal
  | 9 => if fld w 2 6 = 0 then .ok (.lnch (bf w 22 4) (bf w 18 4) (bf w 14 4) (bf w 0 2)) else .error .illegal
  | 10 => if fld w 0 8 = 0 ∧ fld w 14 8 = 0 then .ok (.l1inv (bf w 22 4)) else .error .illegal
  | _ => .error .illegal

/-- Major 0x01, ALU (R55, R56). -/
def decodeAlu (w : Nat) : Except Reject Instr :=
  match fld w 0 10 with
  | 0 => .ok (.add (bf w 22 4) (bf w 18 4) (bf w 14 4) (bf w 10 4))
  | 1 => .ok (.sub (bf w 22 4) (bf w 18 4) (bf w 14 4) (bf w 10 4))
  | 2 => .ok (.and (bf w 22 4) (bf w 18 4) (bf w 14 4) (bf w 10 4))
  | 3 => .ok (.or (bf w 22 4) (bf w 18 4) (bf w 14 4) (bf w 10 4))
  | 4 => .ok (.xor (bf w 22 4) (bf w 18 4) (bf w 14 4) (bf w 10 4))
  | 5 => .ok (.andn (bf w 22 4) (bf w 18 4) (bf w 14 4) (bf w 10 4))
  | 6 => .ok (.shl (bf w 22 4) (bf w 18 4) (bf w 14 4) (bf w 10 4))
  | 7 => .ok (.shr (bf w 22 4) (bf w 18 4) (bf w 14 4) (bf w 10 4))
  | 8 => .ok (.sar (bf w 22 4) (bf w 18 4) (bf w 14 4) (bf w 10 4))
  | 9 => .ok (.rol (bf w 22 4) (bf w 18 4) (bf w 14 4) (bf w 10 4))
  | 10 => .ok (.mul (bf w 22 4) (bf w 18 4) (bf w 14 4) (bf w 10 4))
  | 11 => .ok (.mulh (bf w 22 4) (bf w 18 4) (bf w 14 4) (bf w 10 4))
  | 12 => .ok (.mulhu (bf w 22 4) (bf w 18 4) (bf w 14 4) (bf w 10 4))
  | 13 => .ok (.div (bf w 22 4) (bf w 18 4) (bf w 14 4) (bf w 10 4))
  | 14 => .ok (.divu (bf w 22 4) (bf w 18 4) (bf w 14 4) (bf w 10 4))
  | 15 => .ok (.rem (bf w 22 4) (bf w 18 4) (bf w 14 4) (bf w 10 4))
  | 16 => .ok (.remu (bf w 22 4) (bf w 18 4) (bf w 14 4) (bf w 10 4))
  | 17 => .ok (.min (bf w 22 4) (bf w 18 4) (bf w 14 4) (bf w 10 4))
  | 18 => .ok (.max (bf w 22 4) (bf w 18 4) (bf w 14 4) (bf w 10 4))
  | 19 => .ok (.minu (bf w 22 4) (bf w 18 4) (bf w 14 4) (bf w 10 4))
  | 20 => .ok (.maxu (bf w 22 4) (bf w 18 4) (bf w 14 4) (bf w 10 4))
  | 21 => if fld w 10 4 = 0 then .ok (.clz (bf w 22 4) (bf w 18 4) (bf w 14 4)) else .error .illegal
  | 22 => if fld w 10 4 = 0 then .ok (.ctz (bf w 22 4) (bf w 18 4) (bf w 14 4)) else .error .illegal
  | 23 => if fld w 10 4 = 0 then .ok (.popc (bf w 22 4) (bf w 18 4) (bf w 14 4)) else .error .illegal
  | 24 => if fld w 10 4 = 0 then .ok (.brev (bf w 22 4) (bf w 18 4) (bf w 14 4)) else .error .illegal
  | 25 => if fld w 10 4 = 0 then .ok (.sextb (bf w 22 4) (bf w 18 4) (bf w 14 4)) else .error .illegal
  | 26 => if fld w 10 4 = 0 then .ok (.sexth (bf w 22 4) (bf w 18 4) (bf w 14 4)) else .error .illegal
  | 27 => if fld w 10 4 = 0 then .ok (.zextb (bf w 22 4) (bf w 18 4) (bf w 14 4)) else .error .illegal
  | 28 => if fld w 10 4 = 0 then .ok (.zexth (bf w 22 4) (bf w 18 4) (bf w 14 4)) else .error .illegal
  | 29 => if fld w 10 4 = 0 then .ok (.mov (bf w 22 4) (bf w 18 4) (bf w 14 4)) else .error .illegal
  | 30 => .ok (.slt (bf w 22 4) (bf w 18 4) (bf w 14 4) (bf w 10 4))
  | 31 => .ok (.sltu (bf w 22 4) (bf w 18 4) (bf w 14 4) (bf w 10 4))
  | _ => .error .illegal

/-- Major 0x02, ADDI (R55, R56). -/
def decodeAddi (w : Nat) : Except Reject Instr :=
  .ok (.addi (bf w 22 4) (bf w 18 4) (bf w 14 4) (bf w 0 14))

/-- Major 0x03, ANDI (R55, R56). -/
def decodeAndi (w : Nat) : Except Reject Instr :=
  .ok (.andi (bf w 22 4) (bf w 18 4) (bf w 14 4) (bf w 0 14))

/-- Major 0x04, ORI (R55, R56). -/
def decodeOri (w : Nat) : Except Reject Instr :=
  .ok (.ori (bf w 22 4) (bf w 18 4) (bf w 14 4) (bf w 0 14))

/-- Major 0x05, XORI (R55, R56). -/
def decodeXori (w : Nat) : Except Reject Instr :=
  .ok (.xori (bf w 22 4) (bf w 18 4) (bf w 14 4) (bf w 0 14))

/-- Major 0x06, SHI (R55, R56). -/
def decodeShi (w : Nat) : Except Reject Instr :=
  match fld w 5 9 with
  | 0 => .ok (.shli (bf w 22 4) (bf w 18 4) (bf w 14 4) (bf w 0 5))
  | 1 => .ok (.shri (bf w 22 4) (bf w 18 4) (bf w 14 4) (bf w 0 5))
  | 2 => .ok (.sari (bf w 22 4) (bf w 18 4) (bf w 14 4) (bf w 0 5))
  | 3 => .ok (.roli (bf w 22 4) (bf w 18 4) (bf w 14 4) (bf w 0 5))
  | _ => .error .illegal

/-- Major 0x07, LIH (R55, R56). -/
def decodeLih (w : Nat) : Except Reject Instr :=
  .ok (.lih (bf w 22 4) (bf w 18 4) (bf w 0 18))

/-- Major 0x08, CMP (R55, R56). -/
def decodeCmp (w : Nat) : Except Reject Instr :=
  if fld w 0 6 = 0 then .ok (.cmp (bf w 22 4) (bf w 19 3) (bf w 18 1) (bf w 14 4) (bf w 10 4) (bf w 6 4)) else .error .illegal

/-- Major 0x09, CMPI (R55, R56). -/
def decodeCmpi (w : Nat) : Except Reject Instr :=
  .ok (.cmpi (bf w 22 4) (bf w 19 3) (bf w 18 1) (bf w 14 4) (bf w 4 10) (bf w 0 4))

/-- Major 0x0A, PRD (R55, R56). -/
def decodePrd (w : Nat) : Except Reject Instr :=
  match fld w 0 9 with
  | 0 => if fld w 9 4 = 0 then .ok (.pand (bf w 22 4) (bf w 19 3) (bf w 16 3) (bf w 13 3)) else .error .illegal
  | 1 => if fld w 9 4 = 0 then .ok (.por (bf w 22 4) (bf w 19 3) (bf w 16 3) (bf w 13 3)) else .error .illegal
  | 2 => if fld w 9 4 = 0 then .ok (.pxor (bf w 22 4) (bf w 19 3) (bf w 16 3) (bf w 13 3)) else .error .illegal
  | 3 => if fld w 9 4 = 0 then .ok (.pandn (bf w 22 4) (bf w 19 3) (bf w 16 3) (bf w 13 3)) else .error .illegal
  | 4 => if fld w 13 9 = 0 then .ok (.prdw (bf w 22 4) (bf w 9 4)) else .error .illegal
  | 5 => if fld w 13 9 = 0 then .ok (.pwrw (bf w 22 4) (bf w 9 4)) else .error .illegal
  | _ => .error .illegal

/-- Major 0x0B, BR (R55, R56). -/
def decodeBr (w : Nat) : Except Reject Instr :=
  .ok (.br (bf w 22 4) (bf w 0 22))

/-- Major 0x0C, BRL (R55, R56). -/
def decodeBrl (w : Nat) : Except Reject Instr :=
  .ok (.brl (bf w 22 4) (bf w 0 22))

/-- Major 0x0D, JR (R55, R56). -/
def decodeJr (w : Nat) : Except Reject Instr :=
  match fld w 0 10 with
  | 0 => if fld w 10 4 = 0 ∧ fld w 18 4 = 0 then .ok (.jr (bf w 22 4) (bf w 14 4)) else .error .illegal
  | 1 => if fld w 10 4 = 0 ∧ fld w 18 4 = 0 then .ok (.jrl (bf w 22 4) (bf w 14 4)) else .error .illegal
  | _ => .error .illegal

/-- Major 0x0E, PAIR (R55, R56). -/
def decodePair (w : Nat) : Except Reject Instr :=
  match fld w 0 4 with
  | 0 => if fld w 4 6 = 0 ∧ fld w 13 1 = 0 ∧ fld w 17 1 = 0 ∧ fld w 21 1 = 0 then .ok (.padd (bf w 22 4) (bf w 18 3) (bf w 14 3) (bf w 10 3)) else .error .illegal
  | 1 => if fld w 7 3 = 0 ∧ fld w 13 1 = 0 ∧ fld w 17 1 = 0 ∧ fld w 21 1 = 0 then .ok (.padds (bf w 22 4) (bf w 18 3) (bf w 14 3) (bf w 10 3) (bf w 4 3)) else .error .illegal
  | 2 => if fld w 7 3 = 0 ∧ fld w 13 1 = 0 ∧ fld w 17 1 = 0 ∧ fld w 21 1 = 0 then .ok (.paddu (bf w 22 4) (bf w 18 3) (bf w 14 3) (bf w 10 3) (bf w 4 3)) else .error .illegal
  | 3 => if fld w 4 6 = 0 ∧ fld w 13 1 = 0 ∧ fld w 17 1 = 0 ∧ fld w 21 1 = 0 then .ok (.psub (bf w 22 4) (bf w 18 3) (bf w 14 3) (bf w 10 3)) else .error .illegal
  | 4 => if fld w 4 10 = 0 ∧ fld w 17 1 = 0 ∧ fld w 21 1 = 0 then .ok (.pmov (bf w 22 4) (bf w 18 3) (bf w 14 3)) else .error .illegal
  | _ => .error .illegal

/-- Major 0x0F, REP (R55, R56). -/
def decodeRep (w : Nat) : Except Reject Instr :=
  if fld w 0 11 = 0 then .ok (.rep (bf w 20 6) (bf w 17 3) (bf w 14 3) (bf w 11 3)) else .error .illegal

/-- Major 0x10, LD (R55, R56). -/
def decodeLd (w w1 : Nat) : Except Reject Instr :=
  match fld w 0 4 with
  | 0 => if fld w 4 11 = 0 ∧ fld w1 29 3 = 0 then .ok (.ldb (bf w 22 4) (bf w 18 4) (bf w 15 3) (bf w1 24 5) (bf w1 0 24)) else .error .illegal
  | 1 => if fld w 4 11 = 0 ∧ fld w1 29 3 = 0 then .ok (.ldbu (bf w 22 4) (bf w 18 4) (bf w 15 3) (bf w1 24 5) (bf w1 0 24)) else .error .illegal
  | 2 => if fld w 4 11 = 0 ∧ fld w1 29 3 = 0 then .ok (.ldh (bf w 22 4) (bf w 18 4) (bf w 15 3) (bf w1 24 5) (bf w1 0 24)) else .error .illegal
  | 3 => if fld w 4 11 = 0 ∧ fld w1 29 3 = 0 then .ok (.ldhu (bf w 22 4) (bf w 18 4) (bf w 15 3) (bf w1 24 5) (bf w1 0 24)) else .error .illegal
  | 4 => if fld w 4 11 = 0 ∧ fld w1 29 3 = 0 then .ok (.ldw (bf w 22 4) (bf w 18 4) (bf w 15 3) (bf w1 24 5) (bf w1 0 24)) else .error .illegal
  | 5 => if fld w 4 11 = 0 ∧ fld w 18 1 = 0 ∧ fld w1 29 3 = 0 then .ok (.ldd (bf w 22 4) (bf w 19 3) (bf w 15 3) (bf w1 24 5) (bf w1 0 24)) else .error .illegal
  | 6 => if fld w 4 11 = 0 then .ok (.lda (bf w 22 4) (bf w 18 4) (bf w 15 3) (bf w1 29 3) (bf w1 24 5) (bf w1 0 24)) else .error .illegal
  | _ => .error .illegal

/-- Major 0x11, ST (R55, R56). -/
def decodeSt (w w1 : Nat) : Except Reject Instr :=
  match fld w 0 4 with
  | 0 => if fld w 4 11 = 0 ∧ fld w1 29 3 = 0 then .ok (.stb (bf w 22 4) (bf w 18 4) (bf w 15 3) (bf w1 24 5) (bf w1 0 24)) else .error .illegal
  | 1 => if fld w 4 11 = 0 ∧ fld w1 29 3 = 0 then .ok (.sth (bf w 22 4) (bf w 18 4) (bf w 15 3) (bf w1 24 5) (bf w1 0 24)) else .error .illegal
  | 2 => if fld w 4 11 = 0 ∧ fld w1 29 3 = 0 then .ok (.stw (bf w 22 4) (bf w 18 4) (bf w 15 3) (bf w1 24 5) (bf w1 0 24)) else .error .illegal
  | 3 => if fld w 4 11 = 0 ∧ fld w 18 1 = 0 ∧ fld w1 29 3 = 0 then .ok (.std (bf w 22 4) (bf w 19 3) (bf w 15 3) (bf w1 24 5) (bf w1 0 24)) else .error .illegal
  | 4 => if fld w 4 11 = 0 then .ok (.str (bf w 22 4) (bf w 18 4) (bf w 15 3) (bf w1 29 3) (bf w1 24 5) (bf w1 0 24)) else .error .illegal
  | _ => .error .illegal

/-- Major 0x12, ATOM (R55, R56). -/
def decodeAtom (w w1 : Nat) : Except Reject Instr :=
  match fld w 0 4 with
  | 0 => if fld w 5 9 = 0 ∧ fld w1 29 3 = 0 then .ok (.aadd (bf w 22 4) (bf w 18 4) (bf w 15 3) (bf w 14 1) (bf w 4 1) (bf w1 24 5) (bf w1 0 24)) else .error .illegal
  | 1 => if fld w 5 9 = 0 ∧ fld w1 29 3 = 0 then .ok (.amin (bf w 22 4) (bf w 18 4) (bf w 15 3) (bf w 14 1) (bf w 4 1) (bf w1 24 5) (bf w1 0 24)) else .error .illegal
  | 2 => if fld w 5 9 = 0 ∧ fld w1 29 3 = 0 then .ok (.amax (bf w 22 4) (bf w 18 4) (bf w 15 3) (bf w 14 1) (bf w 4 1) (bf w1 24 5) (bf w1 0 24)) else .error .illegal
  | 3 => if fld w 5 9 = 0 ∧ fld w1 29 3 = 0 then .ok (.aminu (bf w 22 4) (bf w 18 4) (bf w 15 3) (bf w 14 1) (bf w 4 1) (bf w1 24 5) (bf w1 0 24)) else .error .illegal
  | 4 => if fld w 5 9 = 0 ∧ fld w1 29 3 = 0 then .ok (.amaxu (bf w 22 4) (bf w 18 4) (bf w 15 3) (bf w 14 1) (bf w 4 1) (bf w1 24 5) (bf w1 0 24)) else .error .illegal
  | 5 => if fld w 5 9 = 0 ∧ fld w1 29 3 = 0 then .ok (.aand (bf w 22 4) (bf w 18 4) (bf w 15 3) (bf w 14 1) (bf w 4 1) (bf w1 24 5) (bf w1 0 24)) else .error .illegal
  | 6 => if fld w 5 9 = 0 ∧ fld w1 29 3 = 0 then .ok (.aor (bf w 22 4) (bf w 18 4) (bf w 15 3) (bf w 14 1) (bf w 4 1) (bf w1 24 5) (bf w1 0 24)) else .error .illegal
  | 7 => if fld w 5 9 = 0 ∧ fld w1 29 3 = 0 then .ok (.axor (bf w 22 4) (bf w 18 4) (bf w 15 3) (bf w 14 1) (bf w 4 1) (bf w1 24 5) (bf w1 0 24)) else .error .illegal
  | 8 => if fld w 5 9 = 0 ∧ fld w1 29 3 = 0 then .ok (.aswp (bf w 22 4) (bf w 18 4) (bf w 15 3) (bf w 14 1) (bf w 4 1) (bf w1 24 5) (bf w1 0 24)) else .error .illegal
  | 9 => if fld w 5 9 = 0 ∧ fld w1 29 3 = 0 then .ok (.acas (bf w 22 4) (bf w 18 4) (bf w 15 3) (bf w 14 1) (bf w 4 1) (bf w1 24 5) (bf w1 0 24)) else .error .illegal
  | 10 => if fld w 4 10 = 0 ∧ fld w1 29 3 = 0 then .ok (.aaddf (bf w 22 4) (bf w 18 4) (bf w 15 3) (bf w 14 1) (bf w1 24 5) (bf w1 0 24)) else .error .illegal
  | _ => .error .illegal

/-- Major 0x13, LDT (R55, R56). -/
def decodeLdt (w w1 : Nat) : Except Reject Instr :=
  match fld w 0 4 with
  | 0 => if fld w 4 11 = 0 ∧ fld w1 29 3 = 0 then .ok (.ldtL (bf w 22 4) (bf w 18 4) (bf w 15 3) (bf w1 24 5) (bf w1 0 24)) else .error .illegal
  | 1 => if fld w 4 11 = 0 ∧ fld w1 29 3 = 0 then .ok (.ldtQ (bf w 22 4) (bf w 18 4) (bf w 15 3) (bf w1 24 5) (bf w1 0 24)) else .error .illegal
  | 2 => if fld w 4 11 = 0 ∧ fld w1 29 3 = 0 then .ok (.ldtS (bf w 22 4) (bf w 18 4) (bf w 15 3) (bf w1 24 5) (bf w1 0 24)) else .error .illegal
  | 3 => if fld w 6 9 = 0 ∧ fld w1 29 3 = 0 then .ok (.ldtC (bf w 22 4) (bf w 18 4) (bf w 15 3) (bf w 4 2) (bf w1 24 5) (bf w1 0 24)) else .error .illegal
  | _ => .error .illegal

/-- Major 0x14, TKT (R55, R56). -/
def decodeTkt (w : Nat) : Except Reject Instr :=
  match fld w 0 8 with
  | 0 => if fld w 8 3 = 0 ∧ fld w 15 1 = 0 then .ok (.rdmv (bf w 22 4) (bf w 16 6) (bf w 11 4)) else .error .illegal
  | 1 => if fld w 15 7 = 0 then .ok (.rdms (bf w 22 4) (bf w 11 4) (bf w 8 3)) else .error .illegal
  | 2 => if fld w 8 3 = 0 ∧ fld w 15 7 = 0 then .ok (.tkdrop (bf w 22 4) (bf w 11 4)) else .error .illegal
  | 3 => if fld w 8 3 = 0 ∧ fld w 18 4 = 0 then .ok (.tktst (bf w 22 4) (bf w 15 3) (bf w 11 4)) else .error .illegal
  | 4 => if fld w 8 14 = 0 then .ok (.rdmw (bf w 22 4)) else .error .illegal
  | _ => .error .illegal

/-- Major 0x15, ORD (R55, R56). -/
def decodeOrd (w : Nat) : Except Reject Instr :=
  match fld w 14 5 with
  | 0 => if fld w 0 14 = 0 then .ok (.fence (bf w 22 4) (bf w 19 3)) else .error .illegal
  | 1 => if fld w 0 14 = 0 then .ok (.fencee (bf w 22 4) (bf w 19 3)) else .error .illegal
  | 2 => if fld w 0 14 = 0 then .ok (.acq (bf w 22 4) (bf w 19 3)) else .error .illegal
  | 3 => if fld w 0 14 = 0 then .ok (.rel (bf w 22 4) (bf w 19 3)) else .error .illegal
  | _ => .error .illegal

/-- Major 0x16, MSG (R55, R56). -/
def decodeMsg (w : Nat) : Except Reject Instr :=
  match fld w 0 10 with
  | 0 => if fld w 10 2 = 0 ∧ fld w 18 4 = 0 then .ok (.send (bf w 22 4) (bf w 14 4) (bf w 12 2)) else .error .illegal
  | 1 => if fld w 14 6 = 0 then .ok (.waitm (bf w 22 4) (bf w 20 2) (bf w 10 4)) else .error .illegal
  | 2 => if fld w 18 2 = 0 then .ok (.pollm (bf w 22 4) (bf w 20 2) (bf w 14 4) (bf w 10 4)) else .error .illegal
  | 3 => if fld w 18 4 = 0 then .ok (.mbind (bf w 22 4) (bf w 14 4) (bf w 10 4)) else .error .illegal
  | 4 => if fld w 14 8 = 0 then .ok (.munbind (bf w 22 4) (bf w 10 4)) else .error .illegal
  | _ => .error .illegal

/-- Major 0x17, GRP (R55, R56). -/
def decodeGrp (w : Nat) : Except Reject Instr :=
  match fld w 0 4 with
  | 0 => if fld w 4 6 = 0 ∧ fld w 12 10 = 0 then .ok (.bar (bf w 22 4) (bf w 10 2)) else .error .illegal
  | 1 => if fld w 7 3 = 0 ∧ fld w 12 2 = 0 then .ok (.barx (bf w 22 4) (bf w 18 4) (bf w 14 4) (bf w 10 2) (bf w 4 3)) else .error .illegal
  | 2 => if fld w 4 6 = 0 ∧ fld w 12 6 = 0 then .ok (.garv (bf w 22 4) (bf w 18 4) (bf w 10 2)) else .error .illegal
  | 3 => if fld w 4 6 = 0 ∧ fld w 12 2 = 0 ∧ fld w 18 4 = 0 then .ok (.gwt (bf w 22 4) (bf w 14 4) (bf w 10 2)) else .error .illegal
  | _ => .error .illegal

/-- Major 0x18, ENQ (R55, R56). -/
def decodeEnq (w : Nat) : Except Reject Instr :=
  match fld w 0 11 with
  | 0 => if fld w 11 1 = 0 then .ok (.enqm (bf w 22 4) (bf w 18 4) (bf w 12 6)) else .error .illegal
  | 1 => if fld w 11 1 = 0 then .ok (.enqc (bf w 22 4) (bf w 18 4) (bf w 12 6)) else .error .illegal
  | 2 => if fld w 15 3 = 0 then .ok (.mwait (bf w 22 4) (bf w 18 4) (bf w 11 4)) else .error .illegal
  | 3 => if fld w 15 7 = 0 then .ok (.cwait (bf w 22 4) (bf w 11 4)) else .error .illegal
  | 4 => if fld w 15 3 = 0 then .ok (.cstat (bf w 22 4) (bf w 18 4) (bf w 11 4)) else .error .illegal
  | 8 => if fld w 11 1 = 0 then .ok (.enqmR (bf w 22 4) (bf w 18 4) (bf w 12 6)) else .error .illegal
  | 9 => if fld w 11 1 = 0 then .ok (.enqcR (bf w 22 4) (bf w 18 4) (bf w 12 6)) else .error .illegal
  | _ => .error .illegal

/-- Major 0x19, CSR (R55, R56). -/
def decodeCsr (w : Nat) : Except Reject Instr :=
  match fld w 12 2 with
  | 0 => if fld w 14 4 = 0 then .ok (.csrr (bf w 22 4) (bf w 18 4) (bf w 0 12)) else .error .illegal
  | 1 => if fld w 18 4 = 0 then .ok (.csrw (bf w 22 4) (bf w 14 4) (bf w 0 12)) else .error .illegal
  | 2 => .ok (.csrs (bf w 22 4) (bf w 18 4) (bf w 14 4) (bf w 0 12))
  | 3 => .ok (.csrc (bf w 22 4) (bf w 18 4) (bf w 14 4) (bf w 0 12))
  | _ => .error .illegal

/-- Major 0x1A, TJ (R55, R56). -/
def decodeTj (w : Nat) : Except Reject Instr :=
  match fld w 0 10 with
  | 0 => .ok (.tjins (bf w 22 4) (bf w 18 4) (bf w 14 4) (bf w 10 4))
  | 1 => .ok (.tjsmp (bf w 22 4) (bf w 18 4) (bf w 14 4) (bf w 10 4))
  | 2 => .ok (.tjpri (bf w 22 4) (bf w 18 4) (bf w 14 4) (bf w 10 4))
  | 3 => .ok (.tjevt (bf w 22 4) (bf w 18 4) (bf w 14 4) (bf w 10 4))
  | 4 => .ok (.tjver (bf w 22 4) (bf w 18 4) (bf w 14 4) (bf w 10 4))
  | 5 => .ok (.tjqry (bf w 22 4) (bf w 18 4) (bf w 14 4) (bf w 10 4))
  | 6 => .ok (.tjget (bf w 22 4) (bf w 18 4) (bf w 14 4) (bf w 10 4))
  | _ => .error .illegal

/-- Major 0x1B, AX (R55, R56). -/
def decodeAx (w : Nat) : Except Reject Instr :=
  match fld w 0 10 with
  | 0 => if fld w 14 1 = 0 then .ok (.axpush (bf w 22 4) (bf w 18 4) (bf w 15 3) (bf w 10 4)) else .error .illegal
  | 1 => if fld w 14 1 = 0 then .ok (.axpop (bf w 22 4) (bf w 18 4) (bf w 15 3) (bf w 10 4)) else .error .illegal
  | 2 => .ok (.axdepth (bf w 22 4) (bf w 18 4) (bf w 14 4) (bf w 10 4))
  | 3 => .ok (.axdrop (bf w 22 4) (bf w 18 4) (bf w 14 4) (bf w 10 4))
  | _ => .error .illegal

/-- Major 0x1C, MIG (R55, R56). -/
def decodeMig (w : Nat) : Except Reject Instr :=
  match fld w 0 10 with
  | 0 => if fld w 10 5 = 0 ∧ fld w 18 4 = 0 then .ok (.go (bf w 22 4) (bf w 15 3)) else .error .illegal
  | 1 => if fld w 10 12 = 0 then .ok (.gohome (bf w 22 4)) else .error .illegal
  | _ => .error .illegal

/-- Major 0x1D, PADDI (R55, R56). -/
def decodePaddi (w : Nat) : Except Reject Instr :=
  if fld w 17 1 = 0 ∧ fld w 21 1 = 0 then .ok (.paddi (bf w 22 4) (bf w 18 3) (bf w 14 3) (bf w 0 14)) else .error .illegal

/-- Major 0x1E, QUE (R55, R56). -/
def decodeQue (w : Nat) : Except Reject Instr :=
  match fld w 0 7 with
  | 0 => if fld w 11 7 = 0 then .ok (.qpush (bf w 22 4) (bf w 18 4) (bf w 7 4)) else .error .illegal
  | 1 => if fld w 11 7 = 0 then .ok (.qpop (bf w 22 4) (bf w 18 4) (bf w 7 4)) else .error .illegal
  | 2 => if fld w 14 4 = 0 then .ok (.qtry (bf w 22 4) (bf w 18 4) (bf w 11 3) (bf w 7 4)) else .error .illegal
  | 3 => if fld w 18 4 = 0 then .ok (.qpushv (bf w 22 4) (bf w 11 7) (bf w 7 4)) else .error .illegal
  | 4 => if fld w 18 4 = 0 then .ok (.qpopv (bf w 22 4) (bf w 11 7) (bf w 7 4)) else .error .illegal
  | _ => .error .illegal

/-- Major 0x20, VA1 (R55, R56). -/
def decodeVa1 (w : Nat) : Except Reject Instr :=
  match fld w 0 2 with
  | 0 => .ok (.vadd (bf w 19 7) (bf w 12 7) (bf w 5 7) (bf w 2 3))
  | 1 => .ok (.vsub (bf w 19 7) (bf w 12 7) (bf w 5 7) (bf w 2 3))
  | 2 => .ok (.vmin (bf w 19 7) (bf w 12 7) (bf w 5 7) (bf w 2 3))
  | 3 => .ok (.vmax (bf w 19 7) (bf w 12 7) (bf w 5 7) (bf w 2 3))
  | _ => .error .illegal

/-- Major 0x21, VA2 (R55, R56). -/
def decodeVa2 (w : Nat) : Except Reject Instr :=
  match fld w 0 2 with
  | 0 => .ok (.vmul (bf w 19 7) (bf w 12 7) (bf w 5 7) (bf w 2 3))
  | 1 => .ok (.vfma (bf w 19 7) (bf w 12 7) (bf w 5 7) (bf w 2 3))
  | 2 => .ok (.vfms (bf w 19 7) (bf w 12 7) (bf w 5 7) (bf w 2 3))
  | 3 => .ok (.vfnma (bf w 19 7) (bf w 12 7) (bf w 5 7) (bf w 2 3))
  | _ => .error .illegal

/-- Major 0x22, VA3 (R55, R56). -/
def decodeVa3 (w : Nat) : Except Reject Instr :=
  match fld w 0 2 with
  | 0 => .ok (.vadds (bf w 19 7) (bf w 12 7) (bf w 5 7) (bf w 2 3))
  | 1 => .ok (.vsubs (bf w 19 7) (bf w 12 7) (bf w 5 7) (bf w 2 3))
  | 2 => .ok (.vmulh (bf w 19 7) (bf w 12 7) (bf w 5 7) (bf w 2 3))
  | 3 => if fld w 5 7 = 0 then .ok (.vabs (bf w 19 7) (bf w 12 7) (bf w 2 3)) else .error .illegal
  | _ => .error .illegal

/-- Major 0x23, VLOG (R55, R56). -/
def decodeVlog (w : Nat) : Except Reject Instr :=
  match fld w 0 2 with
  | 0 => if fld w 2 3 = 0 then .ok (.vand (bf w 19 7) (bf w 12 7) (bf w 5 7)) else .error .illegal
  | 1 => if fld w 2 3 = 0 then .ok (.vor (bf w 19 7) (bf w 12 7) (bf w 5 7)) else .error .illegal
  | 2 => if fld w 2 3 = 0 then .ok (.vxor (bf w 19 7) (bf w 12 7) (bf w 5 7)) else .error .illegal
  | 3 => if fld w 2 3 = 0 then .ok (.vandn (bf w 19 7) (bf w 12 7) (bf w 5 7)) else .error .illegal
  | _ => .error .illegal

/-- Major 0x24, VSH (R55, R56). -/
def decodeVsh (w : Nat) : Except Reject Instr :=
  match fld w 0 2 with
  | 0 => .ok (.vshl (bf w 19 7) (bf w 12 7) (bf w 5 7) (bf w 2 3))
  | 1 => .ok (.vshr (bf w 19 7) (bf w 12 7) (bf w 5 7) (bf w 2 3))
  | 2 => .ok (.vsar (bf w 19 7) (bf w 12 7) (bf w 5 7) (bf w 2 3))
  | 3 => .ok (.vrol (bf w 19 7) (bf w 12 7) (bf w 5 7) (bf w 2 3))
  | _ => .error .illegal

/-- Major 0x25, VCMP (R55, R56). -/
def decodeVcmp (w : Nat) : Except Reject Instr :=
  match fld w 0 2 with
  | 0 => if fld w 22 4 = 0 then .ok (.vceq (bf w 19 3) (bf w 12 7) (bf w 5 7) (bf w 2 3)) else .error .illegal
  | 1 => if fld w 22 4 = 0 then .ok (.vcne (bf w 19 3) (bf w 12 7) (bf w 5 7) (bf w 2 3)) else .error .illegal
  | 2 => if fld w 22 4 = 0 then .ok (.vclt (bf w 19 3) (bf w 12 7) (bf w 5 7) (bf w 2 3)) else .error .illegal
  | 3 => if fld w 22 4 = 0 then .ok (.vcle (bf w 19 3) (bf w 12 7) (bf w 5 7) (bf w 2 3)) else .error .illegal
  | _ => .error .illegal

/-- Major 0x26, VCMP2 (R55, R56). -/
def decodeVcmp2 (w : Nat) : Except Reject Instr :=
  match fld w 0 2 with
  | 0 => if fld w 22 4 = 0 then .ok (.vcltu (bf w 19 3) (bf w 12 7) (bf w 5 7) (bf w 2 3)) else .error .illegal
  | 1 => if fld w 22 4 = 0 then .ok (.vcleu (bf w 19 3) (bf w 12 7) (bf w 5 7) (bf w 2 3)) else .error .illegal
  | 2 => if fld w 22 4 = 0 then .ok (.vcun (bf w 19 3) (bf w 12 7) (bf w 5 7) (bf w 2 3)) else .error .illegal
  | 3 => if fld w 5 7 = 0 ∧ fld w 22 4 = 0 then .ok (.vcnf (bf w 19 3) (bf w 12 7) (bf w 2 3)) else .error .illegal
  | _ => .error .illegal

/-- Major 0x27, VWID (R55, R56). -/
def decodeVwid (w : Nat) : Except Reject Instr :=
  match fld w 0 2 with
  | 0 => if fld w 19 1 = 0 then .ok (.vwadd (bf w 20 6) (bf w 12 7) (bf w 5 7) (bf w 2 3)) else .error .illegal
  | 1 => if fld w 19 1 = 0 then .ok (.vwmul (bf w 20 6) (bf w 12 7) (bf w 5 7) (bf w 2 3)) else .error .illegal
  | 2 => if fld w 19 1 = 0 then .ok (.vwmac (bf w 20 6) (bf w 12 7) (bf w 5 7) (bf w 2 3)) else .error .illegal
  | 3 => if fld w 19 1 = 0 then .ok (.vwsum (bf w 20 6) (bf w 12 7) (bf w 5 7) (bf w 2 3)) else .error .illegal
  | _ => .error .illegal

/-- Major 0x28, VRED (R55, R56). -/
def decodeVred (w : Nat) : Except Reject Instr :=
  match fld w 0 2 with
  | 0 => .ok (.vhadd (bf w 19 7) (bf w 12 7) (bf w 5 7) (bf w 2 3))
  | 1 => .ok (.vhmax (bf w 19 7) (bf w 12 7) (bf w 5 7) (bf w 2 3))
  | 2 => .ok (.vhmin (bf w 19 7) (bf w 12 7) (bf w 5 7) (bf w 2 3))
  | 3 => .ok (.vscan (bf w 19 7) (bf w 12 7) (bf w 5 7) (bf w 2 3))
  | _ => .error .illegal

/-- Major 0x29, VPRM (R55, R56). -/
def decodeVprm (w : Nat) : Except Reject Instr :=
  match fld w 0 2 with
  | 0 => .ok (.vzipl (bf w 19 7) (bf w 12 7) (bf w 5 7) (bf w 2 3))
  | 1 => .ok (.vziph (bf w 19 7) (bf w 12 7) (bf w 5 7) (bf w 2 3))
  | 2 => .ok (.vunzl (bf w 19 7) (bf w 12 7) (bf w 5 7) (bf w 2 3))
  | 3 => .ok (.vunzh (bf w 19 7) (bf w 12 7) (bf w 5 7) (bf w 2 3))
  | _ => .error .illegal

/-- Major 0x2A, VPRM2 (R55, R56). -/
def decodeVprm2 (w : Nat) : Except Reject Instr :=
  match fld w 0 2 with
  | 0 => .ok (.vshuf (bf w 19 7) (bf w 12 7) (bf w 5 7) (bf w 2 3))
  | 1 => .ok (.vsel (bf w 19 7) (bf w 12 7) (bf w 5 7) (bf w 2 3))
  | 2 => if fld w 5 7 = 0 then .ok (.vrev (bf w 19 7) (bf w 12 7) (bf w 2 3)) else .error .illegal
  | 3 => if fld w 5 7 = 0 then .ok (.vdupl (bf w 19 7) (bf w 12 7) (bf w 2 3)) else .error .illegal
  | _ => .error .illegal

/-- Major 0x2B, VCVT (R55, R56). -/
def decodeVcvt (w : Nat) : Except Reject Instr :=
  .ok (.vcvt (bf w 19 7) (bf w 12 7) (bf w 8 4) (bf w 4 4) (bf w 1 3) (bf w 0 1))

/-- Major 0x2C, VQ (R55, R56). -/
def decodeVq (w : Nat) : Except Reject Instr :=
  match fld w 0 5 with
  | 0 => if fld w 12 3 = 0 then .ok (.vqblk (bf w 19 7) (bf w 15 4) (bf w 8 4) (bf w 5 3)) else .error .illegal
  | 1 => if fld w 19 3 = 0 then .ok (.vmxdec (bf w 22 4) (bf w 12 7) (bf w 8 4) (bf w 5 3)) else .error .illegal
  | 2 => if fld w 19 2 = 0 then if fld w 5 3 = 0 then .ok (.vdec (bf w 21 5) (bf w 12 7) (bf w 8 4)) else .error .format else .error .illegal
  | 3 => if fld w 12 2 = 0 then if fld w 5 3 = 0 then .ok (.venc (bf w 19 7) (bf w 14 5) (bf w 8 4)) else .error .format else .error .illegal
  | _ => .error .illegal

/-- Major 0x2D, VSF1 (R55, R56). -/
def decodeVsf1 (w : Nat) : Except Reject Instr :=
  match fld w 0 2 with
  | 0 => if fld w 5 7 = 0 then if fld w 2 3 = 5 then .ok (.vrcp (bf w 19 7) (bf w 12 7)) else .error .format else .error .illegal
  | 1 => if fld w 5 7 = 0 then if fld w 2 3 = 5 then .ok (.vrsq (bf w 19 7) (bf w 12 7)) else .error .format else .error .illegal
  | 2 => if fld w 5 7 = 0 then if fld w 2 3 = 5 then .ok (.vexp2 (bf w 19 7) (bf w 12 7)) else .error .format else .error .illegal
  | 3 => if fld w 5 7 = 0 then if fld w 2 3 = 5 then .ok (.vlog2 (bf w 19 7) (bf w 12 7)) else .error .format else .error .illegal
  | _ => .error .illegal

/-- Major 0x2E, VSF2 (R55, R56). -/
def decodeVsf2 (w : Nat) : Except Reject Instr :=
  match fld w 0 2 with
  | 0 => if fld w 5 7 = 0 then if fld w 2 3 = 5 then .ok (.vsqrt (bf w 19 7) (bf w 12 7)) else .error .format else .error .illegal
  | 1 => if fld w 2 3 = 5 then .ok (.vdiv (bf w 19 7) (bf w 12 7) (bf w 5 7)) else .error .format
  | 2 => if fld w 5 7 = 0 then .ok (.vflr (bf w 19 7) (bf w 12 7) (bf w 2 3)) else .error .illegal
  | 3 => if fld w 5 7 = 0 then .ok (.vrnd (bf w 19 7) (bf w 12 7) (bf w 2 3)) else .error .illegal
  | _ => .error .illegal

/-- Major 0x2F, VRG (R55, R56). -/
def decodeVrg (w : Nat) : Except Reject Instr :=
  match fld w 0 5 with
  | 0 => if fld w 12 7 = 0 then if fld w 5 3 = 0 then .ok (.vrng (bf w 19 7) (bf w 8 4)) else .error .format else .error .illegal
  | 1 => if fld w 12 7 = 0 then .ok (.vrngf (bf w 19 7) (bf w 8 4) (bf w 5 3)) else .error .illegal
  | _ => .error .illegal

/-- Major 0x30, VMV (R55, R56). -/
def decodeVmv (w : Nat) : Except Reject Instr :=
  match fld w 0 5 with
  | 0 => if fld w 12 7 = 0 then .ok (.vmovs (bf w 19 7) (bf w 8 4) (bf w 5 3)) else .error .illegal
  | 1 => if fld w 16 3 = 0 then .ok (.vins (bf w 19 7) (bf w 12 4) (bf w 8 4) (bf w 5 3)) else .error .illegal
  | 2 => if fld w 23 3 = 0 then .ok (.vext (bf w 19 4) (bf w 12 7) (bf w 8 4) (bf w 5 3)) else .error .illegal
  | 3 => if fld w 5 3 = 0 ∧ fld w 12 7 = 0 ∧ fld w 22 4 = 0 then .ok (.kmovs (bf w 19 3) (bf w 8 4)) else .error .illegal
  | 4 => if fld w 5 3 = 0 ∧ fld w 15 11 = 0 then .ok (.kext (bf w 12 3) (bf w 8 4)) else .error .illegal
  | _ => .error .illegal

/-- Major 0x31, VIM1 (R55, R56). -/
def decodeVim1 (w : Nat) : Except Reject Instr :=
  match fld w 0 1 with
  | 0 => .ok (.vaddi (bf w 19 7) (bf w 12 7) (bf w 4 8) (bf w 1 3))
  | 1 => if fld w 12 7 = 0 then .ok (.vspli (bf w 19 7) (bf w 4 8) (bf w 1 3)) else .error .illegal
  | _ => .error .illegal

/-- Major 0x32, VIM2 (R55, R56). -/
def decodeVim2 (w : Nat) : Except Reject Instr :=
  match fld w 0 1 with
  | 0 => .ok (.vshli (bf w 19 7) (bf w 12 7) (bf w 4 8) (bf w 1 3))
  | 1 => .ok (.vshri (bf w 19 7) (bf w 12 7) (bf w 4 8) (bf w 1 3))
  | _ => .error .illegal

/-- Major 0x33, VIM3 (R55, R56). -/
def decodeVim3 (w : Nat) : Except Reject Instr :=
  match fld w 0 1 with
  | 0 => .ok (.vsari (bf w 19 7) (bf w 12 7) (bf w 4 8) (bf w 1 3))
  | 1 => if fld w 1 3 = 0 then .ok (.vextb (bf w 19 7) (bf w 12 7) (bf w 4 8)) else .error .illegal
  | _ => .error .illegal

/-- Major 0x34, VMSK (R55, R56). -/
def decodeVmsk (w : Nat) : Except Reject Instr :=
  match fld w 0 2 with
  | 0 => if fld w 2 3 = 0 ∧ fld w 8 4 = 0 ∧ fld w 15 4 = 0 ∧ fld w 22 4 = 0 then .ok (.kand (bf w 19 3) (bf w 12 3) (bf w 5 3)) else .error .illegal
  | 1 => if fld w 2 3 = 0 ∧ fld w 8 4 = 0 ∧ fld w 15 4 = 0 ∧ fld w 22 4 = 0 then .ok (.kor (bf w 19 3) (bf w 12 3) (bf w 5 3)) else .error .illegal
  | 2 => if fld w 2 3 = 0 ∧ fld w 8 4 = 0 ∧ fld w 15 4 = 0 ∧ fld w 22 4 = 0 then .ok (.kxor (bf w 19 3) (bf w 12 3) (bf w 5 3)) else .error .illegal
  | 3 => if fld w 2 10 = 0 ∧ fld w 15 4 = 0 ∧ fld w 22 4 = 0 then .ok (.knot (bf w 19 3) (bf w 12 3)) else .error .illegal
  | _ => .error .illegal

/-- Major 0x35, VDOT (R55, R56). -/
def decodeVdot (w : Nat) : Except Reject Instr :=
  match fld w 0 2 with
  | 0 => if fld w 2 3 = 0 then .ok (.vdot4 (bf w 19 7) (bf w 12 7) (bf w 5 7)) else .error .format
  | 1 => if fld w 2 3 = 0 then .ok (.vdot4u (bf w 19 7) (bf w 12 7) (bf w 5 7)) else .error .format
  | 2 => if fld w 2 3 = 4 then .ok (.vdot2b (bf w 19 7) (bf w 12 7) (bf w 5 7)) else .error .format
  | 3 => if fld w 2 3 = 3 then .ok (.vdot2h (bf w 19 7) (bf w 12 7) (bf w 5 7)) else .error .format
  | _ => .error .illegal

/-- Major 0x36, VMEM (R55, R56). -/
def decodeVmem (w w1 : Nat) : Except Reject Instr :=
  match fld w 0 4 with
  | 0 => if fld w 4 12 = 0 ∧ fld w1 29 3 = 0 then .ok (.ldv (bf w 19 7) (bf w 16 3) (bf w1 24 5) (bf w1 0 24)) else .error .illegal
  | 1 => if fld w 4 12 = 0 ∧ fld w 19 1 = 0 ∧ fld w1 29 3 = 0 then .ok (.ldvp (bf w 20 6) (bf w 16 3) (bf w1 24 5) (bf w1 0 24)) else .error .illegal
  | 2 => if fld w 6 10 = 0 ∧ fld w 19 1 = 0 ∧ fld w1 29 3 = 0 then .ok (.ldvc (bf w 20 6) (bf w 16 3) (bf w 4 2) (bf w1 24 5) (bf w1 0 24)) else .error .illegal
  | 3 => if fld w 4 12 = 0 ∧ fld w1 29 3 = 0 then .ok (.stv (bf w 19 7) (bf w 16 3) (bf w1 24 5) (bf w1 0 24)) else .error .illegal
  | 4 => if fld w 4 12 = 0 ∧ fld w 19 1 = 0 ∧ fld w1 29 3 = 0 then .ok (.stvp (bf w 20 6) (bf w 16 3) (bf w1 24 5) (bf w1 0 24)) else .error .illegal
  | 5 => if fld w 6 10 = 0 ∧ fld w 19 1 = 0 ∧ fld w1 29 3 = 0 then .ok (.stvc (bf w 20 6) (bf w 16 3) (bf w 4 2) (bf w1 24 5) (bf w1 0 24)) else .error .illegal
  | 6 => if fld w 4 2 = 0 ∧ fld w 13 3 = 0 ∧ fld w1 29 3 = 0 then .ok (.vaadd (bf w 19 7) (bf w 16 3) (bf w 12 1) (bf w 9 3) (bf w 6 3) (bf w1 24 5) (bf w1 0 24)) else .error .illegal
  | 7 => if fld w 4 2 = 0 ∧ fld w 9 7 = 0 ∧ fld w1 29 3 = 0 then .ok (.ldvb (bf w 19 7) (bf w 16 3) (bf w 6 3) (bf w1 24 5) (bf w1 0 24)) else .error .illegal
  | _ => .error .illegal

/-- The opcode map by major opcode (R55, R56); reserved majors are refused. -/
def decodeRaw (w w1 : Nat) : Except Reject Instr :=
  match fld w 26 6 with
  | 0 => decodeSys w
  | 1 => decodeAlu w
  | 2 => decodeAddi w
  | 3 => decodeAndi w
  | 4 => decodeOri w
  | 5 => decodeXori w
  | 6 => decodeShi w
  | 7 => decodeLih w
  | 8 => decodeCmp w
  | 9 => decodeCmpi w
  | 10 => decodePrd w
  | 11 => decodeBr w
  | 12 => decodeBrl w
  | 13 => decodeJr w
  | 14 => decodePair w
  | 15 => decodeRep w
  | 16 => decodeLd w w1
  | 17 => decodeSt w w1
  | 18 => decodeAtom w w1
  | 19 => decodeLdt w w1
  | 20 => decodeTkt w
  | 21 => decodeOrd w
  | 22 => decodeMsg w
  | 23 => decodeGrp w
  | 24 => decodeEnq w
  | 25 => decodeCsr w
  | 26 => decodeTj w
  | 27 => decodeAx w
  | 28 => decodeMig w
  | 29 => decodePaddi w
  | 30 => decodeQue w
  | 32 => decodeVa1 w
  | 33 => decodeVa2 w
  | 34 => decodeVa3 w
  | 35 => decodeVlog w
  | 36 => decodeVsh w
  | 37 => decodeVcmp w
  | 38 => decodeVcmp2 w
  | 39 => decodeVwid w
  | 40 => decodeVred w
  | 41 => decodeVprm w
  | 42 => decodeVprm2 w
  | 43 => decodeVcvt w
  | 44 => decodeVq w
  | 45 => decodeVsf1 w
  | 46 => decodeVsf2 w
  | 47 => decodeVrg w
  | 48 => decodeVmv w
  | 49 => decodeVim1 w
  | 50 => decodeVim2 w
  | 51 => decodeVim3 w
  | 52 => decodeVmsk w
  | 53 => decodeVdot w
  | 54 => decodeVmem w w1
  | _ => .error .illegal
/-- The CSR numbers of R64. -/
def csrAssigned (n : Nat) : Bool :=
  (n ≤ 0x008) || (0x010 ≤ n && n ≤ 0x015) || (0x020 ≤ n && n ≤ 0x024) || (0x030 ≤ n && n ≤ 0x033) ||
  (0x040 ≤ n && n ≤ 0x042) || (0x050 ≤ n && n ≤ 0x056) || n == 0x060 || n == 0x061 || n == 0x070 || n == 0x080

/-- The element width in bytes that a T code fixes (R214). -/
def tBytes (t : BitVec 3) : Nat :=
  match t.toNat with
  | 0 => 1 | 1 => 2 | 2 => 4 | 3 => 2 | 4 => 2 | 5 => 4 | 6 => 1 | _ => 1

/-- The element count n of a T code (R214). -/
def tCount (t : BitVec 3) : Nat := 16 / tBytes t

/-- b, h and w (R195). -/
def tInt (t : BitVec 3) : Bool := t.toNat ≤ 2
/-- The T codes that VWID accepts: those with a wide type (R214, R221). -/
def tWidens (t : BitVec 3) : Bool := t.toNat != 2 && t.toNat != 5
/-- The T codes of VFLR, VRND and VRNGF: hf, bf, f (R239, R248). -/
def tFloat16or32 (t : BitVec 3) : Bool := 3 ≤ t.toNat && t.toNat ≤ 5
/-- The block element codes of VQBLK and VMXDEC: b, e2, e4, e5 (R233). -/
def tBlock (t : BitVec 3) : Bool := t.toNat ≤ 1 || 6 ≤ t.toNat

/-- The (ST, DT) pairs that VCVT accepts (R229). -/
def cvtPair (st dt : BitVec 4) : Bool :=
  let flt (c : BitVec 4) : Bool := c == 6 || c == 7 || c == 8 || c == 13
  if st.toNat ≥ 14 || dt.toNat ≥ 14 then false
  else if st == 12 then flt dt
  else if dt == 12 then flt st
  else true

/-- Refuse with r unless the check holds. -/
def need (ok : Bool) (r : Reject) : Option Reject := if ok then none else some r

/-- The first refusal of the two. -/
def Reject.first (a b : Option Reject) : Option Reject := a.or b

/-- R60 orders 1 to 3 on the fields of a word that `decodeRaw` has read: ILLEGAL before SCOPE before FORMAT. DEDUCED, log entry 59. -/
def formCheck (i : Instr) : Option Reject :=
  let ill (b : Bool) := need b .illegal
  let fmt (b : Bool) := need b .format
  match i with
  | .cmp _ _ _ _ _ c => ill (c.toNat < 12)
  | .cmpi _ _ _ _ _ c => ill (c.toNat < 12)
  | .csrr _ _ c => ill (csrAssigned c.toNat)
  | .csrw _ _ c => ill (csrAssigned c.toNat)
  | .csrs _ _ _ c => ill (csrAssigned c.toNat)
  | .csrc _ _ _ c => ill (csrAssigned c.toNat)
  | .pollm _ d a _ => ill (a.toNat / 4 != d.toNat)
  | .barx _ _ _ _ r => ill (r.toNat < 5)
  | .aadd _ d _ _ sz _ _ => ill (sz == 0 || d.toNat % 2 == 0)
  | .amin _ d _ _ sz _ _ => ill (sz == 0 || d.toNat % 2 == 0)
  | .amax _ d _ _ sz _ _ => ill (sz == 0 || d.toNat % 2 == 0)
  | .aminu _ d _ _ sz _ _ => ill (sz == 0 || d.toNat % 2 == 0)
  | .amaxu _ d _ _ sz _ _ => ill (sz == 0 || d.toNat % 2 == 0)
  | .aand _ d _ _ sz _ _ => ill (sz == 0 || d.toNat % 2 == 0)
  | .aor _ d _ _ sz _ _ => ill (sz == 0 || d.toNat % 2 == 0)
  | .axor _ d _ _ sz _ _ => ill (sz == 0 || d.toNat % 2 == 0)
  | .aswp _ d _ _ sz _ _ => ill (sz == 0 || d.toNat % 2 == 0)
  | .acas _ d _ _ sz _ _ => ill (if sz == 0 then d.toNat % 2 == 0 else d.toNat % 4 == 0)
  | .ldtC _ _ _ cw _ _ => ill (cw.toNat < 3)
  | .ldvc _ _ cw _ _ => ill (cw.toNat < 3)
  | .stvc _ _ cw _ _ => ill (cw.toNat < 3)
  | .vaadd _ _ bs rm t _ _ =>
    Reject.first (ill (rm.toNat < 6 && (!tInt t || (rm == 0 && bs == 0)))) (fmt (t.toNat < 6))
  | .fence _ s => need (s != 7) .scope
  | .fencee _ s => need (s != 7) .scope
  | .acq _ s => need (s != 7) .scope
  | .rel _ s => need (s != 7) .scope
  | .lda _ _ _ sc _ _ => need (sc != 7) .scope
  | .str _ _ _ sc _ _ => need (sc != 7) .scope
  | .vadds _ _ _ t => fmt (tInt t)
  | .vsubs _ _ _ t => fmt (tInt t)
  | .vmulh _ _ _ t => fmt (tInt t)
  | .vshl _ _ _ t => fmt (tInt t)
  | .vshr _ _ _ t => fmt (tInt t)
  | .vsar _ _ _ t => fmt (tInt t)
  | .vrol _ _ _ t => fmt (tInt t)
  | .vcltu _ _ _ t => fmt (tInt t)
  | .vcleu _ _ _ t => fmt (tInt t)
  | .vcun _ _ _ t => fmt (!tInt t)
  | .vcnf _ _ t => fmt (!tInt t)
  | .vwadd _ _ _ t => fmt (tWidens t)
  | .vwmul _ _ _ t => fmt (tWidens t)
  | .vwmac _ _ _ t => fmt (tWidens t)
  | .vwsum _ _ _ t => fmt (tWidens t)
  | .vcvt _ _ st dt rm _ => Reject.first (ill (rm.toNat < 6)) (fmt (cvtPair st dt))
  | .vqblk d _ _ t => Reject.first (ill (t == 1 || !tBlock t || d.toNat % 2 == 0)) (fmt (tBlock t))
  | .vmxdec _ a _ t => Reject.first (ill (t == 1 || !tBlock t || a.toNat % 2 == 0)) (fmt (tBlock t))
  | .vflr _ _ t => fmt (tFloat16or32 t)
  | .vrnd _ _ t => fmt (tFloat16or32 t)
  | .vrngf _ _ t => fmt (tFloat16or32 t)
  | .vins _ i _ t => ill (i.toNat < tCount t)
  | .vext i _ _ t => ill (i.toNat < tCount t)
  | .vaddi _ _ _ t => fmt (tInt t)
  | .vspli _ _ t => fmt (t.toNat < 6)
  | .vshli _ _ i t => Reject.first (ill (i.toNat < 8 * tBytes t)) (fmt (tInt t))
  | .vshri _ _ i t => Reject.first (ill (i.toNat < 8 * tBytes t)) (fmt (tInt t))
  | .vsari _ _ i t => Reject.first (ill (i.toNat < 8 * tBytes t)) (fmt (tInt t))
  | .vextb _ _ i => ill (i.toNat ≤ 16)
  | _ => none

/-- The decoder on words: word 1 is read only by the two-word forms. -/
def decodeWords (w w1 : Nat) : Except Reject Instr :=
  match decodeRaw w w1 with
  | .error r => .error r
  | .ok i => match formCheck i with
    | none => .ok i
    | some r => .error r

/-- A word from its bytes, little-endian (R3, R45). -/
def wordOfBytes (b0 b1 b2 b3 : BitVec 8) : Nat :=
  b0.toNat + b1.toNat * 256 + b2.toNat * 65536 + b3.toNat * 16777216

/-- The decoder on any bytes: the instruction and its length in bytes, or the reason it is refused. -/
def decodeBytes (bs : List (BitVec 8)) : Except Reject (Instr × Nat) :=
  match bs with
  | b0 :: b1 :: b2 :: b3 :: rest =>
    let w := wordOfBytes b0 b1 b2 b3
    if twoWord w then
      match rest with
      | c0 :: c1 :: c2 :: c3 :: _ => (decodeWords w (wordOfBytes c0 c1 c2 c3)).map (·, 8)
      | _ => .error .truncated
    else (decodeWords w 0).map (·, 4)
  | _ => .error .truncated

/-- The bytes of a word as the hardware stores them (R3). -/
def bytesOfWord (w : Nat) : List (BitVec 8) :=
  [.ofNat 8 w, .ofNat 8 (w / 256), .ofNat 8 (w / 65536), .ofNat 8 (w / 16777216)]

/-- The instruction the decoder reads from an instruction whose bits are w, bit 0 the least significant bit of the
first word, every bit above nbits zero. -/
def decodeTableWord (nbits w : Nat) : Option Instr :=
  let v := w % 2 ^ nbits
  match decodeBytes (bytesOfWord (v % 2 ^ 32) ++ bytesOfWord (v / 2 ^ 32)) with
  | .ok (i, _) => some i
  | .error _ => none

/-- What the decode checks of R60 orders 4 and 5 refuse: PRIV, or REGRANGE with the register number that failed. -/
inductive ShapeReject where
  | priv
  | regRange (r : Nat)
deriving DecidableEq, Repr

/-- The vector register numbers a form names, in the order of the word's fields from the highest bit, a pair by both of its
registers and a longer group by its lowest and its highest (R50, R60, R119, R156, R157, R159, R221, R233). -/
def vregsNamed (i : Instr) : List Nat :=
  let p (x : BitVec 6) : List Nat := [2 * x.toNat, 2 * x.toNat + 1]
  match i with
  | .rdmv _ v _ => p v
  | .enqm _ _ v => p v | .enqmR _ _ v => p v | .enqc _ _ v => p v | .enqcR _ _ v => p v
  | .qpushv _ v _ => [v.toNat] | .qpopv _ v _ => [v.toNat]
  | .vadd d a b _ => [d.toNat, a.toNat, b.toNat] | .vsub d a b _ => [d.toNat, a.toNat, b.toNat]
  | .vmin d a b _ => [d.toNat, a.toNat, b.toNat] | .vmax d a b _ => [d.toNat, a.toNat, b.toNat]
  | .vmul d a b _ => [d.toNat, a.toNat, b.toNat] | .vfma d a b _ => [d.toNat, a.toNat, b.toNat]
  | .vfms d a b _ => [d.toNat, a.toNat, b.toNat] | .vfnma d a b _ => [d.toNat, a.toNat, b.toNat]
  | .vadds d a b _ => [d.toNat, a.toNat, b.toNat] | .vsubs d a b _ => [d.toNat, a.toNat, b.toNat]
  | .vmulh d a b _ => [d.toNat, a.toNat, b.toNat] | .vabs d a _ => [d.toNat, a.toNat]
  | .vand d a b => [d.toNat, a.toNat, b.toNat] | .vor d a b => [d.toNat, a.toNat, b.toNat]
  | .vxor d a b => [d.toNat, a.toNat, b.toNat] | .vandn d a b => [d.toNat, a.toNat, b.toNat]
  | .vshl d a b _ => [d.toNat, a.toNat, b.toNat] | .vshr d a b _ => [d.toNat, a.toNat, b.toNat]
  | .vsar d a b _ => [d.toNat, a.toNat, b.toNat] | .vrol d a b _ => [d.toNat, a.toNat, b.toNat]
  | .vceq _ a b _ => [a.toNat, b.toNat] | .vcne _ a b _ => [a.toNat, b.toNat]
  | .vclt _ a b _ => [a.toNat, b.toNat] | .vcle _ a b _ => [a.toNat, b.toNat]
  | .vcltu _ a b _ => [a.toNat, b.toNat] | .vcleu _ a b _ => [a.toNat, b.toNat]
  | .vcun _ a b _ => [a.toNat, b.toNat] | .vcnf _ a _ => [a.toNat]
  | .vwadd d a b _ => p d ++ [a.toNat, b.toNat] | .vwmul d a b _ => p d ++ [a.toNat, b.toNat]
  | .vwmac d a b _ => p d ++ [a.toNat, b.toNat] | .vwsum d a b _ => p d ++ [a.toNat, b.toNat]
  | .vhadd d a b _ => [d.toNat, a.toNat, b.toNat] | .vhmax d a b _ => [d.toNat, a.toNat, b.toNat]
  | .vhmin d a b _ => [d.toNat, a.toNat, b.toNat] | .vscan d a b _ => [d.toNat, a.toNat, b.toNat]
  | .vzipl d a b _ => [d.toNat, a.toNat, b.toNat] | .vziph d a b _ => [d.toNat, a.toNat, b.toNat]
  | .vunzl d a b _ => [d.toNat, a.toNat, b.toNat] | .vunzh d a b _ => [d.toNat, a.toNat, b.toNat]
  | .vshuf d a b _ => [d.toNat, a.toNat, b.toNat] | .vsel d a b _ => [d.toNat, a.toNat, b.toNat]
  | .vrev d a _ => [d.toNat, a.toNat] | .vdupl d a _ => [d.toNat, a.toNat]
  | .vcvt d a _ _ _ _ => [d.toNat, a.toNat]
  | .vqblk d a _ t => (if t == 1 then [d.toNat] else [d.toNat, d.toNat + 1]) ++ [8 * a.toNat, 8 * a.toNat + 7]
  | .vmxdec d a _ t => [8 * d.toNat, 8 * d.toNat + 7] ++ (if t == 1 then [a.toNat] else [a.toNat, a.toNat + 1])
  | .vdec d a _ => [4 * d.toNat, 4 * d.toNat + 3, a.toNat]
  | .venc d a _ => [d.toNat, 4 * a.toNat, 4 * a.toNat + 3]
  | .vrcp d a => [d.toNat, a.toNat] | .vrsq d a => [d.toNat, a.toNat] | .vexp2 d a => [d.toNat, a.toNat]
  | .vlog2 d a => [d.toNat, a.toNat] | .vsqrt d a => [d.toNat, a.toNat]
  | .vdiv d a b => [d.toNat, a.toNat, b.toNat]
  | .vflr d a _ => [d.toNat, a.toNat] | .vrnd d a _ => [d.toNat, a.toNat]
  | .vrng d _ => [d.toNat] | .vrngf d _ _ => [d.toNat]
  | .vmovs d _ _ => [d.toNat] | .vins d _ _ _ => [d.toNat] | .vext _ a _ _ => [a.toNat]
  | .vaddi d a _ _ => [d.toNat, a.toNat] | .vspli d _ _ => [d.toNat]
  | .vshli d a _ _ => [d.toNat, a.toNat] | .vshri d a _ _ => [d.toNat, a.toNat]
  | .vsari d a _ _ => [d.toNat, a.toNat] | .vextb d a _ => [d.toNat, a.toNat]
  | .vdot4 d a b => [d.toNat, a.toNat, b.toNat] | .vdot4u d a b => [d.toNat, a.toNat, b.toNat]
  | .vdot2b d a b => [d.toNat, a.toNat, b.toNat] | .vdot2h d a b => [d.toNat, a.toNat, b.toNat]
  | .ldv d _ _ _ => [d.toNat] | .ldvp d _ _ _ => p d | .ldvc d _ _ _ _ => p d
  | .stv d _ _ _ => [d.toNat] | .stvp d _ _ _ => p d | .stvc d _ _ _ _ => p d
  | .vaadd d _ bs rm _ _ _ => if bs == 0 && rm == 5 then [d.toNat, d.toNat + 1] else [d.toNat]
  | .ldvb d _ _ _ _ => [d.toNat]
  | _ => []

/-- Whether a form writes a P-only CSR (R4, R64: L1CFG) or is LNCH without the permission (R60 order 4). -/
def privileged (lperm : Bool) (i : Instr) : Bool :=
  match i with
  | .lnch _ _ _ _ => !lperm
  | .csrw _ _ c => c == 0x080
  | .csrs _ _ _ c => c == 0x080
  | .csrc _ _ _ c => c == 0x080
  | _ => false

/-- R60 orders 4 and 5, for a thread with nv vector registers, at P level when prv, with launch permission lperm. Where
several register numbers fail, REGRANGE reports the first of them in the order of `vregsNamed`: R339 says only "the register
number that failed". DESIGN CHOICE, log entry 95. -/
def shapeCheck (nv : Nat) (prv lperm : Bool) (i : Instr) : Option ShapeReject :=
  if !prv && privileged lperm i then some .priv
  else ((vregsNamed i).find? (fun r => nv ≤ r)).map .regRange

/-- The position of a field that a repeat prefix steps: lowest bit and width. -/
abbrev StepField := Nat × Nat

/-- The fields that ID, IA and IB step (R58); an absent field admits no increment. -/
structure StepPlan where
  d : Option StepField := none
  a : Option StepField := none
  b : Option StepField := none
deriving DecidableEq, Repr

/-- The stepped fields of the formats R and I with a scalar D, A and B, each present or not. -/
def planScalar (d a b : Bool) : StepPlan where
  d := if d then some (18, 4) else none
  a := if a then some (14, 4) else none
  b := if b then some (10, 4) else none

/-- Those of the formats V, VC, VI and VM, and those of VS, whose third field is S. -/
def planVector (d a b : Bool) : StepPlan where
  d := if d then some (19, 7) else none
  a := if a then some (12, 7) else none
  b := if b then some (5, 7) else none
def planVs (d a : Bool) : StepPlan := { planVector d a false with b := some (8, 4) }

/-- Those of the formats E and Q, with D and VS. -/
def planQueue (d v : Bool) : StepPlan where
  d := if d then some (18, 4) else none
  a := if v then some (11, 7) else none

/-- The fields of a repeat target that are stepped, by the format of its major and the function code of its entry (R47,
R50, R55–R58). They depend on word 0 alone, and on none of its other fields, so that a word which fails a check of R60
unstepped has them too. A word whose function code is unassigned has no entry that leaves a field unused: it has the
fields of its format; a reserved major has no format, so it has none. DEDUCED, log entry 97. Pair fields under R48 are three
bits wide. -/
def stepPlan (w : Nat) : StepPlan :=
  match fld w 26 6 with
  | 0x01 => planScalar true true (!(21 ≤ fld w 0 5 && fld w 0 5 ≤ 29))
  | 0x02 | 0x03 | 0x04 | 0x05 | 0x06 => planScalar true true false
  | 0x07 | 0x10 | 0x11 | 0x12 | 0x13 => planScalar true false false
  | 0x0E => { d := some (18, 3), a := some (14, 3), b := if fld w 0 4 = 4 then none else some (10, 3) }
  | 0x14 =>
    match fld w 0 8 with
    | 1 | 2 => { a := some (11, 4) }
    | 4 => {}
    | _ => { d := some (15, 7), a := some (11, 4) }
  | 0x16 =>
    match fld w 0 4 with
    | 0 | 3 => planScalar false true true
    | 1 => planScalar true false true
    | 4 => planScalar false false true
    | _ => planScalar true true true
  | 0x17 =>
    match fld w 0 4 with
    | 0 => planScalar false false true
    | 2 => planScalar true false true
    | 3 => planScalar false true true
    | _ => planScalar true true true
  | 0x18 => planQueue (fld w 0 3 != 3) true
  | 0x19 => planScalar (fld w 12 2 != 1) (fld w 12 2 != 0) false
  | 0x1A | 0x1B => planScalar true true true
  | 0x1D => { d := some (18, 3), a := some (14, 3) }
  | 0x1E =>
    match fld w 0 7 with
    | 0 | 1 => planQueue true false
    | 3 | 4 => planQueue false true
    | _ => planQueue true true
  | 0x20 | 0x21 | 0x23 | 0x24 | 0x25 | 0x27 | 0x28 | 0x29 | 0x35 => planVector true true true
  | 0x22 | 0x26 | 0x34 => planVector true true (fld w 0 2 != 3)
  | 0x2A => planVector true true (fld w 0 2 ≤ 1)
  | 0x2B | 0x2D | 0x32 | 0x33 => planVector true true false
  | 0x2C => planVs true true
  | 0x2E => planVector true true (fld w 0 2 == 1)
  | 0x2F => planVs true false
  | 0x30 =>
    match fld w 0 5 with
    | 0 | 3 => planVs true false
    | 4 => planVs false true
    | _ => planVs true true
  | 0x31 => planVector true (fld w 0 1 == 0) false
  | 0x36 => planVector true false false
  | _ => {}

/-- The majors whose format cannot be repeated: B, C, CI, P, O, N, and SYS, JR and MIG (R58). -/
def neverRepeated (w : Nat) : Bool :=
  let mo := fld w 26 6
  mo == 0x00 || mo == 0x08 || mo == 0x09 || mo == 0x0A || mo == 0x0B || mo == 0x0C || mo == 0x0D || mo == 0x0F ||
  mo == 0x15 || mo == 0x1C

/-- The checks of a prefix word against its target's first word (R58), true when the repeat may issue. -/
def repeatAllowed (prefixWord w : Nat) : Bool :=
  match decodeRaw prefixWord 0 with
  | .ok (.rep _ id ia ib) =>
    !neverRepeated w && ((stepPlan w).d.isSome || id == 0) && ((stepPlan w).a.isSome || ia == 0)
      && ((stepPlan w).b.isSome || ib == 0)
  | _ => false

/-- One field of word w advanced by k modulo the field's width. -/
def stepField (w : Nat) (f : Option StepField) (k : Nat) : Nat :=
  match f with
  | none => w
  | some (lo, n) => w - fld w lo n * 2 ^ lo + (fld w lo n + k) % 2 ^ n * 2 ^ lo

/-- Word 0 of issue i of a repeated target (R58). -/
def stepWord (w : Nat) (i id ia ib : Nat) : Nat :=
  stepField (stepField (stepField w (stepPlan w).d (i * id)) (stepPlan w).a (i * ia)) (stepPlan w).b (i * ib)

/-- The words of an encoded form, first word first; an event or a command kind has no encoding. -/
def encode (i : Instr) : List Nat :=
  match i with
  | .nop g => [0 + g.toNat * 4194304]
  | .halt g => [256 + g.toNat * 4194304]
  | .idle g => [512 + g.toNat * 4194304]
  | .trap g i => [768 + g.toNat * 4194304 + i.toNat * 1]
  | .eret g => [1024 + g.toNat * 4194304]
  | .bkpt g i => [1280 + g.toNat * 4194304 + i.toNat * 1]
  | .rdcyc g d w => [1536 + g.toNat * 4194304 + d.toNat * 262144 + w.toNat * 1]
  | .rdtime g d w => [1792 + g.toNat * 4194304 + d.toNat * 262144 + w.toNat * 1]
  | .rdsig g d w => [2048 + g.toNat * 4194304 + d.toNat * 262144 + w.toNat * 1]
  | .lnch g d a r => [2304 + g.toNat * 4194304 + d.toNat * 262144 + a.toNat * 16384 + r.toNat * 1]
  | .l1inv g => [2560 + g.toNat * 4194304]
  | .add g d a b => [67108864 + g.toNat * 4194304 + d.toNat * 262144 + a.toNat * 16384 + b.toNat * 1024]
  | .sub g d a b => [67108865 + g.toNat * 4194304 + d.toNat * 262144 + a.toNat * 16384 + b.toNat * 1024]
  | .and g d a b => [67108866 + g.toNat * 4194304 + d.toNat * 262144 + a.toNat * 16384 + b.toNat * 1024]
  | .or g d a b => [67108867 + g.toNat * 4194304 + d.toNat * 262144 + a.toNat * 16384 + b.toNat * 1024]
  | .xor g d a b => [67108868 + g.toNat * 4194304 + d.toNat * 262144 + a.toNat * 16384 + b.toNat * 1024]
  | .andn g d a b => [67108869 + g.toNat * 4194304 + d.toNat * 262144 + a.toNat * 16384 + b.toNat * 1024]
  | .shl g d a b => [67108870 + g.toNat * 4194304 + d.toNat * 262144 + a.toNat * 16384 + b.toNat * 1024]
  | .shr g d a b => [67108871 + g.toNat * 4194304 + d.toNat * 262144 + a.toNat * 16384 + b.toNat * 1024]
  | .sar g d a b => [67108872 + g.toNat * 4194304 + d.toNat * 262144 + a.toNat * 16384 + b.toNat * 1024]
  | .rol g d a b => [67108873 + g.toNat * 4194304 + d.toNat * 262144 + a.toNat * 16384 + b.toNat * 1024]
  | .mul g d a b => [67108874 + g.toNat * 4194304 + d.toNat * 262144 + a.toNat * 16384 + b.toNat * 1024]
  | .mulh g d a b => [67108875 + g.toNat * 4194304 + d.toNat * 262144 + a.toNat * 16384 + b.toNat * 1024]
  | .mulhu g d a b => [67108876 + g.toNat * 4194304 + d.toNat * 262144 + a.toNat * 16384 + b.toNat * 1024]
  | .div g d a b => [67108877 + g.toNat * 4194304 + d.toNat * 262144 + a.toNat * 16384 + b.toNat * 1024]
  | .divu g d a b => [67108878 + g.toNat * 4194304 + d.toNat * 262144 + a.toNat * 16384 + b.toNat * 1024]
  | .rem g d a b => [67108879 + g.toNat * 4194304 + d.toNat * 262144 + a.toNat * 16384 + b.toNat * 1024]
  | .remu g d a b => [67108880 + g.toNat * 4194304 + d.toNat * 262144 + a.toNat * 16384 + b.toNat * 1024]
  | .min g d a b => [67108881 + g.toNat * 4194304 + d.toNat * 262144 + a.toNat * 16384 + b.toNat * 1024]
  | .max g d a b => [67108882 + g.toNat * 4194304 + d.toNat * 262144 + a.toNat * 16384 + b.toNat * 1024]
  | .minu g d a b => [67108883 + g.toNat * 4194304 + d.toNat * 262144 + a.toNat * 16384 + b.toNat * 1024]
  | .maxu g d a b => [67108884 + g.toNat * 4194304 + d.toNat * 262144 + a.toNat * 16384 + b.toNat * 1024]
  | .clz g d a => [67108885 + g.toNat * 4194304 + d.toNat * 262144 + a.toNat * 16384]
  | .ctz g d a => [67108886 + g.toNat * 4194304 + d.toNat * 262144 + a.toNat * 16384]
  | .popc g d a => [67108887 + g.toNat * 4194304 + d.toNat * 262144 + a.toNat * 16384]
  | .brev g d a => [67108888 + g.toNat * 4194304 + d.toNat * 262144 + a.toNat * 16384]
  | .sextb g d a => [67108889 + g.toNat * 4194304 + d.toNat * 262144 + a.toNat * 16384]
  | .sexth g d a => [67108890 + g.toNat * 4194304 + d.toNat * 262144 + a.toNat * 16384]
  | .zextb g d a => [67108891 + g.toNat * 4194304 + d.toNat * 262144 + a.toNat * 16384]
  | .zexth g d a => [67108892 + g.toNat * 4194304 + d.toNat * 262144 + a.toNat * 16384]
  | .mov g d a => [67108893 + g.toNat * 4194304 + d.toNat * 262144 + a.toNat * 16384]
  | .slt g d a b => [67108894 + g.toNat * 4194304 + d.toNat * 262144 + a.toNat * 16384 + b.toNat * 1024]
  | .sltu g d a b => [67108895 + g.toNat * 4194304 + d.toNat * 262144 + a.toNat * 16384 + b.toNat * 1024]
  | .addi g d a i => [134217728 + g.toNat * 4194304 + d.toNat * 262144 + a.toNat * 16384 + i.toNat * 1]
  | .andi g d a i => [201326592 + g.toNat * 4194304 + d.toNat * 262144 + a.toNat * 16384 + i.toNat * 1]
  | .ori g d a i => [268435456 + g.toNat * 4194304 + d.toNat * 262144 + a.toNat * 16384 + i.toNat * 1]
  | .xori g d a i => [335544320 + g.toNat * 4194304 + d.toNat * 262144 + a.toNat * 16384 + i.toNat * 1]
  | .shli g d a s => [402653184 + g.toNat * 4194304 + d.toNat * 262144 + a.toNat * 16384 + s.toNat * 1]
  | .shri g d a s => [402653216 + g.toNat * 4194304 + d.toNat * 262144 + a.toNat * 16384 + s.toNat * 1]
  | .sari g d a s => [402653248 + g.toNat * 4194304 + d.toNat * 262144 + a.toNat * 16384 + s.toNat * 1]
  | .roli g d a s => [402653280 + g.toNat * 4194304 + d.toNat * 262144 + a.toNat * 16384 + s.toNat * 1]
  | .lih g d i => [469762048 + g.toNat * 4194304 + d.toNat * 262144 + i.toNat * 1]
  | .cmp g p z a b c => [536870912 + g.toNat * 4194304 + p.toNat * 524288 + z.toNat * 262144 + a.toNat * 16384 + b.toNat * 1024 + c.toNat * 64]
  | .cmpi g p z a i c => [603979776 + g.toNat * 4194304 + p.toNat * 524288 + z.toNat * 262144 + a.toNat * 16384 + i.toNat * 16 + c.toNat * 1]
  | .pand g p a b => [671088640 + g.toNat * 4194304 + p.toNat * 524288 + a.toNat * 65536 + b.toNat * 8192]
  | .por g p a b => [671088641 + g.toNat * 4194304 + p.toNat * 524288 + a.toNat * 65536 + b.toNat * 8192]
  | .pxor g p a b => [671088642 + g.toNat * 4194304 + p.toNat * 524288 + a.toNat * 65536 + b.toNat * 8192]
  | .pandn g p a b => [671088643 + g.toNat * 4194304 + p.toNat * 524288 + a.toNat * 65536 + b.toNat * 8192]
  | .prdw g d => [671088644 + g.toNat * 4194304 + d.toNat * 512]
  | .pwrw g d => [671088645 + g.toNat * 4194304 + d.toNat * 512]
  | .br g o => [738197504 + g.toNat * 4194304 + o.toNat * 1]
  | .brl g o => [805306368 + g.toNat * 4194304 + o.toNat * 1]
  | .jr g a => [872415232 + g.toNat * 4194304 + a.toNat * 16384]
  | .jrl g a => [872415233 + g.toNat * 4194304 + a.toNat * 16384]
  | .padd g d a b => [939524096 + g.toNat * 4194304 + d.toNat * 262144 + a.toNat * 16384 + b.toNat * 1024]
  | .padds g d a b s => [939524097 + g.toNat * 4194304 + d.toNat * 262144 + a.toNat * 16384 + b.toNat * 1024 + s.toNat * 16]
  | .paddu g d a b s => [939524098 + g.toNat * 4194304 + d.toNat * 262144 + a.toNat * 16384 + b.toNat * 1024 + s.toNat * 16]
  | .psub g d a b => [939524099 + g.toNat * 4194304 + d.toNat * 262144 + a.toNat * 16384 + b.toNat * 1024]
  | .pmov g d a => [939524100 + g.toNat * 4194304 + d.toNat * 262144 + a.toNat * 16384]
  | .rep c i j k => [1006632960 + c.toNat * 1048576 + i.toNat * 131072 + j.toNat * 16384 + k.toNat * 2048]
  | .ldb g d bp h off => [1073741824 + g.toNat * 4194304 + d.toNat * 262144 + bp.toNat * 32768, h.toNat * 16777216 + off.toNat]
  | .ldbu g d bp h off => [1073741825 + g.toNat * 4194304 + d.toNat * 262144 + bp.toNat * 32768, h.toNat * 16777216 + off.toNat]
  | .ldh g d bp h off => [1073741826 + g.toNat * 4194304 + d.toNat * 262144 + bp.toNat * 32768, h.toNat * 16777216 + off.toNat]
  | .ldhu g d bp h off => [1073741827 + g.toNat * 4194304 + d.toNat * 262144 + bp.toNat * 32768, h.toNat * 16777216 + off.toNat]
  | .ldw g d bp h off => [1073741828 + g.toNat * 4194304 + d.toNat * 262144 + bp.toNat * 32768, h.toNat * 16777216 + off.toNat]
  | .ldd g d bp h off => [1073741829 + g.toNat * 4194304 + d.toNat * 524288 + bp.toNat * 32768, h.toNat * 16777216 + off.toNat]
  | .lda g d bp sc h off => [1073741830 + g.toNat * 4194304 + d.toNat * 262144 + bp.toNat * 32768, sc.toNat * 536870912 + h.toNat * 16777216 + off.toNat]
  | .stb g d bp h off => [1140850688 + g.toNat * 4194304 + d.toNat * 262144 + bp.toNat * 32768, h.toNat * 16777216 + off.toNat]
  | .sth g d bp h off => [1140850689 + g.toNat * 4194304 + d.toNat * 262144 + bp.toNat * 32768, h.toNat * 16777216 + off.toNat]
  | .stw g d bp h off => [1140850690 + g.toNat * 4194304 + d.toNat * 262144 + bp.toNat * 32768, h.toNat * 16777216 + off.toNat]
  | .std g d bp h off => [1140850691 + g.toNat * 4194304 + d.toNat * 524288 + bp.toNat * 32768, h.toNat * 16777216 + off.toNat]
  | .str g d bp sc h off => [1140850692 + g.toNat * 4194304 + d.toNat * 262144 + bp.toNat * 32768, sc.toNat * 536870912 + h.toNat * 16777216 + off.toNat]
  | .aadd g d bp nr sz h off => [1207959552 + g.toNat * 4194304 + d.toNat * 262144 + bp.toNat * 32768 + nr.toNat * 16384 + sz.toNat * 16, h.toNat * 16777216 + off.toNat]
  | .amin g d bp nr sz h off => [1207959553 + g.toNat * 4194304 + d.toNat * 262144 + bp.toNat * 32768 + nr.toNat * 16384 + sz.toNat * 16, h.toNat * 16777216 + off.toNat]
  | .amax g d bp nr sz h off => [1207959554 + g.toNat * 4194304 + d.toNat * 262144 + bp.toNat * 32768 + nr.toNat * 16384 + sz.toNat * 16, h.toNat * 16777216 + off.toNat]
  | .aminu g d bp nr sz h off => [1207959555 + g.toNat * 4194304 + d.toNat * 262144 + bp.toNat * 32768 + nr.toNat * 16384 + sz.toNat * 16, h.toNat * 16777216 + off.toNat]
  | .amaxu g d bp nr sz h off => [1207959556 + g.toNat * 4194304 + d.toNat * 262144 + bp.toNat * 32768 + nr.toNat * 16384 + sz.toNat * 16, h.toNat * 16777216 + off.toNat]
  | .aand g d bp nr sz h off => [1207959557 + g.toNat * 4194304 + d.toNat * 262144 + bp.toNat * 32768 + nr.toNat * 16384 + sz.toNat * 16, h.toNat * 16777216 + off.toNat]
  | .aor g d bp nr sz h off => [1207959558 + g.toNat * 4194304 + d.toNat * 262144 + bp.toNat * 32768 + nr.toNat * 16384 + sz.toNat * 16, h.toNat * 16777216 + off.toNat]
  | .axor g d bp nr sz h off => [1207959559 + g.toNat * 4194304 + d.toNat * 262144 + bp.toNat * 32768 + nr.toNat * 16384 + sz.toNat * 16, h.toNat * 16777216 + off.toNat]
  | .aswp g d bp nr sz h off => [1207959560 + g.toNat * 4194304 + d.toNat * 262144 + bp.toNat * 32768 + nr.toNat * 16384 + sz.toNat * 16, h.toNat * 16777216 + off.toNat]
  | .acas g d bp nr sz h off => [1207959561 + g.toNat * 4194304 + d.toNat * 262144 + bp.toNat * 32768 + nr.toNat * 16384 + sz.toNat * 16, h.toNat * 16777216 + off.toNat]
  | .aaddf g d bp nr h off => [1207959562 + g.toNat * 4194304 + d.toNat * 262144 + bp.toNat * 32768 + nr.toNat * 16384, h.toNat * 16777216 + off.toNat]
  | .ldtL g d bp h off => [1275068416 + g.toNat * 4194304 + d.toNat * 262144 + bp.toNat * 32768, h.toNat * 16777216 + off.toNat]
  | .ldtQ g d bp h off => [1275068417 + g.toNat * 4194304 + d.toNat * 262144 + bp.toNat * 32768, h.toNat * 16777216 + off.toNat]
  | .ldtS g d bp h off => [1275068418 + g.toNat * 4194304 + d.toNat * 262144 + bp.toNat * 32768, h.toNat * 16777216 + off.toNat]
  | .ldtC g d bp cw h off => [1275068419 + g.toNat * 4194304 + d.toNat * 262144 + bp.toNat * 32768 + cw.toNat * 16, h.toNat * 16777216 + off.toNat]
  | .rdmv g v a => [1342177280 + g.toNat * 4194304 + v.toNat * 65536 + a.toNat * 2048]
  | .rdms g a b => [1342177281 + g.toNat * 4194304 + a.toNat * 2048 + b.toNat * 256]
  | .tkdrop g a => [1342177282 + g.toNat * 4194304 + a.toNat * 2048]
  | .tktst g p a => [1342177283 + g.toNat * 4194304 + p.toNat * 32768 + a.toNat * 2048]
  | .rdmw g => [1342177284 + g.toNat * 4194304]
  | .fence g s => [1409286144 + g.toNat * 4194304 + s.toNat * 524288]
  | .fencee g s => [1409302528 + g.toNat * 4194304 + s.toNat * 524288]
  | .acq g s => [1409318912 + g.toNat * 4194304 + s.toNat * 524288]
  | .rel g s => [1409335296 + g.toNat * 4194304 + s.toNat * 524288]
  | .send g a b => [1476395008 + g.toNat * 4194304 + a.toNat * 16384 + b.toNat * 4096]
  | .waitm g d c => [1476395009 + g.toNat * 4194304 + d.toNat * 1048576 + c.toNat * 1024]
  | .pollm g d a c => [1476395010 + g.toNat * 4194304 + d.toNat * 1048576 + a.toNat * 16384 + c.toNat * 1024]
  | .mbind g a c => [1476395011 + g.toNat * 4194304 + a.toNat * 16384 + c.toNat * 1024]
  | .munbind g c => [1476395012 + g.toNat * 4194304 + c.toNat * 1024]
  | .bar g m => [1543503872 + g.toNat * 4194304 + m.toNat * 1024]
  | .barx g d a m r => [1543503873 + g.toNat * 4194304 + d.toNat * 262144 + a.toNat * 16384 + m.toNat * 1024 + r.toNat * 16]
  | .garv g d m => [1543503874 + g.toNat * 4194304 + d.toNat * 262144 + m.toNat * 1024]
  | .gwt g a m => [1543503875 + g.toNat * 4194304 + a.toNat * 16384 + m.toNat * 1024]
  | .enqm g d v => [1610612736 + g.toNat * 4194304 + d.toNat * 262144 + v.toNat * 4096]
  | .enqmR g d v => [1610612744 + g.toNat * 4194304 + d.toNat * 262144 + v.toNat * 4096]
  | .enqc g d v => [1610612737 + g.toNat * 4194304 + d.toNat * 262144 + v.toNat * 4096]
  | .enqcR g d v => [1610612745 + g.toNat * 4194304 + d.toNat * 262144 + v.toNat * 4096]
  | .mwait g d s => [1610612738 + g.toNat * 4194304 + d.toNat * 262144 + s.toNat * 2048]
  | .cwait g s => [1610612739 + g.toNat * 4194304 + s.toNat * 2048]
  | .cstat g d s => [1610612740 + g.toNat * 4194304 + d.toNat * 262144 + s.toNat * 2048]
  | .csrr g d c => [1677721600 + g.toNat * 4194304 + d.toNat * 262144 + c.toNat * 1]
  | .csrw g a c => [1677725696 + g.toNat * 4194304 + a.toNat * 16384 + c.toNat * 1]
  | .csrs g d a c => [1677729792 + g.toNat * 4194304 + d.toNat * 262144 + a.toNat * 16384 + c.toNat * 1]
  | .csrc g d a c => [1677733888 + g.toNat * 4194304 + d.toNat * 262144 + a.toNat * 16384 + c.toNat * 1]
  | .tjins g d a b => [1744830464 + g.toNat * 4194304 + d.toNat * 262144 + a.toNat * 16384 + b.toNat * 1024]
  | .tjsmp g d a b => [1744830465 + g.toNat * 4194304 + d.toNat * 262144 + a.toNat * 16384 + b.toNat * 1024]
  | .tjpri g d a b => [1744830466 + g.toNat * 4194304 + d.toNat * 262144 + a.toNat * 16384 + b.toNat * 1024]
  | .tjevt g d a b => [1744830467 + g.toNat * 4194304 + d.toNat * 262144 + a.toNat * 16384 + b.toNat * 1024]
  | .tjver g d a b => [1744830468 + g.toNat * 4194304 + d.toNat * 262144 + a.toNat * 16384 + b.toNat * 1024]
  | .tjqry g d a b => [1744830469 + g.toNat * 4194304 + d.toNat * 262144 + a.toNat * 16384 + b.toNat * 1024]
  | .tjget g d a b => [1744830470 + g.toNat * 4194304 + d.toNat * 262144 + a.toNat * 16384 + b.toNat * 1024]
  | .axpush g d a b => [1811939328 + g.toNat * 4194304 + d.toNat * 262144 + a.toNat * 32768 + b.toNat * 1024]
  | .axpop g d a b => [1811939329 + g.toNat * 4194304 + d.toNat * 262144 + a.toNat * 32768 + b.toNat * 1024]
  | .axdepth g d a b => [1811939330 + g.toNat * 4194304 + d.toNat * 262144 + a.toNat * 16384 + b.toNat * 1024]
  | .axdrop g d a b => [1811939331 + g.toNat * 4194304 + d.toNat * 262144 + a.toNat * 16384 + b.toNat * 1024]
  | .go g a => [1879048192 + g.toNat * 4194304 + a.toNat * 32768]
  | .gohome g => [1879048193 + g.toNat * 4194304]
  | .paddi g d a i => [1946157056 + g.toNat * 4194304 + d.toNat * 262144 + a.toNat * 16384 + i.toNat * 1]
  | .qpush g d q => [2013265920 + g.toNat * 4194304 + d.toNat * 262144 + q.toNat * 128]
  | .qpop g d q => [2013265921 + g.toNat * 4194304 + d.toNat * 262144 + q.toNat * 128]
  | .qtry g d p q => [2013265922 + g.toNat * 4194304 + d.toNat * 262144 + p.toNat * 2048 + q.toNat * 128]
  | .qpushv g v q => [2013265923 + g.toNat * 4194304 + v.toNat * 2048 + q.toNat * 128]
  | .qpopv g v q => [2013265924 + g.toNat * 4194304 + v.toNat * 2048 + q.toNat * 128]
  | .vadd d a b t => [2147483648 + d.toNat * 524288 + a.toNat * 4096 + b.toNat * 32 + t.toNat * 4]
  | .vsub d a b t => [2147483649 + d.toNat * 524288 + a.toNat * 4096 + b.toNat * 32 + t.toNat * 4]
  | .vmin d a b t => [2147483650 + d.toNat * 524288 + a.toNat * 4096 + b.toNat * 32 + t.toNat * 4]
  | .vmax d a b t => [2147483651 + d.toNat * 524288 + a.toNat * 4096 + b.toNat * 32 + t.toNat * 4]
  | .vmul d a b t => [2214592512 + d.toNat * 524288 + a.toNat * 4096 + b.toNat * 32 + t.toNat * 4]
  | .vfma d a b t => [2214592513 + d.toNat * 524288 + a.toNat * 4096 + b.toNat * 32 + t.toNat * 4]
  | .vfms d a b t => [2214592514 + d.toNat * 524288 + a.toNat * 4096 + b.toNat * 32 + t.toNat * 4]
  | .vfnma d a b t => [2214592515 + d.toNat * 524288 + a.toNat * 4096 + b.toNat * 32 + t.toNat * 4]
  | .vadds d a b t => [2281701376 + d.toNat * 524288 + a.toNat * 4096 + b.toNat * 32 + t.toNat * 4]
  | .vsubs d a b t => [2281701377 + d.toNat * 524288 + a.toNat * 4096 + b.toNat * 32 + t.toNat * 4]
  | .vmulh d a b t => [2281701378 + d.toNat * 524288 + a.toNat * 4096 + b.toNat * 32 + t.toNat * 4]
  | .vabs d a t => [2281701379 + d.toNat * 524288 + a.toNat * 4096 + t.toNat * 4]
  | .vand d a b => [2348810240 + d.toNat * 524288 + a.toNat * 4096 + b.toNat * 32]
  | .vor d a b => [2348810241 + d.toNat * 524288 + a.toNat * 4096 + b.toNat * 32]
  | .vxor d a b => [2348810242 + d.toNat * 524288 + a.toNat * 4096 + b.toNat * 32]
  | .vandn d a b => [2348810243 + d.toNat * 524288 + a.toNat * 4096 + b.toNat * 32]
  | .vshl d a b t => [2415919104 + d.toNat * 524288 + a.toNat * 4096 + b.toNat * 32 + t.toNat * 4]
  | .vshr d a b t => [2415919105 + d.toNat * 524288 + a.toNat * 4096 + b.toNat * 32 + t.toNat * 4]
  | .vsar d a b t => [2415919106 + d.toNat * 524288 + a.toNat * 4096 + b.toNat * 32 + t.toNat * 4]
  | .vrol d a b t => [2415919107 + d.toNat * 524288 + a.toNat * 4096 + b.toNat * 32 + t.toNat * 4]
  | .vceq d a b t => [2483027968 + d.toNat * 524288 + a.toNat * 4096 + b.toNat * 32 + t.toNat * 4]
  | .vcne d a b t => [2483027969 + d.toNat * 524288 + a.toNat * 4096 + b.toNat * 32 + t.toNat * 4]
  | .vclt d a b t => [2483027970 + d.toNat * 524288 + a.toNat * 4096 + b.toNat * 32 + t.toNat * 4]
  | .vcle d a b t => [2483027971 + d.toNat * 524288 + a.toNat * 4096 + b.toNat * 32 + t.toNat * 4]
  | .vcltu d a b t => [2550136832 + d.toNat * 524288 + a.toNat * 4096 + b.toNat * 32 + t.toNat * 4]
  | .vcleu d a b t => [2550136833 + d.toNat * 524288 + a.toNat * 4096 + b.toNat * 32 + t.toNat * 4]
  | .vcun d a b t => [2550136834 + d.toNat * 524288 + a.toNat * 4096 + b.toNat * 32 + t.toNat * 4]
  | .vcnf d a t => [2550136835 + d.toNat * 524288 + a.toNat * 4096 + t.toNat * 4]
  | .vwadd d a b t => [2617245696 + d.toNat * 1048576 + a.toNat * 4096 + b.toNat * 32 + t.toNat * 4]
  | .vwmul d a b t => [2617245697 + d.toNat * 1048576 + a.toNat * 4096 + b.toNat * 32 + t.toNat * 4]
  | .vwmac d a b t => [2617245698 + d.toNat * 1048576 + a.toNat * 4096 + b.toNat * 32 + t.toNat * 4]
  | .vwsum d a b t => [2617245699 + d.toNat * 1048576 + a.toNat * 4096 + b.toNat * 32 + t.toNat * 4]
  | .vhadd d a b t => [2684354560 + d.toNat * 524288 + a.toNat * 4096 + b.toNat * 32 + t.toNat * 4]
  | .vhmax d a b t => [2684354561 + d.toNat * 524288 + a.toNat * 4096 + b.toNat * 32 + t.toNat * 4]
  | .vhmin d a b t => [2684354562 + d.toNat * 524288 + a.toNat * 4096 + b.toNat * 32 + t.toNat * 4]
  | .vscan d a b t => [2684354563 + d.toNat * 524288 + a.toNat * 4096 + b.toNat * 32 + t.toNat * 4]
  | .vzipl d a b t => [2751463424 + d.toNat * 524288 + a.toNat * 4096 + b.toNat * 32 + t.toNat * 4]
  | .vziph d a b t => [2751463425 + d.toNat * 524288 + a.toNat * 4096 + b.toNat * 32 + t.toNat * 4]
  | .vunzl d a b t => [2751463426 + d.toNat * 524288 + a.toNat * 4096 + b.toNat * 32 + t.toNat * 4]
  | .vunzh d a b t => [2751463427 + d.toNat * 524288 + a.toNat * 4096 + b.toNat * 32 + t.toNat * 4]
  | .vshuf d a b t => [2818572288 + d.toNat * 524288 + a.toNat * 4096 + b.toNat * 32 + t.toNat * 4]
  | .vsel d a b t => [2818572289 + d.toNat * 524288 + a.toNat * 4096 + b.toNat * 32 + t.toNat * 4]
  | .vrev d a t => [2818572290 + d.toNat * 524288 + a.toNat * 4096 + t.toNat * 4]
  | .vdupl d a t => [2818572291 + d.toNat * 524288 + a.toNat * 4096 + t.toNat * 4]
  | .vcvt d a s t r x => [2885681152 + d.toNat * 524288 + a.toNat * 4096 + s.toNat * 256 + t.toNat * 16 + r.toNat * 2 + x.toNat * 1]
  | .vqblk d a s t => [2952790016 + d.toNat * 524288 + a.toNat * 32768 + s.toNat * 256 + t.toNat * 32]
  | .vmxdec d a s t => [2952790017 + d.toNat * 4194304 + a.toNat * 4096 + s.toNat * 256 + t.toNat * 32]
  | .vdec d a s => [2952790018 + d.toNat * 2097152 + a.toNat * 4096 + s.toNat * 256]
  | .venc d a s => [2952790019 + d.toNat * 524288 + a.toNat * 16384 + s.toNat * 256]
  | .vrcp d a => [3019898900 + d.toNat * 524288 + a.toNat * 4096]
  | .vrsq d a => [3019898901 + d.toNat * 524288 + a.toNat * 4096]
  | .vexp2 d a => [3019898902 + d.toNat * 524288 + a.toNat * 4096]
  | .vlog2 d a => [3019898903 + d.toNat * 524288 + a.toNat * 4096]
  | .vsqrt d a => [3087007764 + d.toNat * 524288 + a.toNat * 4096]
  | .vdiv d a b => [3087007765 + d.toNat * 524288 + a.toNat * 4096 + b.toNat * 32]
  | .vflr d a t => [3087007746 + d.toNat * 524288 + a.toNat * 4096 + t.toNat * 4]
  | .vrnd d a t => [3087007747 + d.toNat * 524288 + a.toNat * 4096 + t.toNat * 4]
  | .vrng d s => [3154116608 + d.toNat * 524288 + s.toNat * 256]
  | .vrngf d s t => [3154116609 + d.toNat * 524288 + s.toNat * 256 + t.toNat * 32]
  | .vmovs d s t => [3221225472 + d.toNat * 524288 + s.toNat * 256 + t.toNat * 32]
  | .vins d i s t => [3221225473 + d.toNat * 524288 + i.toNat * 4096 + s.toNat * 256 + t.toNat * 32]
  | .vext i a s t => [3221225474 + i.toNat * 524288 + a.toNat * 4096 + s.toNat * 256 + t.toNat * 32]
  | .kmovs k s => [3221225475 + k.toNat * 524288 + s.toNat * 256]
  | .kext k s => [3221225476 + k.toNat * 4096 + s.toNat * 256]
  | .vaddi d a i t => [3288334336 + d.toNat * 524288 + a.toNat * 4096 + i.toNat * 16 + t.toNat * 2]
  | .vspli d i t => [3288334337 + d.toNat * 524288 + i.toNat * 16 + t.toNat * 2]
  | .vshli d a i t => [3355443200 + d.toNat * 524288 + a.toNat * 4096 + i.toNat * 16 + t.toNat * 2]
  | .vshri d a i t => [3355443201 + d.toNat * 524288 + a.toNat * 4096 + i.toNat * 16 + t.toNat * 2]
  | .vsari d a i t => [3422552064 + d.toNat * 524288 + a.toNat * 4096 + i.toNat * 16 + t.toNat * 2]
  | .vextb d a i => [3422552065 + d.toNat * 524288 + a.toNat * 4096 + i.toNat * 16]
  | .kand d a b => [3489660928 + d.toNat * 524288 + a.toNat * 4096 + b.toNat * 32]
  | .kor d a b => [3489660929 + d.toNat * 524288 + a.toNat * 4096 + b.toNat * 32]
  | .kxor d a b => [3489660930 + d.toNat * 524288 + a.toNat * 4096 + b.toNat * 32]
  | .knot d a => [3489660931 + d.toNat * 524288 + a.toNat * 4096]
  | .vdot4 d a b => [3556769792 + d.toNat * 524288 + a.toNat * 4096 + b.toNat * 32]
  | .vdot4u d a b => [3556769793 + d.toNat * 524288 + a.toNat * 4096 + b.toNat * 32]
  | .vdot2b d a b => [3556769810 + d.toNat * 524288 + a.toNat * 4096 + b.toNat * 32]
  | .vdot2h d a b => [3556769807 + d.toNat * 524288 + a.toNat * 4096 + b.toNat * 32]
  | .ldv d bp h off => [3623878656 + d.toNat * 524288 + bp.toNat * 65536, h.toNat * 16777216 + off.toNat]
  | .ldvp d bp h off => [3623878657 + d.toNat * 1048576 + bp.toNat * 65536, h.toNat * 16777216 + off.toNat]
  | .ldvc d bp cw h off => [3623878658 + d.toNat * 1048576 + bp.toNat * 65536 + cw.toNat * 16, h.toNat * 16777216 + off.toNat]
  | .stv d bp h off => [3623878659 + d.toNat * 524288 + bp.toNat * 65536, h.toNat * 16777216 + off.toNat]
  | .stvp d bp h off => [3623878660 + d.toNat * 1048576 + bp.toNat * 65536, h.toNat * 16777216 + off.toNat]
  | .stvc d bp cw h off => [3623878661 + d.toNat * 1048576 + bp.toNat * 65536 + cw.toNat * 16, h.toNat * 16777216 + off.toNat]
  | .vaadd d bp bs rm t h off => [3623878662 + d.toNat * 524288 + bp.toNat * 65536 + bs.toNat * 4096 + rm.toNat * 512 + t.toNat * 64, h.toNat * 16777216 + off.toNat]
  | .ldvb d bp t h off => [3623878663 + d.toNat * 524288 + bp.toNat * 65536 + t.toNat * 64, h.toNat * 16777216 + off.toNat]
  | .mma _ _ _ => []
  | .mmai _ _ _ => []
  | .mepi _ _ _ => []
  | .copy _ _ _ => []
  | .slab _ _ _ => []
  | .gather _ _ _ => []
  | .fill _ _ _ => []
  | .ccvt _ _ _ => []
  | .cred _ _ _ => []
  | .optadam _ _ _ => []
  | .optsgd _ _ _ => []
  | .engineChunk _ _ _ => []
  | .commandCompletion _ _ _ _ => []
  | .gangStart _ _ => []
  | .deferredEngineError => []
  | .sliceRequest _ => []
  | .sectorFill _ => []
  | .tableWalk _ => []
  | .lineArrival _ => []
  | .remoteScratchpadRequest _ => []
  | .ticketFetch _ => []
  | .ticketFetchEnd _ => []
  | .redemption _ => []
  | .rdmsDelivery _ => []
  | .retireNotice _ => []
  | .ticketReclaim _ => []
  | .messageArrival _ => []
  | .barrierArrival _ => []
  | .migrationArrival _ => []
  | .combOperation _ => []
  | .combAnswer _ => []
  | .spill _ _ => []
  | .spillComplete _ _ => []
  | .recall _ _ => []
  | .recallComplete _ _ => []
  | .ringEntryRead _ _ => []
  | .dependenceRead _ _ _ => []
  | .dependenceReread _ => []
  | .launchAgeing _ _ => []
  | .groupTableRead _ _ => []
  | .launchDispatch _ _ => []
  | .launchRetirement _ _ => []
  | .doneIncrement _ _ => []
  | .watchdog _ _ _ => []
  | .occupancyRecompute => []
  | .pwr _ _ => []
  | .droopTrip _ _ => []
  | .powerLimit _ => []
  | .pin _ => []
  | .unpin _ => []
  | .pageAnswer _ _ => []
  | .raise _ _ => []
  | .invalidationComplete _ => []
  | .sweepComplete _ => []
  | .prqcfg _ _ => []
  | .tail _ _ _ => []
  | .evhead _ _ => []
  | .axtbl _ _ => []
  | .tjtbl _ _ => []
  | .clr _ _ => []
  | .registerWrite _ _ _ _ => []
  | .create _ => []
  | .reshape _ => []
  | .destroy _ => []
  | .stop _ => []
  | .resume _ => []
  | .save _ => []
  | .restore _ => []
  | .opUndefined _ _ => []
  | .stopHalt _ => []
  | .flushToken _ _ _ => []
  | .load => []
  | .nexta => []
  | .nextb => []
  | .commit => []
  | .fwopUndefined _ => []
  | .fwVerifyDone => []
  | .atgo _ => []
  | .moduleReset => []
  | .imageVerified => []
  | .dieReady _ => []
  | .dieFailed _ => []
  | .functionLevelReset _ => []
  | .vectorUnmask _ _ => []
  | .cxlMemAccess _ _ _ => []
  | .hostSnoop _ => []
  | .inboundSwarmRequest _ _ _ _ _ => []
  | .linkStateChange _ _ _ => []
  | .flitRetry _ _ _ _ => []
  | .smbusRequest _ => []
  | .adoptNewGen _ => []
  | .writeBackComplete _ => []
  | .swarmAnswer _ _ _ => []
  | .stackOperation _ => []
  | .wakeReachesCore _ => []
  | .partitionCommandEnded _ _ => []
  | .evbase _ _ => []
  | .droopRecovery _ => []
  | .firmwareRunsOnEveryDie => []
  | .jtagInstruction _ => []
end Sys2Proof
end

