-- ==== Sys2Proof/WellFormed.lean ====
section
/-! DEFINITION. Which instructions are well formed: an encoded form passes the decode checks of R60 that its word alone
decides, and an event's arguments name agents that the module has (R10, R12, R121, R268, R309, R350). -/

namespace Sys2Proof

/-- A core of the module by its coordinates and one of its slots (R10, R160). -/
def coreSlotOk (x y slot : Nat) : Bool := x < 640 && y < 640 && slot < 16

/-- The arguments of an event are within their ranges; an encoded form has none to check. -/
def eventOk : Instr → Bool
  | .mma x y k | .mmai x y k | .mepi x y k | .copy x y k | .slab x y k | .gather x y k | .fill x y k | .ccvt x y k
  | .cred x y k | .optadam x y k | .optsgd x y k | .engineChunk x y k | .commandCompletion x y k _ => coreSlotOk x y k
  | .gangStart g k => g < 25600 && k < 16
  | .combOperation d | .stackOperation d | .dieReady d | .dieFailed d | .clr d _ | .linkStateChange d _ _
  | .flitRetry d _ _ _ | .inboundSwarmRequest d _ _ _ _ => d < 16
  | .spill p k | .spillComplete p k | .recall p k | .recallComplete p k => p < 64 && k < 16
  | .ringEntryRead p r | .tail p r _ => p < 64 && r < 4
  | .dependenceRead p _ k => p < 64 && k < 2
  | .dependenceReread p | .launchAgeing p _ | .groupTableRead p _ | .launchDispatch p _ | .launchRetirement p _
  | .doneIncrement p _ | .watchdog p _ _ | .pageAnswer p _ | .raise p _ | .invalidationComplete p | .sweepComplete p
  | .prqcfg p _ | .axtbl p _ | .tjtbl p _ | .create p | .reshape p | .destroy p | .stop p | .resume p | .save p
  | .restore p | .stopHalt p | .functionLevelReset p | .partitionCommandEnded p _ => p < 64
  | .flushToken p x y => p < 64 && x < 640 && y < 640
  | .opUndefined p op => p < 64 && (op == 0 || (8 ≤ op && op < 16))
  | .fwopUndefined op => op < 16 && (op == 0 || 5 ≤ op)
  | .droopTrip q e => q < 320 && 1 ≤ e && e ≤ 4
  | .pin q | .unpin q | .droopRecovery q => q < 320
  | .evhead fn _ | .evbase fn _ => fn < 65
  | .vectorUnmask fn v => fn < 65 && v < 2
  | .cxlMemAccess dec _ _ => dec < 65
  | _ => true

/-- A well-formed instruction (R60). -/
def wf (i : Instr) : Bool := (formCheck i).isNone && eventOk i

end Sys2Proof
end

