-- ==== Sys2Proof/Machine/Issue.lean ====
section
/-! DEFINITION. What happens before an instruction's meaning: fetching its words (R178), pending engine errors (R347), the
decode checks (R60), the issues of a repeat (R58), and poisoned registers (R341). -/

namespace Sys2Proof.Machine

/-! ## Fetching (R178) -/

/-- What a fetch of one word comes to. -/
inductive Fetched where
  | ok (w : Word)
  | trap (cause : Nat)
  | wait (s : State)

/-- The focused thread asks for the row of code that holds a word. -/
def State.askFetch (s : State) (a : Nat) : State :=
  let slice := s.sliceOf s.thr.tid.part a
  let s1 := s.request (.slice (s.req slice a .fetch 0 true))
  let t := { s1.thr with fetchRow := a / 32 }
  match t.phase with
  | .parked .fetch => { s1 with thr := { t with answer := none } }
  | _ => { s1 with thr := { t with phase := .parked .fetch, parkSeq := s1.seqno, parkTime := s1.gtime, answer := none
                                   waited := t.waitedAt s1.gtime } }

/-- One word of code for the focused thread; a failed fetch traps for a word of the row that it asked for, and no other (R178, R188).
DESIGN CHOICE, log entry 15. -/
def State.fetchWord (s : State) (a : Nat) : Fetched :=
  match s.word? a with
  | some w => .ok w
  | none =>
    if isWindow a then .trap 0x05
    else if unimplemented a then .trap 0x04
    else match s.thr.answer, s.thr.expect with
      | some { verdict := .trap c _, .. }, _ => if s.thr.fetchRow = a / 32 then .trap c else .wait (s.askFetch a)
      | _, some _ => if s.thr.phase == .parked .fetch then .wait s else .wait (s.askFetch a)
      | _, none => .wait (s.askFetch a)

/-- A fetch is over; nothing of it remains for the instruction to take. -/
def State.endFetch (s : State) : State :=
  match s.thr.phase with
  | .parked .fetch =>
    { s with thr := { s.thr with phase := .run, answer := none, expect := none, waited := s.thr.waitedAt s.gtime } }
  | _ => s

/-! ## Pending engine errors (R346, R347) -/

/-- The errors pending for the focused thread, in the order of their delivery: those of a slot it has left, then those of the
queues it owns, a copy queue's first. -/
def State.pendingErrs (s : State) : List (Bool × Word × Word) :=
  s.thr.owed ++ s.thr.queues.flatMap (fun cs => (s.slotAt cs.1 cs.2).errs)

/-- The first of them is delivered. -/
def State.takeErr (s : State) : State :=
  match s.thr.owed with
  | _ :: es => { s with thr := { s.thr with owed := es } }
  | [] =>
    match s.thr.queues.find? (fun cs => !(s.slotAt cs.1 cs.2).errs.isEmpty) with
    | some cs => s.modSlot cs.1 cs.2 (fun k => k.clearErr k.copy.err.isNone)
    | none => s

/-- The error is taken before the next instruction issues: the thread runs, or is parked in IDLE, WAITM, CWAIT or MWAIT. -/
def State.errorDue (s : State) : Bool :=
  !s.pendingErrs.isEmpty && (match s.thr.phase with
    | .run | .parked .idle | .parked .message | .parked .command => true
    | _ => false)

/-! ## Registers that an instruction reads (R341) -/

/-- A register as `Thread.poison` numbers it. -/
def regNo (cls n : Nat) : Nat := 4096 * cls + n
def sReg (r : BitVec 4) : Nat := regNo 0 r.toNat
def pairRegs (n : BitVec 3) : List Nat := [regNo 0 (2 * n.toNat), regNo 0 (2 * n.toNat + 1)]
/-- Lanes lo .. lo+n-1 of vector register r, each a word of its own. -/
def vLanes (r lo n : Nat) : List Nat := (List.range n).map (fun l => 65536 * (lo + l) + regNo 1 r)
def vReg (r : BitVec 7) : List Nat := vLanes r.toNat 0 4
def vPairRegs (n : BitVec 6) : List Nat := vLanes (2 * n.toNat) 0 4 ++ vLanes (2 * n.toNat + 1) 0 4
/-- The word of a vector register that holds element i of a type. -/
def vElem (r : BitVec 7) (i : BitVec 4) (t : BitVec 3) : List Nat := vLanes r.toNat (i.toNat * tWidth t.toNat / 32) 1
/-- The words that hold every other element of a register from the first or the second on, of a type. -/
def vEvery (r : BitVec 7) (odd : Nat) (t : BitVec 3) : List Nat :=
  if tWidth t.toNat = 32 then vLanes r.toNat odd 1 ++ vLanes r.toNat (2 + odd) 1 else vReg r
def kReg (n : Nat) : Nat := regNo 2 n
def pWord : Nat := regNo 3 0

/-- The predicate word, when a guard or a predicate write reads it. -/
def guardRegs (g : BitVec 4) : List Nat := if g.setWidth 3 == (0 : BitVec 3) then [] else [pWord]

/-- Vector registers r .. r+n-1. -/
def vRange (r n : Nat) : List Nat := (List.range n).flatMap (fun i => vLanes (r + i) 0 4)

/-- The operand of an ATOM, and the new value of an ACAS (R155). -/
def atomRegs (d : BitVec 4) (sz : BitVec 1) (cas : Bool) : List Nat :=
  (List.range ((if sz == 1 then 2 else 1) * (if cas then 2 else 1))).map (fun i => regNo 0 (d.toNat + i))

/-- The registers that an instruction reads through its operands, beside its guard. DEDUCED, log entry 60. -/
def regsRead (i : Instr) : List Nat :=
  match i with
  | .lnch _ _ a _ => [sReg a]
  | .add _ _ a b | .sub _ _ a b | .and _ _ a b | .or _ _ a b | .xor _ _ a b | .andn _ _ a b | .shl _ _ a b | .shr _ _ a b
  | .sar _ _ a b | .rol _ _ a b | .mul _ _ a b | .mulh _ _ a b | .mulhu _ _ a b | .div _ _ a b | .divu _ _ a b
  | .rem _ _ a b | .remu _ _ a b | .min _ _ a b | .max _ _ a b | .minu _ _ a b | .maxu _ _ a b | .slt _ _ a b
  | .sltu _ _ a b => [sReg a, sReg b]
  | .clz _ _ a | .ctz _ _ a | .popc _ _ a | .brev _ _ a | .sextb _ _ a | .sexth _ _ a | .zextb _ _ a | .zexth _ _ a
  | .mov _ _ a | .addi _ _ a _ | .andi _ _ a _ | .ori _ _ a _ | .xori _ _ a _ | .shli _ _ a _ | .shri _ _ a _
  | .sari _ _ a _ | .roli _ _ a _ => [sReg a]
  | .cmp _ _ _ a b _ => [sReg a, sReg b, pWord]
  | .cmpi _ _ _ a _ _ => [sReg a, pWord]
  | .pand .. | .por .. | .pxor .. | .pandn .. | .prdw .. => [pWord]
  | .pwrw _ d => [sReg d]
  | .jr _ a | .jrl _ a => [sReg a]
  | .eret _ => [csrReg 0x002, csrReg 0x003, csrReg 0x008]
  | .padd _ _ a b | .psub _ _ a b => pairRegs a ++ pairRegs b
  | .padds _ _ a b _ | .paddu _ _ a b _ => pairRegs a ++ [regNo 0 (2 * b.toNat)]
  | .pmov _ _ a | .paddi _ _ a _ => pairRegs a
  | .ldb _ _ bp _ _ | .ldbu _ _ bp _ _ | .ldh _ _ bp _ _ | .ldhu _ _ bp _ _ | .ldw _ _ bp _ _ | .ldd _ _ bp _ _
  | .lda _ _ bp _ _ _ | .ldtL _ _ bp _ _ | .ldtQ _ _ bp _ _ | .ldtS _ _ bp _ _ | .ldtC _ _ bp _ _ _ => pairRegs bp
  | .stb _ d bp _ _ | .sth _ d bp _ _ | .stw _ d bp _ _ | .str _ d bp _ _ _ => sReg d :: pairRegs bp
  | .std _ d bp _ _ => pairRegs d ++ pairRegs bp
  | .aadd _ d bp _ sz _ _ | .amin _ d bp _ sz _ _ | .amax _ d bp _ sz _ _ | .aminu _ d bp _ sz _ _
  | .amaxu _ d bp _ sz _ _ | .aand _ d bp _ sz _ _ | .aor _ d bp _ sz _ _ | .axor _ d bp _ sz _ _
  | .aswp _ d bp _ sz _ _ => atomRegs d sz false ++ pairRegs bp
  | .acas _ d bp _ sz _ _ => atomRegs d sz true ++ pairRegs bp
  | .aaddf _ d bp _ _ _ => sReg d :: pairRegs bp
  | .rdmv _ _ a | .tkdrop _ a => [sReg a]
  | .rdms _ a b => sReg a :: pairRegs b
  | .tktst _ _ a => [sReg a, pWord]
  | .send _ a b => sReg a :: (List.range 4).map (fun i => regNo 0 (4 * b.toNat + i))
  | .pollm .. => []
  | .mbind _ a _ => [sReg a]
  | .rdsig _ _ w => [csrReg (0x060 + w.toNat)]
  | .bar _ m | .garv _ _ m => [csrReg (0x030 + m.toNat)]
  | .barx _ _ a m _ | .gwt _ a m => [sReg a, csrReg (0x030 + m.toNat)]
  | .enqm _ _ v | .enqmR _ _ v | .enqc _ _ v | .enqcR _ _ v => vPairRegs v
  | .mwait _ _ s | .cwait _ s | .cstat _ _ s => [sReg s]
  | .csrr _ _ c => [csrReg c.toNat]
  | .csrw _ a _ => [sReg a]
  | .csrs _ _ a c | .csrc _ _ a c => [sReg a, csrReg c.toNat]
  | .tjins _ _ a b | .tjsmp _ _ a b | .tjpri _ _ a b | .tjevt _ _ a b | .tjver _ _ a b | .tjqry _ _ a b
  | .tjget _ _ a b => [sReg a, sReg b]
  | .axpush _ _ a b | .axpop _ _ a b => pairRegs a ++ [sReg b]
  | .axdepth _ _ a b | .axdrop _ _ a b => [sReg a, sReg b]
  | .go _ a => pairRegs a
  | .qpush _ d _ => [sReg d]
  | .qtry .. => [pWord]
  | .qpushv _ v _ => vReg v
  | .vadd _ a b _ | .vsub _ a b _ | .vmin _ a b _ | .vmax _ a b _ | .vmul _ a b _ | .vadds _ a b _ | .vsubs _ a b _
  | .vmulh _ a b _ => vReg a ++ vReg b
  | .vfma d a b _ | .vfms d a b _ | .vfnma d a b _ => vReg d ++ vReg a ++ vReg b
  | .vabs _ a _ => vReg a
  | .vand _ a b | .vor _ a b | .vxor _ a b | .vandn _ a b | .vdiv _ a b => vReg a ++ vReg b
  | .vshl _ a b _ | .vshr _ a b _ | .vsar _ a b _ | .vrol _ a b _ => vReg a ++ vReg b
  | .vceq _ a b _ | .vcne _ a b _ | .vclt _ a b _ | .vcle _ a b _ | .vcltu _ a b _ | .vcleu _ a b _
  | .vcun _ a b _ => vReg a ++ vReg b
  | .vcnf _ a _ => vReg a
  | .vwadd _ a b _ | .vwmul _ a b _ => vReg a ++ vReg b
  | .vwmac d a b _ | .vwsum d a b _ => vPairRegs d ++ vReg a ++ vReg b
  | .vhadd _ a b _ | .vhmax _ a b _ | .vhmin _ a b _ | .vscan _ a b _ => vReg a ++ vReg b
  | .vzipl _ a b _ => vLanes a.toNat 0 2 ++ vLanes b.toNat 0 2
  | .vziph _ a b _ => vLanes a.toNat 2 2 ++ vLanes b.toNat 2 2
  | .vunzl _ a b t => vEvery a 0 t ++ vEvery b 0 t
  | .vunzh _ a b t => vEvery a 1 t ++ vEvery b 1 t
  | .vshuf _ a b _ => vReg a ++ vReg b
  | .vsel _ a b _ => vReg a ++ vReg b ++ [kReg 0]
  | .vrev _ a _ => vReg a
  | .vdupl _ a _ => vLanes a.toNat 0 2
  | .vcvt _ a st dt _ _ =>
    let w := codeWidth st.toNat
    vLanes a.toNat 0 ((128 / Nat.max w (codeWidth dt.toNat) * w + 31) / 32)
  | .vqblk _ a _ _ => vRange (8 * a.toNat) 8
  | .vmxdec _ a s t => sReg s :: vRange a.toNat (if t == 1 then 1 else 2)
  | .vdec _ a s => sReg s :: vReg a
  | .venc _ a s => sReg s :: vRange (4 * a.toNat) 4
  | .vrcp _ a | .vrsq _ a | .vexp2 _ a | .vlog2 _ a | .vsqrt _ a | .vflr _ a _ | .vrnd _ a _ => vReg a
  | .vmovs _ s _ | .vrng _ s | .vrngf _ s _ => [sReg s]
  | .vins d i s t => (if tWidth t.toNat = 32 then [] else vElem d i t) ++ [sReg s]
  | .vext i a _ t => vElem a i t
  | .kmovs _ s => [sReg s]
  | .kext k _ => [kReg k.toNat]
  | .vaddi _ a _ _ | .vshli _ a _ _ | .vshri _ a _ _ | .vsari _ a _ _ => vReg a
  | .vextb d a i => vLanes a.toNat (i.toNat / 4) (4 - i.toNat / 4) ++ vLanes d.toNat 0 ((i.toNat + 15) / 4 - 3)
  | .kand _ a b | .kor _ a b | .kxor _ a b => [kReg a.toNat, kReg b.toNat]
  | .knot _ a => [kReg a.toNat]
  | .vdot4 d a b | .vdot4u d a b | .vdot2b d a b | .vdot2h d a b => vReg d ++ vReg a ++ vReg b
  | .ldv _ bp _ _ | .ldvp _ bp _ _ | .ldvc _ bp _ _ _ | .ldvb _ bp _ _ _ => pairRegs bp
  | .stv d bp _ _ => vReg d ++ pairRegs bp
  | .stvp d bp _ _ | .stvc d bp _ _ _ => vPairRegs d ++ pairRegs bp
  | .vaadd d bp bs rm _ _ _ =>
    vReg d ++ pairRegs bp ++ (if rm == 5 && bs == 0 then vRange (d.toNat + 1) 1 else [])
  | _ => []

/-- The generator's key, stream and position (R244), and the key and stream alone (R157). -/
def drawCsrs : List Nat := [0x020, 0x021, 0x022, 0x023, 0x024].map csrReg
def keyCsrs : List Nat := [0x020, 0x021, 0x022].map csrReg
/-- FSTAT, into which a form merges its flags (R168). -/
def flagCsrs : List Nat := [csrReg 0x010]
/-- FMODE and FSTAT of a form that rounds under FMODE, and the generator under SR (R215). -/
def Thread.modeCsrs (t : Thread) : List Nat := csrReg 0x011 :: flagCsrs ++ (if t.csr.rm == 5 then drawCsrs else [])

/-- The CSRs that an instruction reads without naming them: FMODE, the generator and TBLP of arithmetic, FSTAT into which it
merges flags, and those that a push captures (R138, R250, R341). DEDUCED, log entry 60. -/
def Thread.csrsRead (t : Thread) (i : Instr) : List Nat :=
  match i with
  | .vadd _ _ _ ty | .vsub _ _ _ ty | .vmul _ _ _ ty | .vfma _ _ _ ty | .vfms _ _ _ ty | .vfnma _ _ _ ty
  | .vwadd _ _ _ ty | .vwmul _ _ _ ty | .vwmac _ _ _ ty | .vwsum _ _ _ ty | .vhadd _ _ _ ty | .vscan _ _ _ ty =>
    if tInt ty then [] else t.modeCsrs
  | .vmin _ _ _ ty | .vmax _ _ _ ty | .vabs _ _ ty | .vhmax _ _ _ ty | .vhmin _ _ _ ty => if tInt ty then [] else t.modeCsrs
  | .vceq _ _ _ ty | .vcne _ _ _ ty | .vclt _ _ _ ty | .vcle _ _ _ ty => if tInt ty then [] else flagCsrs
  | .vcun .. | .vcnf .. | .vflr .. | .vqblk .. | .vmxdec .. | .vrcp .. | .vrsq .. | .vexp2 .. | .vlog2 .. | .vsqrt ..
  | .vdiv .. | .aaddf .. => flagCsrs
  | .vadds .. | .vsubs .. | .vdot2b .. | .vdot2h .. => flagCsrs
  | .vspli _ _ ty => if tInt ty then [] else t.modeCsrs
  | .vrnd .. => t.modeCsrs
  | .vcvt _ _ st dt rm _ =>
    flagCsrs ++ (if rm == 5 then drawCsrs else []) ++ (if st == 12 || dt == 12 then [csrReg 0x015] else [])
  | .vdec .. => csrReg 0x015 :: flagCsrs
  | .venc .. => csrReg 0x015 :: t.modeCsrs
  | .vaadd _ _ bs rm ty _ _ => if tInt ty then [] else flagCsrs ++ (if rm == 5 && bs == 1 then keyCsrs else [])
  | .vrng .. | .vrngf .. => drawCsrs
  | .enqm .. | .enqmR .. | .enqc .. | .enqcR .. => [0x012, 0x013, 0x014, 0x015].map csrReg ++ drawCsrs
  | _ => []

/-- The guard of a guarded form. -/
def guardOf (w : Nat) : Option (BitVec 4) :=
  let mo := fld w 26 6
  if mo < 32 && mo != 0x0F then some (bf w 22 4) else none

/-- The first poisoned register that an instruction reads; a disabled instruction reads its guard alone. DEDUCED, log entry 60.
DESIGN CHOICE, log entry 88. -/
def Thread.poisonRead (t : Thread) (w : Nat) (i : Instr) : Option Nat :=
  let g := guardOf w
  let gs := match g with
    | some g => guardRegs g
    | none => []
  let on := match g with
    | some g => t.enabled g
    | none => true
  (gs ++ (if on then regsRead i ++ t.csrsRead i else [])).find? t.poison.contains

/-- The detail of R341. -/
def poisonDetail (r : Nat) : DWord := 0xFFFFFFFF#32 ++ BitVec.ofNat 32 (r % 2 ^ 16)

/-! ## The instruction to issue (R58, R60) -/

/-- What the focused thread issues: an instruction, or a state that its fetch or its decode checks lead to. -/
inductive Ready where
  | run (i : Instr) (s : State)
  | done (s : State)

/-- The cause that the decoder's refusals raise (R60). -/
def Reject.cause (r : Reject) : Nat :=
  match r with
  | .scope => 0x0B
  | .format => 0x17
  | .illegal | .truncated => 0x01

/-- The issue cycles of the entry that a word names by its major and its function code (R161). DEDUCED, log entry 97. -/
def entryCost (w : Nat) : Nat :=
  match fld w 26 6 with
  | 0x01 => if 13 ≤ fld w 0 5 && fld w 0 5 ≤ 16 then 8 else 1
  | 0x2C => if fld w 0 2 = 0 || fld w 0 2 = 3 then 8 else 4
  | 0x2D => 4
  | 0x2E => if fld w 0 2 ≤ 1 then 8 else 1
  | _ => 1

/-- The issue cycles of a word that traps before its meaning: one when its guard disables it (R161). -/
def Thread.issueCost (t : Thread) (w : Nat) : Nat :=
  match guardOf w with
  | some g => if t.enabled g then entryCost w else 1
  | none => entryCost w

/-- The decode checks and the poison check on words that have been fetched; a trap is taken after the last of the form's
issue cycles (R161). DEDUCED, log entry 56. -/
def State.decoded (s : State) (w0 w1 : Word) : Ready :=
  let w : DWord := w0.setWidth 64
  let trap (cause : Nat) (detail : DWord) : Ready := .done (s.trapCost (s.thr.issueCost w0.toNat) cause detail)
  match decodeWords w0.toNat w1.toNat with
  | .error r => trap (Reject.cause r) w
  | .ok i =>
    match shapeCheck s.thr.vregs s.thr.prv s.thr.lperm i with
    | some .priv => trap 0x02 w
    | some (.regRange r) => trap 0x0E (BitVec.ofNat 64 r)
    | none =>
      match s.thr.poisonRead w0.toNat i with
      | some r => trap 0x06 (poisonDetail r)
      | none => .run i s

/-- The focused thread's next instruction: the next issue of a repeat, or the words at its pc. -/
def State.ready (s : State) : Ready :=
  match s.thr.rep with
  | some r => s.decoded (BitVec.ofNat 32 (stepWord r.w0.toNat r.i r.id r.ia r.ib)) r.w1
  | none =>
    let pc := s.thr.pc.toNat
    match s.fetchWord pc with
    | .trap c => .done (s.endFetch.trapFetch c s.thr.pc)
    | .wait s1 => .done s1
    | .ok w0 =>
      if twoWord w0.toNat then
        match s.fetchWord ((s.thr.pc + 4).toNat) with
        | .trap c => .done (s.endFetch.trapFetch c s.thr.pc)
        | .wait s1 => .done s1
        | .ok w1 => s.endFetch.decoded w0 w1
      else if fld w0.toNat 26 6 == 0x0F || (fld w0.toNat 26 6 == 0 && fld w0.toNat 8 6 == 4) then s.decoded w0 0
      else s.endFetch.decoded w0 0

/-- A partition's threads issue: it runs, and it has not come to the tick of its stop (R361). -/
def State.partRuns (s : State) (p : Nat) : Bool :=
  (s.part p).state == .running && (match (s.part p).stop with
    | some x => !x.halted && decide (s.gtime < x.g)
    | none => true)

/-- The focused thread can issue: it runs or is parked (R162). -/
def State.canIssue (s : State) : Bool :=
  s.partRuns s.thr.tid.part && s.thr.isLive && !s.thr.travelling

/-- A step of the focused thread made progress. -/
def State.moved (s t : State) : Bool := t.thr != s.thr || t.seqno != s.seqno

/-- A thread that an instruction could be issued for, beside the focused one. -/
def State.nextRunnable (s : State) : Option Tid :=
  (s.threads.find? (fun t => t.phase == .run && !t.travelling && s.partRuns t.tid.part)).map (·.tid)

/-- Parked threads that may be reissued. -/
def State.parkedTids (s : State) : List Tid :=
  (s.threads.filter (fun t => t.isLive && t.phase != .run && !t.travelling && s.partRuns t.tid.part)).map (·.tid)

/-- How many issues an empty agenda makes in one tick of GTIME, about the core cycles of a tick. DESIGN CHOICE, log entry 1. -/
def turnLength : Nat := 7

/-- The tick is over: other agents come before the focused thread. DESIGN CHOICE, log entry 1. -/
def State.turnOver (s : State) : Bool := turnLength ≤ s.turn

/-- One more issue in this tick. DESIGN CHOICE, log entry 3. -/
def State.countIssue (s : State) : State := { s with turn := s.turn + 1 }

/-- One tick of GTIME; the next runnable thread comes into focus. -/
def State.endTick (s : State) : State :=
  let s1 := match s.nextRunnable with
    | some tid => s.focus tid
    | none => s
  { s1.advance (224 - s1.frac) with turn := 0 }

/-- The words of a thread's core are dropped, so that its fetch reads memory (R178). DESIGN CHOICE, log entry 15. -/
def State.refetch (s : State) (yes : Bool) : State :=
  if yes then s.dropFetched s.thr.core s.thr.tid.part else s

/-! ## Placing an instruction where the next step fetches it -/

/-- The shape of one quad at (0, 0), all slots, f up to 8 (R352). DESIGN CHOICE, log entry 4. -/
def probeShape : DWord := BitVec.ofNat 64 (0xFFFF * 2 ^ 24 + 3 * 2 ^ 22 + 2 ^ 17 + 2 ^ 12)

/-- The address at which the placed instruction stands. -/
def probePc : DWord := 0x10000

/-- A thread of partition 0 with eight slots and launch permission at P level, about to issue at `probePc`. DESIGN CHOICE, log entry 4. -/
def probeThread : Thread where
  tid := { part := 0, lid := 1, idx := 0 }
  pc := probePc
  flog := 3
  prv := true
  lperm := true
  phase := .run

end Sys2Proof.Machine
end

