-- ==== Sys2Proof/Machine/Operands.lean ====
section
/-! DEFINITION. Operand forms: conditions (R53), immediates, branch targets, the divide rules (R171), and the CSRs as a
program reads and writes them (R64, R130, R168, R182). -/

namespace Sys2Proof.Machine

/-- The condition of a CC value (R53). -/
def condition (cc : BitVec 4) (a b : Word) : Bool :=
  match cc.toNat with
  | 0 => a == b
  | 1 => a != b
  | 2 => a.slt b
  | 3 => a.sle b
  | 4 => b.slt a
  | 5 => b.sle a
  | 6 => a.ult b
  | 7 => a.ule b
  | 8 => b.ult a
  | 9 => b.ule a
  | 10 => (a &&& b) != 0
  | _ => (a &&& b) == 0

/-- sext(IMM14, 14) and zext(IMM14, 14). -/
def simm14 (i : BitVec 14) : Word := i.signExtend 32
def zimm14 (i : BitVec 14) : Word := i.setWidth 32

/-- The target of a B-format offset from the branch word's address (R176). -/
def branchTarget (p : DWord) (o : BitVec 22) : DWord := p + o.signExtend 64 * 4

/-- The target of JR and JRL: the high word of the jump's own address is kept (R177). -/
def jumpTarget (p : DWord) (a : Word) : DWord := join (hiWord p) a

/-- The shift amount b[4:0] (R170). -/
def shamt (b : Word) : Nat := b.toNat % 32

/-- Signed quotient and remainder of R171. -/
def divSigned (a b : Word) : Word × Word :=
  if b == 0 then (0xFFFFFFFF, a)
  else if a == 0x80000000 && b == 0xFFFFFFFF then (0x80000000, 0)
  else (a.sdiv b, a.srem b)

/-- Unsigned quotient and remainder of R171. -/
def divUnsigned (a b : Word) : Word × Word := if b == 0 then (0xFFFFFFFF, a) else (a / b, a % b)

/-- The high word of a product (R170). -/
def mulHighS (a b : Word) : Word := hiWord (a.signExtend 64 * b.signExtend 64)
def mulHighU (a b : Word) : Word := hiWord (a.setWidth 64 * b.setWidth 64)

/-- Bit i of a word as a count. -/
def bitAt (a : Word) (i : Nat) : Nat := if a.getLsbD i then 1 else 0

/-- Leading and trailing zero bits, set bits, and the reversed bits of a word (R170). -/
def countLeading (a : Word) : Nat :=
  (((List.range 32).reverse.takeWhile (fun i => !a.getLsbD i))).length
def countTrailing (a : Word) : Nat := ((List.range 32).takeWhile (fun i => !a.getLsbD i)).length
def countSet (a : Word) : Nat := (List.range 32).foldl (fun n i => n + bitAt a i) 0
def reverseBits (a : Word) : Word := (List.range 32).foldl (fun r i => r ||| (BitVec.ofNat 32 (bitAt a i) <<< (31 - i))) 0

/-- The scalar operand of PADDS and PADDU: the low register of pair B (R179). -/
def Thread.pairLow (t : Thread) (b : BitVec 3) : Word := t.rs (b ++ 0#1)

/-! ## CSRs -/

/-- COREXY of a thread (R168). -/
def State.corexy (s : State) (t : Thread) : Word :=
  BitVec.ofNat 16 (relY (s.shape t.tid.part) t.core) ++ BitVec.ofNat 16 (relX (s.shape t.tid.part) t.core)

/-- SLOTS of a thread (R168). -/
def Thread.slotsWord (t : Thread) : Word := BitVec.ofNat 32 (t.slot * 2 ^ 20 + t.flog * 2 ^ 16 + t.mask)

/-- TMODE of a thread: PRV, DET, PIN and FIX (R168, R169). -/
def State.tmode (s : State) (t : Thread) : Word :=
  BitVec.ofNat 32 ((if t.prv then 8 else 0) + (if t.det then 4 else 0)
    + (if (s.clock (quadOf t.core)).pinned then 2 else 0) + (if t.fix then 1 else 0))

/-- A CSR as the focused thread reads it (R64, R168); a number outside R64 never gets here. -/
def State.csrRead (s : State) (n : Nat) : Word :=
  let t := s.thr
  let c := t.csr
  let k := s.slotAt t.core t.slot
  match n with
  | 0x000 => c.tvecl | 0x001 => c.tvech | 0x002 => c.epcl | 0x003 => c.epch | 0x004 => c.ecause
  | 0x005 => c.eaddrl | 0x006 => c.eaddrh | 0x007 => c.escr | 0x008 => c.repst
  | 0x010 => c.fstat | 0x011 => c.fmode | 0x012 => c.fmtd | 0x013 => c.sclpl | 0x014 => c.sclph | 0x015 => c.tblp
  | 0x020 => c.rkeyl | 0x021 => c.rkeyh | 0x022 => c.rstr | 0x023 => c.rposl | 0x024 => c.rposh
  | 0x030 => (t.grp.getD 0 0xFFFF).setWidth 32 | 0x031 => (t.grp.getD 1 0xFFFF).setWidth 32
  | 0x032 => (t.grp.getD 2 0xFFFF).setWidth 32 | 0x033 => (t.grp.getD 3 0xFFFF).setWidth 32
  | 0x040 => BitVec.ofNat 32 k.chbase | 0x041 => BitVec.ofNat 32 k.chlen | 0x042 => BitVec.ofNat 32 k.wm
  | 0x050 => BitVec.ofNat 32 t.tid.idx
  | 0x051 => s.corexy t
  | 0x052 => t.slotsWord
  | 0x053 => s.tmode t
  | 0x054 => BitVec.ofNat 32 t.tid.part
  | 0x055 => c.scopedem
  | 0x056 => BitVec.ofNat 32 t.tid.lid
  | 0x060 => loWord t.sigHL | 0x061 => hiWord t.sigHL
  | 0x070 => c.dbgctl
  | 0x080 => (s.l1m t.tid.part t.core).setWidth 32
  | _ => 0

/-- FMODE as a write stores it: an RM of 6 or 7 stores 0 (R168). -/
def storeFmode (v : Word) : Word := if 6 ≤ bitsOf v 0 3 then v &&& 8 else v &&& 0xF

/-- The bits of REPST that a write stores (R59). -/
def repstMask : Word := 0x80003F3F

/-- The thread's own CSRs after a write: each stores the bits that R168 marks RW. -/
def Csrs.write (c : Csrs) (n : Nat) (v : Word) : Csrs :=
  match n with
  | 0x000 => { c with tvecl := v } | 0x001 => { c with tvech := v }
  | 0x002 => { c with epcl := v } | 0x003 => { c with epch := v }
  | 0x004 => { c with ecause := v &&& 0xFF } | 0x005 => { c with eaddrl := v } | 0x006 => { c with eaddrh := v }
  | 0x007 => { c with escr := v } | 0x008 => { c with repst := v &&& repstMask }
  | 0x010 => { c with fstat := v &&& 0x3F } | 0x011 => { c with fmode := storeFmode v }
  | 0x012 => { c with fmtd := v &&& 0xFFF } | 0x013 => { c with sclpl := v } | 0x014 => { c with sclph := v }
  | 0x015 => { c with tblp := v &&& 0xFC00 }
  | 0x020 => { c with rkeyl := v } | 0x021 => { c with rkeyh := v } | 0x022 => { c with rstr := v }
  | 0x023 => { c with rposl := v } | 0x024 => { c with rposh := v }
  | 0x055 => { c with scopedem := v }
  | 0x070 => { c with dbgctl := v &&& 1 }
  | _ => c

/-- A command now reads or writes a core's SRAM, that of its own core `mine` among them: it runs, or it has its results still
to write (R146). -/
def Cmd.uses (c : Cmd) (mine core : Nat) : Bool :=
  (c.state == .running || !c.out.isEmpty) && (mine == core || c.cores.contains core)

/-- The partition's accesses to a core's SRAM that a write of L1CFG waits for (R146): engine commands that read or write it,
of any core. An access or a delivery is one step of its own, and one that arrives meanwhile is held. -/
def State.sramQuiet (s : State) (p core : Nat) : Bool :=
  s.slots.all (fun k =>
    !(s.ownsSlot p (k.1 / 16) (k.1 % 16)) || (k.2.copy.cmds ++ k.2.mtx.cmds).all (fun c => !c.uses (k.1 / 16) core))

/-- A write of L1CFG (R145, R146): banks that change their use lose their contents, every L1 line of the partition on the
core goes, and channels that run past the scratchpad are disabled. -/
def State.setL1cfg (s : State) (p core : Nat) (v : Word) : State :=
  let own (k : Nat) : Bool := s.ownsSlot p core k
  let old := s.l1m p core
  let new : Half := (List.range 16).foldl (fun m k => if own k && v.getLsbD k then m ||| (1#16 <<< k) else m) 0
  let s1 := (List.range 16).foldl (fun s k =>
    if own k && old.getLsbD k != new.getLsbD k then
      let b := 16 * core + k
      { s with sram := Memory.clear s.sram (4096 * b) 4096, tags := Table.set s.tags b p
               sramPois := s.sramPois.filter (fun w => w / 4096 != b) }
    else s) s
  let s2 := ({ s1 with l1cfg := Table.set s1.l1cfg (64 * core + p) new }).l1Drop core p (fun _ => true)
  let s3 := s2.noInstall core p (fun _ => true)
  (List.range 16).foldl (fun s k =>
    if own k then s.modSlot core k (fun c => if s.scratchSize p core < c.chbase + c.chlen then { c with chlen := 0, wm := 0, filled := 0 } else c)
    else s) s3

/-- The thread's own CSRs that a program writes (R64). -/
def csrOwn (n : Nat) : Bool :=
  (n ≤ 0x008) || (0x010 ≤ n && n ≤ 0x015) || (0x020 ≤ n && n ≤ 0x024) || n == 0x055 || n == 0x070

/-- A write of a CSR of the focused thread (R130, R168); a read-only one ignores it (R4). A write of the whole word clears its
poison (R341). -/
def State.csrWrite (s : State) (n : Nat) (v : Word) : State :=
  let t := s.thr
  let size := s.scratchSize t.tid.part t.core
  let s := if csrOwn n || n = 0x040 || n = 0x041 || n = 0x080 then
      { s with thr := { t with poison := t.poison.filter (· != csrReg n) } }
    else s
  match n with
  | 0x040 => s.modSlot t.core t.slot (fun c => c.setChannel (bitsOf v 5 11 * 32) c.chlen size)
  | 0x041 => s.modSlot t.core t.slot (fun c => c.setChannel c.chbase (bitsOf v 5 12 * 32) size)
  | 0x080 => s.setL1cfg t.tid.part t.core v
  | _ =>
    if csrOwn n then { s with thr := { s.thr with csr := t.csr.write n v } } else s

end Sys2Proof.Machine
end

