-- ==== Sys2Proof/Machine/Control.lean ====
section
/-! DEFINITION. Branches and jumps (R176, R177), the repeat prefix (R58, R181), the CSR forms (R182) and the system forms
that concern the thread alone (R184–R190, R192). -/

namespace Sys2Proof.Machine

/-! ## Branches and jumps -/

/-- A jump retires at its target; BRL and JRL write s15 first. -/
def State.jump (s : State) (target : DWord) (link : Bool) : State :=
  let back := loWord (s.thr.pc + 4)
  (if link then { s with thr := s.thr.ws 15 back } else s).retireTo 1 target none

/-- BR (R176). -/
def execBr (g : BitVec 4) (o : BitVec 22) (s : State) : Next :=
  guarded g 4 s (fun s => s.jump (branchTarget s.thr.pc o) false)
/-- BRL (R176). -/
def execBrl (g : BitVec 4) (o : BitVec 22) (s : State) : Next :=
  guarded g 4 s (fun s => s.jump (branchTarget s.thr.pc o) true)

/-- A jump to a register: a misaligned target traps (R46, R177). -/
def State.jumpReg (s : State) (a : BitVec 4) (link : Bool) : State :=
  let t := jumpTarget s.thr.pc (s.thr.rs a)
  if t.extractLsb' 0 2 != 0 then s.trap 0x03 t else s.jump t link

/-- JR (R177). -/
def execJr (g a : BitVec 4) (s : State) : Next := guarded g 4 s (fun s => s.jumpReg a false)
/-- JRL (R177). -/
def execJrl (g a : BitVec 4) (s : State) : Next := guarded g 4 s (fun s => s.jumpReg a true)

/-! ## The repeat prefix (R58, R181) -/

/-- Word 0 of a prefix. -/
def repWord (c : BitVec 6) (i j k : BitVec 3) : Nat := (encode (.rep c i j k)).headD 0

/-- The words of a repeat's target, that follow its prefix at an address. -/
inductive Target where
  | ok (w0 w1 : Word)
  | trap (cause : Nat)
  | wait (s : State)

/-- DEDUCED, log entry 56. -/
def State.targetWords (s : State) (p : DWord) : Target :=
  match s.fetchWord (p + 4).toNat with
  | .trap c => .trap c
  | .wait t => .wait t
  | .ok w0 =>
    if twoWord w0.toNat then
      match s.fetchWord (p + 8).toNat with
      | .trap c => .trap c
      | .wait t => .wait t
      | .ok w1 => .ok w0 w1
    else .ok w0 0

/-- REP: the prefix passes the checks of R58 against its target and the target's issues follow. It is no step of its own.
DEDUCED, log entry 56. -/
def execRep (c : BitVec 6) (i j k : BitVec 3) (s : State) : Next :=
  .next (match s.targetWords s.thr.pc with
    | .wait t => t
    | .trap cause => (s.charge 1).trapWith cause (s.thr.pc + 4) s.thr.pc 0 true
    | .ok w0 w1 =>
      if repeatAllowed (repWord c i j k) w0.toNat then
        let r : Rep := { i := 0, last := c.toNat, w0 := w0, w1 := w1, id := i.toNat, ia := j.toNat, ib := k.toNat }
        { s.charge 1 with thr := (s.charge 1).thr.goOn s.thr.pc (some r) }
      else s.trap 0x01 (BitVec.ofNat 64 (repWord c i j k)))

/-! ## CSR forms (R182) -/

/-- The retirement of a CSR write: a write of DBGCTL takes effect for the next instruction (R169), so the step that follows
this one goes by the old value (R345). -/
def State.csrRetire (s : State) (n : Nat) (v : Word) : State :=
  if n = 0x070 then
    let s1 := s.retire 4 1
    if s.thr.csr.dbgctl == 1 then s1 else s1.csrWrite n v
  else (s.csrWrite n v).retire 4 1

/-- A form that writes a CSR with f of its old value, and may deliver the old value. A write of L1CFG parks first (R146). -/
def csrForm (g : BitVec 4) (d : Option (BitVec 4)) (n : Nat) (s : State) (f : Word → Word) : Next :=
  guarded g 4 s (fun s =>
    let old := s.csrRead n
    let v := f old
    let go (s : State) : State :=
      (match d with
       | some d => { s with thr := s.thr.ws d old }
       | none => s).csrRetire n v
    if n = 0x080 && !s.sramQuiet s.thr.tid.part s.thr.core then (s.sent).park .l1cfg else go s)

/-- CSRR (R182). -/
def execCsrr (g d : BitVec 4) (c : BitVec 12) (s : State) : Next :=
  guarded g 4 s (fun s => ({ s with thr := s.thr.ws d (s.csrRead c.toNat) }).retire 4 1)
/-- CSRW (R182). -/
def execCsrw (g a : BitVec 4) (c : BitVec 12) (s : State) : Next := csrForm g none c.toNat s (fun _ => s.thr.rs a)
/-- CSRS (R182). -/
def execCsrs (g d a : BitVec 4) (c : BitVec 12) (s : State) : Next := csrForm g (some d) c.toNat s (fun x => x ||| s.thr.rs a)
/-- CSRC (R182). -/
def execCsrc (g d a : BitVec 4) (c : BitVec 12) (s : State) : Next :=
  csrForm g (some d) c.toNat s (fun x => x &&& ~~~(s.thr.rs a))

/-! ## System forms -/

/-- NOP (R184). -/
def execNop (g : BitVec 4) (s : State) : Next := guarded g 4 s (fun s => s.retire 4 1)

/-- IDLE (R186). DEDUCED, log entry 55. -/
def execIdle (g : BitVec 4) (s : State) : Next :=
  guarded g 4 s (fun s => if s.thr.wake then ({ s with thr := { s.thr with wake := false } }).retire 4 1 else s.park .idle)

/-- TRAP (R187). -/
def execTrap (g : BitVec 4) (i : BitVec 8) (s : State) : Next := guarded g 4 s (fun s => s.trap 0x11 (i.setWidth 64))
/-- BKPT (R187). -/
def execBkpt (g : BitVec 4) (i : BitVec 8) (s : State) : Next := guarded g 4 s (fun s => s.trap 0x0F (i.setWidth 64))

/-- ERET with REPST.ACT: the prefix at EPC is read again and checked; a failure leaves REPST as it was (R59, R188).
DEDUCED, log entry 56. -/
def State.eretRep (s : State) : State :=
  let t := s.thr
  let fail (cause : Nat) (detail : DWord) : State := (s.charge 1).trapWith cause detail t.epc t.csr.repst true
  match s.fetchWord t.epc.toNat with
  | .wait u => u
  | .trap c => fail c t.epc
  | .ok w =>
    match decodeRaw w.toNat 0 with
    | .ok (.rep _ i j k) =>
      (match s.targetWords t.epc with
       | .wait u => u
       | .trap c => fail c (t.epc + 4)
       | .ok w0 w1 =>
         if repeatAllowed w.toNat w0.toNat then
           { s.charge 1 with thr := (s.charge 1).thr.eretRepeat w0 w1 i.toNat j.toNat k.toNat }
         else fail 0x01 (w.setWidth 64))
    | _ => fail 0x01 (w.setWidth 64)

/-- ERET (R188); it is not single-stepped. -/
def execEret (g : BitVec 4) (s : State) : Next :=
  guarded g 4 s (fun s =>
    if s.thr.epc.extractLsb' 0 2 != 0 then s.trap 0x03 s.thr.epc
    else if s.thr.csr.repst.getLsbD 31 then s.eretRep
    else { s.charge 1 with thr := (s.charge 1).thr.eretPlain })

/-- The launch of a thread. -/
def State.launch? (s : State) (p lid : Nat) : Option Launch := s.launches.find? (fun l => l.part == p && l.lid == lid)

/-- RDCYC's count: the cycles of the present core's clock since the launch's origin, without those of stops (R189).
DEDUCED, log entry 53. -/
def State.rdcyc (s : State) (t : Thread) : DWord :=
  let q := quadOf t.core
  let from0 := match s.launch? t.tid.part t.tid.lid with
    | some l => Table.getD l.origin q 0
    | none => 0
  BitVec.ofNat 64 (s.cycles q - from0)

/-- RDCYC (R189). -/
def execRdcyc (g d : BitVec 4) (w : BitVec 1) (s : State) : Next :=
  guarded g 4 s (fun s =>
    let v := s.rdcyc s.thr
    (if w == 0 then { s with thr := { s.thr.ws d (loWord v) with cycHi := hiWord v } }
     else { s with thr := s.thr.ws d s.thr.cycHi }).retire 4 1)

/-- RDTIME (R189). -/
def execRdtime (g d : BitVec 4) (w : BitVec 1) (s : State) : Next :=
  guarded g 4 s (fun s =>
    let v : DWord := BitVec.ofNat 64 s.gtime
    (if w == 0 then { s with thr := { s.thr.ws d (loWord v) with timeHi := hiWord v } }
     else { s with thr := s.thr.ws d s.thr.timeHi }).retire 4 1)

/-- RDSIG (R190). -/
def execRdsig (g d : BitVec 4) (w : BitVec 1) (s : State) : Next :=
  regForm g 1 s (fun t => t.ws d (if w == 0 then loWord t.sigHL else hiWord t.sigHL))

/-- L1INV (R192). -/
def execL1inv (g : BitVec 4) (s : State) : Next :=
  guarded g 4 s (fun s =>
    let p := s.thr.tid.part
    let c := s.thr.core
    ((((s.l1Drop c p (fun _ => true)).noInstall c p (fun _ => true)).dropFetched c p)).retire 4 1)

/-- DEFERRED_ENGINE_ERROR: the focused thread takes its pending error before its next instruction (R347). A parked IDLE,
WAITM, CWAIT or MWAIT is left and reissued after ERET. -/
def execDeferredEngineError (s : State) : Next :=
  .next (if s.errorDue then
    (match s.pendingErrs with
     | (_, w0, st) :: _ =>
       s.takeErr.trapWith (if bitsOf st 20 4 == 8 then 0x0D else 0x0C) (join st w0) s.thr.pc (repstOf s.thr.rep) true
     | [] => s)
   else s)

end Sys2Proof.Machine
end

