-- ==== Sys2Proof/Machine/Ordering.lean ====
section
/-! DEFINITION. The ordering instructions: FENCE, FENCEE, ACQ and REL (R301). -/

namespace Sys2Proof.Machine

/-- A queue holds no command and posts no message (R301). -/
def Queue.quiet (q : Queue) : Bool := q.cmds.isEmpty && !q.posting

/-- The focused thread's queues are empty and its RDMS deliveries are done. -/
def State.drained (s : State) : Bool :=
  s.thr.rdmsDue == 0 && s.thr.queues.all (fun cs => (s.slotAt cs.1 cs.2).copy.quiet && (s.slotAt cs.1 cs.2).mtx.quiet)

/-- The focused thread acquires the completions of its own commands since its last FENCEE (R298). DEDUCED, log entry 25. -/
def State.acquireOwn (s : State) : State :=
  s.thr.queues.foldl (fun s cs =>
    let k := s.slotAt cs.1 cs.2
    let g := k.copy.sigs ||| k.mtx.sigs
    if g == 0 then s
    else (s.modSlot cs.1 cs.2 (fun k => { k with copy := { k.copy with sigs := 0 }, mtx := { k.mtx with sigs := 0 } })).acquire
      1 g) s

/-- REL and FENCE attach the signature of their release to later writes (R294); at scope 0 nothing changes (R301). -/
def State.attachSig (s : State) (n : Nat) : State :=
  if n = 0 then s else { s with thr := { s.thr with attach := s.thr.stage.sig } }

/-- FENCE, and FENCEE once its queues are empty: a release at SC, then an acquire at SC applying the seen signature; w is
what it parks on. Its capped scope counts once (R291). DEDUCED, log entry 25. -/
def State.fenceBody (s : State) (sc : Nat) (w : Wait) : State :=
  let n := s.scope s.thr.tid.part sc
  let (s1, made) := s.release sc
  if made then ((s1.attachSig n).acquireSeen n).retire 4 1 else s1.park w

/-- FENCE (R301). -/
def execFence (g : BitVec 4) (sc : BitVec 3) (s : State) : Next := guarded g 4 s (fun s => s.fenceBody sc.toNat .release)

/-- FENCEE (R301). -/
def execFencee (g : BitVec 4) (sc : BitVec 3) (s : State) : Next :=
  guarded g 4 s (fun s => if s.drained then s.acquireOwn.fenceBody sc.toNat .groupRelease else s.park .fencee)

/-- ACQ (R301). -/
def execAcq (g : BitVec 4) (sc : BitVec 3) (s : State) : Next :=
  guarded g 4 s (fun s => ((s.countCap sc.toNat).acquireSeen (s.scope s.thr.tid.part sc.toNat)).retire 4 1)

/-- REL (R301). -/
def execRel (g : BitVec 4) (sc : BitVec 3) (s : State) : Next :=
  guarded g 4 s (fun s =>
    let (s1, made) := s.release sc.toNat
    if made then (s1.attachSig (s.scope s.thr.tid.part sc.toNat)).retire 4 1 else s1.park .release)

end Sys2Proof.Machine
end

