-- ==== Sys2Proof/Machine/Queues.lean ====
section
/-! DEFINITION. Inbound queues and the QUE forms (R158, R159), HALT (R185), and the wake bit (R186). -/

namespace Sys2Proof.Machine

/-- What wakes a thread's IDLE at one of its slots sets its wake bit, the one that its home slot keeps when it is away from
that slot (R166, R186). DEDUCED, log entry 55. -/
def Thread.wakeAt (t : Thread) (core k : Nat) : Thread :=
  if t.core == core && !t.travelling && t.ownsHere k then { t with wake := true }
  else match t.home with
    | some h => if h.core == core && k < 16 && k % t.step == h.slot % t.step then { t with home := some { h with wake := true } }
      else t
    | none => t

/-- The wake bit of the thread of partition p that holds a slot is set (R186). DEDUCED, log entry 55. -/
def State.wakeSlot (s : State) (p core k : Nat) : State :=
  match s.liveIn p core k with
  | some t => s.modThread t.tid (fun t => t.wakeAt core k)
  | none => s

/-- The detail of a QUEUE trap (R159, R319). -/
def queueDetail (reason k : Nat) : DWord := BitVec.ofNat 64 (16 * reason + k)

/-- Another thread parked earlier to push into the same queue (R158). DESIGN CHOICE, log entry 102. -/
def State.pushBehind (s : State) (k : Nat) : Bool :=
  let mine := match s.thr.phase with
    | .parked (.push _) => some s.thr.parkSeq
    | _ => none
  s.threads.any (fun t => t.core == s.thr.core && t.tid.part == s.thr.tid.part && !t.travelling && t.phase == .parked (.push k)
    && t.answer.isNone && (match mine with
      | some n => decide (t.parkSeq < n)
      | none => true))

/-- A push of some words into queue k; it parks while they do not fit, behind earlier pushers, and one that has parked traps with
reason 3 once the queue has no owner (R158, R159). DESIGN CHOICE, log entry 102. DESIGN CHOICE, log entry 103. -/
def State.push (s : State) (k : Nat) (ws : List Word) : State :=
  let t := s.thr
  match t.answer with
  | some a => s.answered a (fun s _ => s)
  | none =>
    let waited : Bool := match t.phase with
      | .parked (.push _) => true
      | _ => false
    if !s.ownsSlot t.tid.part t.core k then s.trap 0x0A (queueDetail 1 k)
    else if (s.liveIn t.tid.part t.core k).isNone then s.trap 0x0A (queueDetail (if waited then 3 else 2) k)
    else if 8 < (s.slotAt t.core k).inq.length + ws.length || s.pushBehind k then s.park (.push k)
    else ((s.modSlot t.core k (fun c => { c with inq := c.inq ++ ws })).wakeSlot t.tid.part t.core k).retire 4 1

/-- A pop of n words from queue k; with fewer it parks, or goes on empty-handed when it may not park. -/
def State.pop (s : State) (k n : Nat) (f : State → List Word → State) (empty : State → State) : State :=
  let t := s.thr
  if !t.ownsHere k then s.trap 0x0A (queueDetail 1 k)
  else
    let q := (s.slotAt t.core k).inq
    if q.length < n then empty s
    else f (s.modSlot t.core k (fun c => { c with inq := c.inq.drop n })) (q.take n)

/-- QPUSH (R159). -/
def execQpush (g d q : BitVec 4) (s : State) : Next := guarded g 4 s (fun s => s.push q.toNat [s.thr.rs d])

/-- QPOP (R159). -/
def execQpop (g d q : BitVec 4) (s : State) : Next :=
  guarded g 4 s (fun s => s.pop q.toNat 1
    (fun s ws => ({ s with thr := s.thr.ws d (ws.headD 0) }).retire 4 1) (fun s => s.park (.pop q.toNat)))

/-- QTRY (R159). -/
def execQtry (g d : BitVec 4) (pd : BitVec 3) (q : BitVec 4) (s : State) : Next :=
  guarded g 4 s (fun s => s.pop q.toNat 1
    (fun s ws => ({ s with thr := (s.thr.ws d (ws.headD 0)).wp pd true }).retire 4 1)
    (fun s => ({ s with thr := s.thr.wp pd false }).retire 4 1))

/-- QPUSHV (R159). -/
def execQpushv (g : BitVec 4) (v : BitVec 7) (q : BitVec 4) (s : State) : Next :=
  guarded g 4 s (fun s => s.push q.toNat ((List.range 4).map (fun i => (s.thr.rv v).extractLsb' (32 * i) 32)))

/-- QPOPV (R159). -/
def execQpopv (g : BitVec 4) (v : BitVec 7) (q : BitVec 4) (s : State) : Next :=
  guarded g 4 s (fun s => s.pop q.toNat 4
    (fun s ws => ({ s with thr := s.thr.wv v (vecOf 32 (ws.map BitVec.toNat)) }).retire 4 1) (fun s => s.park (.pop q.toNat)))

/-! ## HALT (R185) -/

/-- The classes bound to a thread's slots on the core it is on (R320). -/
def State.unbindHere (s : State) (t : Thread) : State :=
  (List.range 16).foldl (fun s c =>
    let k := s.classAt t.core c
    match k.bound with
    | some b => if t.ownsHere b && s.ownsSlot t.tid.part t.core c then s.setClass t.core c { k with bound := none } else s
    | none => s) s

/-- The classes bound to a thread's home slots while it is away end with it too. -/
def State.unbindHome (s : State) (t : Thread) : State :=
  match t.home with
  | some h => s.unbindHere { t with core := h.core, slot := h.slot }
  | none => s

/-- The slots of a thread: those it is on, and those kept for it at home. -/
def Thread.allSlots (t : Thread) : List (Nat × Nat) :=
  let at_ (core slot : Nat) : List (Nat × Nat) :=
    ((List.range 16).filter (fun k => k % t.step == slot % t.step)).map (fun k => (core, k))
  at_ t.core t.slot ++ (match t.home with
    | some h => at_ h.core h.slot
    | none => [])

/-- A halted thread's inbound queues are discarded, and the pushers parked there wake into a trap (R158, R159). DEDUCED, log entry 54. -/
def State.dropQueues (s : State) (t : Thread) : State :=
  t.allSlots.foldl (fun s ck =>
    let s1 := if (s.slotAt ck.1 ck.2).inq.isEmpty then s else s.modSlot ck.1 ck.2 (fun c => { c with inq := [] })
    s1.mapThreads (fun u =>
      if u.core == ck.1 && u.tid.part == t.tid.part && u.phase == .parked (.push ck.2) && !u.travelling then
        { u with answer := some { verdict := .trap 0x0A (queueDetail 3 ck.2).toNat } }
      else u)) s

/-- The focused thread ends (R185, R320, R322, R347). DEDUCED, log entry 54. -/
def State.haltThread (s : State) : State :=
  let t := s.thr
  let s1 := ((s.unbindHere t).unbindHome t).dropQueues t
  let s2 := { s1.charge 1 with thr := { (s1.charge 1).thr.goOn (t.pc + 4) none with phase := .halted } }
  (s2.undelivered s2.thr).excuse s2.thr

/-- HALT (R185). -/
def execHalt (g : BitVec 4) (s : State) : Next := guarded g 4 s State.haltThread

end Sys2Proof.Machine
end

