-- ==== Sys2Proof/Machine/Commands.lean ====
section
/-! DEFINITION. Command words (R61–R63), status words (R126), the completion of a command (R127, R346) and the forms that
push, wait for and query commands (R143, R267). -/

namespace Sys2Proof.Machine

/-! ## The header (R61–R63) -/

def Cmd.kind (c : Cmd) : Nat := bitsOf c.word 0 8
def Cmd.gang (c : Cmd) : Bool := c.word.getLsbD 8
def Cmd.notify (c : Cmd) : Bool := c.word.getLsbD 9
def Cmd.release (c : Cmd) : Bool := c.word.getLsbD 10
def Cmd.sc (c : Cmd) : Nat := bitsOf c.word 12 3
def Cmd.cls (c : Cmd) : Nat := bitsOf c.word 15 4
def Cmd.chan (c : Cmd) : Nat := bitsOf c.word 19 4
/-- Field [hi:lo] of the body. -/
def Cmd.f (c : Cmd) (hi lo : Nat) : Nat := bitsOf c.word lo (hi + 1 - lo)

/-- The header check of R63 and R255: 0, BADKIND or BADHDR. DEDUCED, log entry 28. -/
def State.headerCode (s : State) (p core : Nat) (mtx : Bool) (c : Cmd) : Nat :=
  let known := if mtx then 1 ≤ c.kind && c.kind ≤ 3 else 0x20 ≤ c.kind && c.kind ≤ 0x27
  if !known then 2
  else if bitsOf c.word 23 9 != 0 || c.word.getLsbD 11 || c.sc == 7 || (c.gang && !mtx)
      || (c.notify && !s.ownsSlot p core c.cls) || !s.ownsSlot p core c.chan || (mtx && c.chan != 0) then 3
  else 0

/-! ## Queues -/

def Slot.setQueue (k : Slot) (mtx : Bool) (q : Queue) : Slot := if mtx then { k with mtx := q } else { k with copy := q }
def State.queueAt (s : State) (core slot : Nat) (mtx : Bool) : Queue := (s.slotAt core slot).queue mtx
def State.setQueueAt (s : State) (core slot : Nat) (mtx : Bool) (q : Queue) : State :=
  s.modSlot core slot (fun k => k.setQueue mtx q)

/-- The command at the head changes. -/
def State.modHead (s : State) (core slot : Nat) (mtx : Bool) (f : Cmd → Cmd) : State :=
  let q := s.queueAt core slot mtx
  match q.cmds with
  | c :: r => s.setQueueAt core slot mtx { q with cmds := f c :: r }
  | [] => s

/-! ## Status (R125, R126) -/

/-- The status word of a state, code, flags and first index. -/
def statusWord (state code : Nat) (flags : BitVec 6) (first : Option Nat) : Word :=
  let f := if [0, 2, 3, 4, 7].contains code then 0 else Nat.min (first.getD 0) 0xFFFFF
  BitVec.ofNat 32 (state * 2 ^ 30 + flags.toNat * 2 ^ 24 + code * 2 ^ 20 + f)

/-- Word 0 of a completion message (R127). DESIGN CHOICE, log entry 86. -/
def Cmd.word0 (c : Cmd) (slot : Nat) : Word :=
  let kind := match c.ax with
    | some x => (Config.axKind x.push).toNat
    | none => c.kind
  BitVec.ofNat 32 (kind * 2 ^ 24 + slot * 2 ^ 16 + c.id.toNat)

/-- The code raises a deferred error (R127, R261): every code but OK and PARTIAL. -/
def errorCode (code : Nat) : Bool := 2 ≤ code

/-! ## Completion (R127) -/

/-- The partition whose command a queue of a slot holds. -/
def State.queuePart (s : State) (core slot : Nat) : Nat :=
  match s.ownerOf core slot with
  | some t => t.tid.part
  | none => 0

/-- The command at the head of a queue completes: history, pending error or event, the owner's wake bit. DEDUCED, log entry 37. -/
def State.finishCmd (s : State) (core slot : Nat) (mtx : Bool) : State :=
  let q := s.queueAt core slot mtx
  match q.cmds with
  | [] => s
  | c :: rest =>
    let status := statusWord 2 c.code c.flags c.first
    let d : Done := { id := c.id, status := status, sig := c.sig, release := c.release, sc := c.sc }
    let gone := q.hist.drop 7
    let q1 : Queue := { q with
      cmds := rest, hist := (d :: q.hist).take 8, posting := false, sigs := q.sigs ||| c.sig
      past := gone.foldl (fun g x => g ||| x.sig) q.past, pastSc := gone.foldl (fun n x => Nat.max n x.sc) q.pastSc }
    match s.ownerOf core slot with
    | none => s.setQueueAt core slot mtx q1
    | some t =>
      let bad := errorCode c.code
      let q2 := if bad && t.isLive && q1.err.isNone then { q1 with err := some (c.word0 slot, status) } else q1
      let s1 := s.setQueueAt core slot mtx q2
      let s2 := if bad && !t.isLive then
          s1.postPart t.tid.part 3 0 t.tid.idx t.tid.lid ((c.word0 slot).setWidth 64) (status.setWidth 64)
        else s1
      s2.modThread t.tid (fun t => if t.isLive then t.wakeAt core slot else t)

/-! ## The forms (R143, R267) -/

/-- The CSRs that a push captures (R138, R250). -/
def Thread.captured (t : Thread) : Captured :=
  { fmtd := t.csr.fmtd, tblp := t.csr.tblp, sclp := join t.csr.sclph t.csr.sclpl, rkey := t.csr.rkey, rstr := t.csr.rstr
    rpos := t.csr.rpos }

/-- A push once its release is made: it parks while the queue holds two commands. The signature of the release goes with the command,
into the one that its completion carries (R294, R298). DEDUCED, log entry 20. DEDUCED, log entry 27. -/
def State.enqueue (s : State) (d : BitVec 4) (w : Line) (mtx : Bool) : State :=
  let t := s.thr
  let q := s.queueAt t.core t.slot mtx
  if 2 ≤ q.cmds.length then s.park .queueFull
  else
    let c : Cmd := { id := q.next, word := w, cap := t.captured, sig := t.stage.sig }
    let s1 := s.setQueueAt t.core t.slot mtx { q with cmds := q.cmds ++ [c], next := q.next + 1 }
    ({ s1 with thr := s1.thr.ws d (q.next.setWidth 32) }).retire 4 1

/-- An ENQC or ENQM form, with a release at the header's scope or without. -/
def enqForm (g d : BitVec 4) (v : BitVec 6) (mtx rel : Bool) (s : State) : Next :=
  guarded g 4 s (fun s =>
    let w := s.thr.rvp v
    let sc := bitsOf w 12 3
    if rel then
      if sc = 7 then s.trap 0x0B ((w.extractLsb' 0 32).setWidth 64)
      else
        let (s1, made) := s.release sc
        if made then s1.enqueue d w mtx else s1.park .release
    else s.enqueue d w mtx)

/-- ENQC (R143). -/
def execEnqc (g d : BitVec 4) (v : BitVec 6) (s : State) : Next := enqForm g d v false false s
/-- ENQC.r (R143). -/
def execEnqcR (g d : BitVec 4) (v : BitVec 6) (s : State) : Next := enqForm g d v false true s
/-- ENQM (R267). -/
def execEnqm (g d : BitVec 4) (v : BitVec 6) (s : State) : Next := enqForm g d v true false s
/-- ENQM.r (R267). -/
def execEnqmR (g d : BitVec 4) (v : BitVec 6) (s : State) : Next := enqForm g d v true true s

/-- A completed command of the history. -/
def Queue.done? (q : Queue) (id : Half) : Option Done := q.hist.find? (fun d => d.id == id)

/-- The focused thread acquires a completion: at its header's scope, and at core scope at least (R143, R298). DEDUCED, log entry 25. -/
def State.acquireDone (s : State) (d : Done) : State :=
  s.acquire (Nat.max 1 (s.scope s.thr.tid.part d.sc)) d.sig

/-- The focused thread acquires the completions of the commands that have left a queue's history: a wait for one of them
acquires it whatever the history holds (R298). DEDUCED, log entry 25. -/
def State.acquirePast (s : State) (q : Queue) : State :=
  s.acquire (Nat.max 1 (s.scope s.thr.tid.part q.pastSc)) q.past

/-- A wait for a command of the thread's queue; f takes its history entry. -/
def waitForm (g a : BitVec 4) (mtx : Bool) (s : State) (f : State → Option Done → State) : Next :=
  guarded g 4 s (fun s =>
    let id : Half := (s.thr.rs a).setWidth 16
    let q := s.queueAt s.thr.core s.thr.slot mtx
    if q.cmds.any (fun c => c.id == id) then s.park .command
    else
      let d := q.done? id
      f (match d with
        | some d => s.acquireDone d
        | none => s.acquirePast q) d)

/-- The status that a history entry, or none, gives (R143). -/
def doneStatus (d : Option Done) : Word :=
  match d with
  | some d => d.status
  | none => statusWord 3 0 0 none

/-- CWAIT (R143). -/
def execCwait (g a : BitVec 4) (s : State) : Next := waitForm g a false s (fun s _ => s.retire 4 1)

/-- MWAIT (R267). -/
def execMwait (g d a : BitVec 4) (s : State) : Next :=
  waitForm g a true s (fun s e => ({ s with thr := s.thr.ws d (doneStatus e) }).retire 4 1)

/-- CSTAT (R143): an acquire when it returns STATE 2 of a command with RELEASE = 1 (R298). -/
def execCstat (g d a : BitVec 4) (s : State) : Next :=
  guarded g 4 s (fun s =>
    let id : Half := (s.thr.rs a).setWidth 16
    let q := s.queueAt s.thr.core s.thr.slot false
    match q.cmds.find? (fun c => c.id == id) with
    | some c =>
      let w := statusWord (match c.state with
        | .queued => 0
        | _ => 1) 0 (if c.state == .queued then 0 else c.flags) none
      ({ s with thr := s.thr.ws d w }).retire 4 1
    | none =>
      let e := q.done? id
      let s1 := match e with
        | some x => if x.release then s.acquireDone x else s
        | none => s
      ({ s1 with thr := s1.thr.ws d (doneStatus e) }).retire 4 1)

end Sys2Proof.Machine
end

