-- ==== Sys2Proof/Machine/Messages.lean ====
section
/-! DEFINITION. Message classes and the MSG forms (R317–R320), and the arrival of messages. -/

namespace Sys2Proof.Machine

/-! ## Classes (R317) -/

/-- The sender of an accepted message is told: a parked thread is woken, an engine's command completes (R127). -/
def State.accepted (s : State) (p core : Nat) (k : Sender) : State :=
  match k with
  | .thread tid seq => s.send p core (.wake tid seq {})
  | .engine c slot mtx => s.finishCmd c slot mtx
  | .comb _ | .sequencer => s

/-- A message lands in a class queue with room for it; the bound thread's wake bit is set (R186, R317). -/
def State.landMsg (s : State) (p : Nat) (m : MsgPkt) : State :=
  let k := s.classAt m.core m.cls
  let s1 := (s.setClass m.core m.cls { k with queue := k.queue ++ [m.msg] }).accepted p m.core m.sender
  match k.bound with
  | some b => s1.wakeSlot p m.core b
  | none => s1

/-- A message that reaches its core lands, or waits there behind the others while its queue is full. -/
def State.offerMsg (s : State) (p : Nat) (m : MsgPkt) : State :=
  let k := s.classAt m.core m.cls
  if k.queue.length < 4 && k.waiting.isEmpty then s.landMsg p m
  else s.setClass m.core m.cls { k with waiting := k.waiting ++ [m] }

/-- The oldest message of a class is taken, and the oldest waiting one is accepted in its place. -/
def State.takeMsg (s : State) (p core c : Nat) : State :=
  let k := s.classAt core c
  match k.waiting with
  | [] => s.setClass core c { k with queue := k.queue.drop 1 }
  | m :: r => (s.setClass core c { k with queue := k.queue.drop 1, waiting := r }).landMsg p m

/-- MESSAGE_ARRIVAL: a message reaches its core; those of one sender to one class arrive in their order (R317, R320). -/
def execMessageArrival (n : Nat) (s : State) : Next :=
  .next (match s.packet? n with
  | some { body := .msg m, part := p, src := src, .. } =>
    if s.net.any (fun k => k.seq < n && k.src == src && (match k.body with
      | .msg q => q.core == m.core && q.cls == m.cls
      | _ => false)) then s
    else (s.dropPacket n).offerMsg p m
  | _ => s)

/-! ## The forms (R319, R320) -/

/-- The target of a message: core and class, when no reserved bit is set and the core lies in the region (R320). -/
def State.msgTarget (s : State) (p : Nat) (t : Word) : Option (Nat × Nat) :=
  let x := bitsOf t 10 10
  let y := bitsOf t 20 10
  if bitsOf t 30 2 != 0 || bitsOf t 4 6 != 0 || !shHasRel (s.shape p) x y then none
  else some (shCore (s.shape p) x y, bitsOf t 0 4)

/-- Word i of the four from s(4n). -/
def Thread.quad (t : Thread) (n : BitVec 2) (i : BitVec 2) : Word := t.rs (n ++ i)
/-- Write the four words from s(4n). -/
def Thread.wquad (t : Thread) (n : BitVec 2) (m : Msg) : Thread :=
  (((t.ws (n ++ 0#2) m.w0).ws (n ++ 1#2) m.w1).ws (n ++ 2#2) m.w2).ws (n ++ 3#2) m.w3

/-- SEND (R320). -/
def State.sendMsg (s : State) (a : BitVec 4) (b : BitVec 2) : State :=
  let t := s.thr
  match t.answer with
  | some r => s.answered r (fun s _ => s.retire 4 1)
  | none =>
    if t.stage.sent then s.park .send
    else
      let dest := t.rs a
      match s.msgTarget t.tid.part dest with
      | none => s.trap 0x0A (queueDetail 5 (bitsOf dest 0 4))
      | some (core, c) =>
        if !s.ownsSlot t.tid.part core c then s.trap 0x0A (queueDetail 4 c)
        else
          let (s1, made) := s.release 4
          if !made then s1.park .release
          else
            let m : Msg := { w0 := t.quad b 0, w1 := t.quad b 1, w2 := t.quad b 2, w3 := t.quad b 3, sig := s1.thr.stage.sig }
            let k : MsgPkt := { core := core, cls := c, msg := m, sender := .thread t.tid s1.seqno }
            ((s1.request (.msg k)).sent).park .send

/-- SEND (R320). -/
def execSend (g a : BitVec 4) (b : BitVec 2) (s : State) : Next := guarded g 4 s (fun s => s.sendMsg a b)

/-- Class c is bound to one of the focused thread's slots on its core. -/
def State.boundHere (s : State) (c : Nat) : Bool :=
  match (s.classAt s.thr.core c).bound with
  | some b => s.ownsSlot s.thr.tid.part s.thr.core c && s.thr.ownsHere b
  | none => false

/-- The focused thread takes a message into four registers and acquires with its signature (R298, R320). -/
def State.takeInto (s : State) (d : BitVec 2) (c : Nat) (m : Msg) : State :=
  let s1 := (s.takeMsg s.thr.tid.part s.thr.core c).acquire 4 m.sig
  { s1 with thr := s1.thr.wquad d m }

/-- WAITM (R320). -/
def execWaitm (g : BitVec 4) (d : BitVec 2) (c : BitVec 4) (s : State) : Next :=
  guarded g 4 s (fun s =>
    if !s.boundHere c.toNat then s.trap 0x0A (queueDetail 6 c.toNat)
    else match (s.classAt s.thr.core c.toNat).queue with
      | [] => s.park .message
      | m :: _ => (s.takeInto d c.toNat m).retire 4 1)

/-- POLLM (R320). -/
def execPollm (g : BitVec 4) (d : BitVec 2) (a c : BitVec 4) (s : State) : Next :=
  guarded g 4 s (fun s =>
    if !s.boundHere c.toNat then s.trap 0x0A (queueDetail 6 c.toNat)
    else match (s.classAt s.thr.core c.toNat).queue with
      | [] => ({ s with thr := s.thr.ws a 0 }).retire 4 1
      | m :: _ =>
        let s1 := s.takeInto d c.toNat m
        ({ s1 with thr := s1.thr.ws a 1 }).retire 4 1)

/-- MBIND: at U level a class of a slot that the partition does not own is PRIV, at issue (R319, R320). -/
def execMbind (g a c : BitVec 4) (s : State) : Next :=
  guarded g 4 s (fun s =>
    let t := s.thr
    let k := s.classAt t.core c.toNat
    let b := bitsOf (t.rs a) 0 4
    let other : Bool := match k.bound with
      | some x => !t.ownsHere x
      | none => false
    if !s.ownsSlot t.tid.part t.core c.toNat then
      if t.prv then s.trap 0x0A (queueDetail 4 c.toNat)
      else s.trap 0x02 (BitVec.ofNat 64 ((encode (.mbind g a c)).headD 0))
    else if !t.ownsHere b then s.trap 0x0A (queueDetail 8 c.toNat)
    else if other then s.trap 0x0A (queueDetail 7 c.toNat)
    else
      let s1 := s.setClass t.core c.toNat { k with bound := some b }
      (if k.queue.isEmpty then s1 else { s1 with thr := { s1.thr with wake := true } }).retire 4 1)

/-- MUNBIND (R320). -/
def execMunbind (g c : BitVec 4) (s : State) : Next :=
  guarded g 4 s (fun s =>
    (if s.boundHere c.toNat then
      s.setClass s.thr.core c.toNat { s.classAt s.thr.core c.toNat with bound := none }
     else s).retire 4 1)

end Sys2Proof.Machine
end

