-- ==== Sys2Proof/Machine/Groups.lean ====
section
/-! DEFINITION. Groups and barriers (R321–R323): the GRP forms and the barrier homes. -/

namespace Sys2Proof.Machine

/-! ## At the barrier home (R321, R322) -/

/-- The identity of a reduction, and the combination of two values under it (R322). -/
def redIdentity (r : Nat) : Word :=
  match r with
  | 1 => 0xFFFFFFFF
  | 2 => 0x80000000
  | 3 => 0x7FFFFFFF
  | _ => 0
def redCombine (r : Nat) (a b : Word) : Word :=
  match r with
  | 0 => a ||| b
  | 1 => a &&& b
  | 2 => if a.slt b then b else a
  | 3 => if a.slt b then a else b
  | _ => a + b

def State.bar? (s : State) (p lid gid : Nat) : Option Bar :=
  s.bars.find? (fun b => b.part == p && b.lid == lid && b.gid == gid)

def State.setBar (s : State) (b : Bar) : State :=
  { s with bars := s.bars.map (fun (x : Bar) => if x.part == b.part && x.lid == b.lid && x.gid == b.gid then b else x) }

/-- The home answers a member that waits. -/
def State.answerArrive (s : State) (b : Bar) (a : Arrive) (r : Answer) : State :=
  match a.seq with
  | some n =>
    { s with net := s.net ++ [{ seq := n, part := b.part, src := sliceCore (barrierHome (s.shape b.part) b.lid b.gid)
                                body := .wake a.tid n r }] }
  | none => s

/-- Whether an arrival stops a BAR or BARX member until its phase completes. -/
def ArriveKind.waits (k : ArriveKind) : Bool :=
  match k with
  | .bar | .barx .. => true
  | _ => false

/-- The members that count toward the phase in progress (R322). DEDUCED, log entry 31. -/
def Bar.present (b : Bar) : Nat := b.arrived.length + (b.excused.filter (fun t => !b.arrived.contains t)).length

/-- The union of the signatures of the phases completed from one on. -/
def Bar.union (b : Bar) (since : Nat) : Sig := (b.sigs.drop since).foldl (fun g x => g ||| x) 0

/-- GWT's wait is over: C is past the phase (R323). -/
def Bar.passed (b : Bar) (phase : Nat) : Bool :=
  (BitVec.ofNat 32 b.c - BitVec.ofNat 32 phase - 1).toNat < 2 ^ 31

/-- Phase C completes: its members are answered with its union and its reduction, then the GWTs that C has passed. -/
def State.completePhase (s : State) (b : Bar) : State × Bar :=
  let b1 := { b with c := b.c + 1, arrived := [], red := none, acc := 0, sig := 0, sigs := b.sigs ++ [b.sig], waiting := [] }
  let gwts := b.waiting.filter (fun a => !a.kind.waits)
  let s1 := (b.waiting.filter (fun a => a.kind.waits)).foldl (fun s a =>
    s.answerArrive b a { val := b.acc.toNat, sig := b.sig }) s
  let s2 := (gwts.filter (fun a => b1.passed a.phase)).foldl (fun s a =>
    match a.kind with
    | .gwt since => s.answerArrive b a { val := b1.c, sig := b1.union since }
    | _ => s) s1
  (s2, { b1 with waiting := gwts.filter (fun a => !b1.passed a.phase) })

/-- An arrival to the phase in progress; a second reduction is refused and does not count (R322). -/
def State.arriveNow (s : State) (b : Bar) (a : Arrive) : State × Bar :=
  let joined := { b with arrived := b.arrived ++ [a.tid], sig := b.sig ||| a.sig }
  match a.kind with
  | .barx r v =>
    (match b.red with
     | some q =>
       if q == r then (s, { joined with acc := redCombine r b.acc v, waiting := b.waiting ++ [a] })
       else (s.answerArrive b a { verdict := .trap 0x14 0 }, b)
     | none => (s, { joined with red := some r, acc := redCombine r (redIdentity r) v, waiting := b.waiting ++ [a] }))
  | .bar => (s, { joined with waiting := b.waiting ++ [a] })
  | _ => (s.answerArrive b a {}, joined)

/-- The phases that can complete do, and the early arrivals of each next phase are taken in their order (R322). DEDUCED, log entry 31. -/
def State.runPhases (s : State) (b : Bar) (fuel : Nat) : State × Bar :=
  match fuel with
  | 0 => (s, b)
  | k + 1 =>
    if b.arrived.isEmpty || b.present < b.count then (s, b)
    else
      let (s1, b1) := s.completePhase b
      let now := b1.early.filter (fun a => a.phase ≤ b1.c)
      let r := now.foldl (fun (sb : State × Bar) a => sb.1.arriveNow sb.2 a)
        (s1, { b1 with early := b1.early.filter (fun a => !(a.phase ≤ b1.c)) })
      State.runPhases r.1 r.2 k

/-- What reaches a barrier home takes effect there. -/
def State.arriveAt (s : State) (b : Bar) (a : Arrive) : State :=
  let (s1, b1) : State × Bar :=
    match a.kind with
    | .excuse => (s, { b with excused := if b.excused.contains a.tid then b.excused else b.excused ++ [a.tid] })
    | .gwt since =>
      if b.passed a.phase then (s.answerArrive b a { val := b.c, sig := b.union since }, b)
      else (s, { b with waiting := b.waiting ++ [a] })
    | _ => if a.phase ≤ b.c then s.arriveNow b a else (s, { b with early := b.early ++ [a] })
  let (s2, b2) := s1.runPhases b1 (b1.early.length + 1)
  s2.setBar b2

/-- BARRIER_ARRIVAL: an arrival, a GWT or an excuse reaches its barrier home, those of one thread in their order (R322). -/
def execBarrierArrival (n : Nat) (s : State) : Next :=
  .next (match s.packet? n with
  | some { body := .arrive a, .. } =>
    if s.net.any (fun k => k.seq < n && (match k.body with
      | .arrive q => q.tid == a.tid && q.gid == a.gid
      | _ => false)) then s
    else match s.bar? a.tid.part a.tid.lid a.gid with
      | some b => (s.dropPacket n).arriveAt b a
      | none => s.dropPacket n
  | _ => s)

/-! ## The forms (R323) -/

/-- GROUP's detail. -/
def groupDetail (reason m : Nat) : DWord := BitVec.ofNat 64 (16 * reason + m)

/-- A GRP form: its group, then f with the group's id and the phase to arrive at. -/
def State.grpForm (s : State) (m : BitVec 2) (f : State → Nat → Nat → State) : State :=
  let gid := s.thr.grp[m.toNat]
  if gid == 0xFFFF then s.trap 0x14 (groupDetail 1 m.toNat) else f s gid.toNat s.thr.arr[m.toNat]

def Thread.setArr (t : Thread) (m : BitVec 2) (n : Nat) : Thread := { t with arr := t.arr.set m.toNat n (by exact m.isLt) }
def Thread.setAcquired (t : Thread) (m : BitVec 2) (n : Nat) : Thread :=
  { t with acquired := t.acquired.set m.toNat n (by exact m.isLt) }

/-- An arrival that waits for its answer; `done` takes it. A refusal is GROUP with reason 2. -/
def State.arriveForm (s : State) (m : BitVec 2) (kind : ArriveKind) (done : State → Nat → Answer → State) : State :=
  s.grpForm m (fun s gid k =>
    match s.thr.answer with
    | some a =>
      (match a.verdict with
       | .ok => done s k a
       | .trap .. => s.trap 0x14 (groupDetail 2 m.toNat))
    | none =>
      if s.thr.stage.sent then s.park .barrier
      else
        let (s1, made) := s.release 4
        if !made then s1.park .groupRelease
        else
          let a : Arrive := { tid := s1.thr.tid, gid := gid, phase := k, kind := kind, sig := s1.thr.stage.sig
                              seq := some s1.seqno }
          ((s1.request (.arrive a)).sent).park .barrier)

/-- BAR and BARX after the phase has completed: the acquire of its union. DEDUCED, log entry 31. -/
def State.barDone (s : State) (m : BitVec 2) (k : Nat) (a : Answer) : State :=
  let s1 := s.acquire 4 a.sig
  { s1 with thr := (s1.thr.setArr m (k + 1)).setAcquired m (k + 1) }

/-- BAR (R323). -/
def execBar (g : BitVec 4) (m : BitVec 2) (s : State) : Next :=
  guarded g 4 s (fun s => s.arriveForm m .bar (fun s k a => (s.barDone m k a).retire 4 1))

/-- BARX (R323). -/
def execBarx (g d a : BitVec 4) (m : BitVec 2) (r : BitVec 3) (s : State) : Next :=
  guarded g 4 s (fun s => s.arriveForm m (.barx r.toNat (s.thr.rs a)) (fun s k v =>
    let s1 := s.barDone m k v
    ({ s1 with thr := s1.thr.ws d (BitVec.ofNat 32 v.val) }).retire 4 1))

/-- GARV after its arrival: the phase it arrived at. -/
def State.garvDone (s : State) (d : BitVec 4) (m : BitVec 2) (k : Nat) : State :=
  ({ s with thr := (s.thr.setArr m (k + 1)).ws d (BitVec.ofNat 32 k) }).retire 4 1

/-- The completed-phase count C of a group of the focused thread's launch. -/
def State.completed (s : State) (gid : Nat) : Nat :=
  match s.bar? s.thr.tid.part s.thr.tid.lid gid with
  | some b => b.c
  | none => 0

/-- GARV (R323): it parks only while its phase is above C. DEDUCED, log entry 31. -/
def execGarv (g d : BitVec 4) (m : BitVec 2) (s : State) : Next :=
  guarded g 4 s (fun s =>
    if s.thr.stage.sent || s.completed s.thr.grp[m.toNat].toNat < s.thr.arr[m.toNat] then
      s.arriveForm m .garv (fun s k _ => s.garvDone d m k)
    else s.grpForm m (fun s gid k =>
      let (s1, made) := s.release 4
      if !made then s1.park .groupRelease
      else
        let a : Arrive := { tid := s1.thr.tid, gid := gid, phase := k, kind := .garv, sig := s1.thr.stage.sig, seq := none }
        (s1.send s1.thr.tid.part s1.thr.core (.arrive a)).garvDone d m k))

/-- GWT past its wait: the acquire of the union of the phases completed since the thread's last barrier acquire. -/
def State.gwtDone (s : State) (m : BitVec 2) (c : Nat) (g : Sig) : State :=
  let s1 := s.acquire 4 g
  ({ s1 with thr := s1.thr.setAcquired m c }).retire 4 1

/-- GWT (R323): one for a completed phase retires without parking; another waits at its group's home. DEDUCED, log entry 31. -/
def execGwt (g a : BitVec 4) (m : BitVec 2) (s : State) : Next :=
  guarded g 4 s (fun s =>
    s.grpForm m (fun s gid _ =>
      match s.thr.answer with
      | some r => s.gwtDone m r.val r.sig
      | none =>
        if s.thr.stage.sent then s.park .barrier
        else
          let phase := (s.thr.rs a).toNat
          let since := s.thr.acquired[m.toNat]
          match (s.bar? s.thr.tid.part s.thr.tid.lid gid).filter (fun b => b.passed phase) with
          | some b => s.gwtDone m b.c (b.union since)
          | none =>
            let q : Arrive := { tid := s.thr.tid, gid := gid, phase := phase, kind := .gwt since, seq := some s.seqno }
            ((s.request (.arrive q)).sent).park .barrier))

end Sys2Proof.Machine
end

