-- ==== Sys2Proof/Machine/Vector.lean ====
section
/-! DEFINITION. Vector arithmetic, compares, masks, widening, reductions, dot products, permutes, immediates and moves
(R214–R227). -/

namespace Sys2Proof.Machine

/-! ## Shared operations (R214, R215) -/

/-- Element count of a T value. -/
def tElems (t : Nat) : Nat := 128 / tWidth t

/-- The elements of a register under a T value. -/
def telems (x : VReg) (t : Nat) : List Nat := elems x (tWidth t) (tElems t)

/-- The value of an element under a T value. -/
def tVal (t x : Nat) : Val := codeVal (tCode t) x

/-- An arithmetic form retires its flags, and a float form under SR advances the position once (R215). -/
def Thread.arithDone (t : Thread) (ty : Nat) (fs : List Flags) : Thread :=
  let t1 := t.orFlags (fs.foldl (fun a f => a ||| f) 0)
  if !tIsInt ty && t.csr.rm == 5 then { t1 with csr := t1.csr.advance } else t1

/-- An exact result rounded to a float type under FMODE with element i's draw (R215). -/
def Thread.roundEl (t : Thread) (code i : Nat) (sat : Bool) (r : Val × Flags) : Nat × Flags :=
  (codeFmt code).finish t.csr.rm sat (t.csr.draw t.csr.rm i) r

/-- An integer result modulo its width. -/
def wrapEl (w : Nat) (x : Int) : Nat × Flags := (wrapInt x w, 0)

/-- An element-wise form on va, vb and the old vd: fi on integers, ff on exact float values. -/
def Thread.elementwise (t : Thread) (d a b : BitVec 7) (ty : BitVec 3) (fi : Nat → Nat → Nat → Nat × Flags)
    (ff : Nat → Nat → Nat → Val × Flags) : Thread :=
  let n := ty.toNat
  let w := tWidth n
  let rs := (List.range (tElems n)).map (fun i =>
    let x := elem (t.rv a) w i
    let y := elem (t.rv b) w i
    let z := elem (t.rv d) w i
    if tIsInt n then fi x y z else t.roundEl (tCode n) i (t.csr.sat n) (ff x y z))
  (t.wv d (vecOf w (rs.map (·.1)))).arithDone n (rs.map (·.2))

/-- The same when no result is rounded: f gives each element outright. -/
def Thread.elementwiseRaw (t : Thread) (d a b : BitVec 7) (ty : BitVec 3) (f : Nat → Nat → Nat → Nat × Flags) : Thread :=
  let n := ty.toNat
  let w := tWidth n
  let rs := (List.range (tElems n)).map (fun i => f (elem (t.rv a) w i) (elem (t.rv b) w i) (elem (t.rv d) w i))
  (t.wv d (vecOf w (rs.map (·.1)))).arithDone n (rs.map (·.2))

/-- Signed values of two elements. -/
def sInt (ty : BitVec 3) (x : Nat) : Int := sextNat x (tWidth ty.toNat)

/-- An arithmetic form of VA1 or VA2. -/
def vaForm (d a b : BitVec 7) (ty : BitVec 3) (s : State) (fi : Int → Int → Int → Int)
    (ff : Nat → Val → Val → Val → Val × Flags) : Next :=
  vecForm 1 s (fun t => t.elementwise d a b ty
    (fun x y z => wrapEl (tWidth ty.toNat) (fi (sInt ty x) (sInt ty y) (sInt ty z)))
    (fun x y z => ff t.csr.rm (tVal ty.toNat x) (tVal ty.toNat y) (tVal ty.toNat z)))

/-- A product and an addend, each with a sign, summed exactly: an invalid product is invalid whatever the addend (R217).
DEDUCED, log entry 57. -/
def fusedVals (rm : Nat) (a b : Val) (negP : Bool) (c : Val) : Val × Flags :=
  let p := mulVals a b
  let r := sumVals rm [if negP then p.1.negate else p.1, c]
  (r.1, r.2 ||| (p.2 &&& fNV))

/-- The smaller (or larger) of two float elements: a NaN gives the canonical NaN, −0 is below +0 (R217). -/
def pickFloat (ty : Nat) (least : Bool) (x y : Nat) : Nat × Flags :=
  let f := codeFmt (tCode ty)
  let a := f.value x
  let b := f.value y
  if a.isNan || b.isNan then (f.nan.getD 0, fNF)
  else
    let le : Bool := match cmpVals a b with
      | some .lt => true
      | some .eq => a.neg? || !b.neg?
      | _ => false
    (if le == least then x else y, flagIf (a.isInf || b.isInf) fNF)

/-- The smaller or larger of two elements of any type. -/
def pickEl (ty : BitVec 3) (least : Bool) (x y : Nat) : Nat × Flags :=
  if tIsInt ty.toNat then (if (sInt ty x ≤ sInt ty y) == least then x else y, 0) else pickFloat ty.toNat least x y

/-! ## VA1, VA2, VA3 (R216, R217) -/

/-- VADD (R216). -/
def execVadd (d a b : BitVec 7) (t : BitVec 3) (s : State) : Next :=
  vaForm d a b t s (fun a b _ => a + b) (fun rm a b _ => sumVals rm [a, b])
/-- VSUB (R216). -/
def execVsub (d a b : BitVec 7) (t : BitVec 3) (s : State) : Next :=
  vaForm d a b t s (fun a b _ => a - b) (fun rm a b _ => sumVals rm [a, b.negate])
/-- VMIN (R216). -/
def execVmin (d a b : BitVec 7) (t : BitVec 3) (s : State) : Next :=
  vecForm 1 s (fun x => x.elementwiseRaw d a b t (fun p q _ => pickEl t true p q))
/-- VMAX (R216). -/
def execVmax (d a b : BitVec 7) (t : BitVec 3) (s : State) : Next :=
  vecForm 1 s (fun x => x.elementwiseRaw d a b t (fun p q _ => pickEl t false p q))
/-- VMUL (R216). -/
def execVmul (d a b : BitVec 7) (t : BitVec 3) (s : State) : Next :=
  vaForm d a b t s (fun a b _ => a * b) (fun _ a b _ => mulVals a b)
/-- VFMA (R216). -/
def execVfma (d a b : BitVec 7) (t : BitVec 3) (s : State) : Next :=
  vaForm d a b t s (fun a b c => a * b + c) (fun rm a b c => fusedVals rm a b false c)
/-- VFMS (R216). -/
def execVfms (d a b : BitVec 7) (t : BitVec 3) (s : State) : Next :=
  vaForm d a b t s (fun a b c => a * b - c) (fun rm a b c => fusedVals rm a b false c.negate)
/-- VFNMA (R216). -/
def execVfnma (d a b : BitVec 7) (t : BitVec 3) (s : State) : Next :=
  vaForm d a b t s (fun a b c => c - a * b) (fun rm a b c => fusedVals rm a b true c)

/-- A clamped element of VADDS or VSUBS. -/
def clampEl (ty : BitVec 3) (x : Int) : Nat × Flags :=
  let c := tCode ty.toNat
  let (y, f) := clampInt x (codeLo c) (codeHi c)
  (wrapInt y (codeWidth c), f)
/-- VADDS (R216). -/
def execVadds (d a b : BitVec 7) (t : BitVec 3) (s : State) : Next :=
  vecForm 1 s (fun x => x.elementwiseRaw d a b t (fun p q _ => clampEl t (sInt t p + sInt t q)))
/-- VSUBS (R216). -/
def execVsubs (d a b : BitVec 7) (t : BitVec 3) (s : State) : Next :=
  vecForm 1 s (fun x => x.elementwiseRaw d a b t (fun p q _ => clampEl t (sInt t p - sInt t q)))
/-- VMULH (R216). -/
def execVmulh (d a b : BitVec 7) (t : BitVec 3) (s : State) : Next :=
  vecForm 1 s (fun x => x.elementwiseRaw d a b t (fun p q _ =>
    (wrapInt (sInt t p * sInt t q) (2 * tWidth t.toNat) / 2 ^ tWidth t.toNat, 0)))
/-- VABS (R216, R217). -/
def execVabs (d a : BitVec 7) (t : BitVec 3) (s : State) : Next :=
  vecForm 1 s (fun x => x.elementwiseRaw d a a t (fun p _ _ =>
    if tIsInt t.toNat then wrapEl (tWidth t.toNat) (sInt t p).natAbs
    else
      let f := codeFmt (tCode t.toNat)
      match f.value p with
      | .nan => (f.nan.getD 0, fNF)
      | .inf _ => (p % 2 ^ (f.w - 1), fNF)
      | .fin .. => (p % 2 ^ (f.w - 1), 0)))

/-! ## Logical operations and shifts (R218) -/

/-- A form that writes vd from two registers and touches nothing else. -/
def vbits (d a b : BitVec 7) (s : State) (f : VReg → VReg → VReg) : Next :=
  vecForm 1 s (fun t => t.wv d (f (t.rv a) (t.rv b)))
/-- VAND (R218). -/
def execVand (d a b : BitVec 7) (s : State) : Next := vbits d a b s (fun a b => a &&& b)
/-- VOR (R218). -/
def execVor (d a b : BitVec 7) (s : State) : Next := vbits d a b s (fun a b => a ||| b)
/-- VXOR (R218). -/
def execVxor (d a b : BitVec 7) (s : State) : Next := vbits d a b s (fun a b => a ^^^ b)
/-- VANDN (R218). -/
def execVandn (d a b : BitVec 7) (s : State) : Next := vbits d a b s (fun a b => a &&& ~~~b)

/-- Shifts of one element of w bits by c below w (R218, R225). -/
def shlEl (w x c : Nat) : Nat := x * 2 ^ c % 2 ^ w
def shrEl (_ x c : Nat) : Nat := x / 2 ^ c
def sarEl (w x c : Nat) : Nat := wrapInt (sextNat x w / (2 ^ c : Nat)) w
def rolEl (w x c : Nat) : Nat := (x * 2 ^ c + x / 2 ^ (w - c)) % 2 ^ w

/-- A shift of each element by the low bits of vb's. -/
def shiftForm (d a b : BitVec 7) (ty : BitVec 3) (s : State) (f : Nat → Nat → Nat → Nat) : Next :=
  let w := tWidth ty.toNat
  vbits d a b s (fun x y => vecOf w ((List.range (tElems ty.toNat)).map (fun i => f w (elem x w i) (elem y w i % w))))
/-- VSHL (R218). -/
def execVshl (d a b : BitVec 7) (t : BitVec 3) (s : State) : Next := shiftForm d a b t s shlEl
/-- VSHR (R218). -/
def execVshr (d a b : BitVec 7) (t : BitVec 3) (s : State) : Next := shiftForm d a b t s shrEl
/-- VSAR (R218). -/
def execVsar (d a b : BitVec 7) (t : BitVec 3) (s : State) : Next := shiftForm d a b t s sarEl
/-- VROL (R218). -/
def execVrol (d a b : BitVec 7) (t : BitVec 3) (s : State) : Next := shiftForm d a b t s rolEl

/-! ## Compares and masks (R219, R220) -/

/-- The mask whose bits of element i all take the i-th result. -/
def maskOf (e : Nat) (bs : List Bool) : Half :=
  BitVec.ofNat 16 (packElems e (bs.map (fun b => if b then 2 ^ e - 1 else 0)))

/-- A compare: fi on encodings of integers, ff on float values; `unary` reads va alone. -/
def Thread.vcompare (t : Thread) (d : BitVec 3) (a b : BitVec 7) (ty : BitVec 3) (unary : Bool) (fi : Nat → Nat → Bool)
    (ff : Val → Val → Bool) : Thread :=
  let n := ty.toNat
  let xs := telems (t.rv a) n
  let ys := telems (t.rv b) n
  if tIsInt n then t.wk d (maskOf (tWidth n / 8) ((xs.zip ys).map (fun p => fi p.1 p.2)))
  else
    let vs := xs.map (tVal n)
    let ws := ys.map (tVal n)
    let nf := vs.any Val.nonFinite || (!unary && ws.any Val.nonFinite)
    (t.wk d (maskOf (tWidth n / 8) ((vs.zip ws).map (fun p => ff p.1 p.2)))).orFlags (flagIf nf fNF)

/-- VCEQ (R219). -/
def execVceq (d : BitVec 3) (a b : BitVec 7) (t : BitVec 3) (s : State) : Next :=
  vecForm 1 s (fun x => x.vcompare d a b t false (· == ·) eqVals)
/-- VCNE (R219). -/
def execVcne (d : BitVec 3) (a b : BitVec 7) (t : BitVec 3) (s : State) : Next :=
  vecForm 1 s (fun x => x.vcompare d a b t false (· != ·) (fun p q => !eqVals p q))
/-- VCLT (R219). -/
def execVclt (d : BitVec 3) (a b : BitVec 7) (t : BitVec 3) (s : State) : Next :=
  vecForm 1 s (fun x => x.vcompare d a b t false (fun p q => sInt t p < sInt t q) ltVals)
/-- VCLE (R219). -/
def execVcle (d : BitVec 3) (a b : BitVec 7) (t : BitVec 3) (s : State) : Next :=
  vecForm 1 s (fun x => x.vcompare d a b t false (fun p q => sInt t p ≤ sInt t q) (fun p q => ltVals p q || eqVals p q))
/-- VCLTU (R219). -/
def execVcltu (d : BitVec 3) (a b : BitVec 7) (t : BitVec 3) (s : State) : Next :=
  vecForm 1 s (fun x => x.vcompare d a b t false (fun p q => p < q) ltVals)
/-- VCLEU (R219). -/
def execVcleu (d : BitVec 3) (a b : BitVec 7) (t : BitVec 3) (s : State) : Next :=
  vecForm 1 s (fun x => x.vcompare d a b t false (fun p q => p ≤ q) (fun p q => ltVals p q || eqVals p q))
/-- VCUN (R219). -/
def execVcun (d : BitVec 3) (a b : BitVec 7) (t : BitVec 3) (s : State) : Next :=
  vecForm 1 s (fun x => x.vcompare d a b t false (fun _ _ => false) (fun p q => p.isNan || q.isNan))
/-- VCNF (R219). -/
def execVcnf (d : BitVec 3) (a : BitVec 7) (t : BitVec 3) (s : State) : Next :=
  vecForm 1 s (fun x => x.vcompare d a a t true (fun _ _ => false) (fun p _ => p.nonFinite))

/-- A form on masks (R220). -/
def maskForm (d a b : BitVec 3) (s : State) (f : Half → Half → Half) : Next :=
  vecForm 1 s (fun t => t.wk d (f (t.rk a) (t.rk b)))
/-- KAND (R220). -/
def execKand (d a b : BitVec 3) (s : State) : Next := maskForm d a b s (fun a b => a &&& b)
/-- KOR (R220). -/
def execKor (d a b : BitVec 3) (s : State) : Next := maskForm d a b s (fun a b => a ||| b)
/-- KXOR (R220). -/
def execKxor (d a b : BitVec 3) (s : State) : Next := maskForm d a b s (fun a b => a ^^^ b)
/-- KNOT (R220). -/
def execKnot (d a : BitVec 3) (s : State) : Next := maskForm d a a s (fun a _ => ~~~a)

/-! ## Widening (R221) -/

/-- The wide code of a T value (R214). -/
def wideCode (t : Nat) : Nat :=
  match t with
  | 0 => 2
  | 1 => 4
  | 3 | 4 => 8
  | _ => 6

/-- A widening form: fi and ff give the exact wide result from both sources and the old wide element. -/
def Thread.widen (t : Thread) (d : BitVec 6) (a b : BitVec 7) (ty : BitVec 3) (fi : Int → Int → Int → Int)
    (ff : Nat → Val → Val → Val → Val × Flags) : Thread :=
  let n := ty.toNat
  let wc := wideCode n
  let ww := codeWidth wc
  let old := (t.rvp d).toNat
  let rs := (List.range (tElems n)).map (fun i =>
    let x := elem (t.rv a) (tWidth n) i
    let y := elem (t.rv b) (tWidth n) i
    let z := old / 2 ^ (ww * i) % 2 ^ ww
    if tIsInt n then wrapEl ww (fi (sInt ty x) (sInt ty y) (sextNat z ww))
    else t.roundEl wc i false (ff t.csr.rm (tVal n x) (tVal n y) ((codeFmt wc).value z)))
  (t.wvp d (BitVec.ofNat 256 (packElems ww (rs.map (·.1))))).arithDone n (rs.map (·.2))

/-- VWADD (R221). -/
def execVwadd (d : BitVec 6) (a b : BitVec 7) (t : BitVec 3) (s : State) : Next :=
  vecForm 1 s (fun x => x.widen d a b t (fun a b _ => a + b) (fun rm a b _ => sumVals rm [a, b]))
/-- VWMUL (R221). -/
def execVwmul (d : BitVec 6) (a b : BitVec 7) (t : BitVec 3) (s : State) : Next :=
  vecForm 1 s (fun x => x.widen d a b t (fun a b _ => a * b) (fun _ a b _ => mulVals a b))
/-- VWMAC (R221). -/
def execVwmac (d : BitVec 6) (a b : BitVec 7) (t : BitVec 3) (s : State) : Next :=
  vecForm 1 s (fun x => x.widen d a b t (fun a b c => c + a * b) (fun rm a b c => fusedVals rm a b false c))
/-- VWSUM (R221). -/
def execVwsum (d : BitVec 6) (a b : BitVec 7) (t : BitVec 3) (s : State) : Next :=
  vecForm 1 s (fun x => x.widen d a b t (fun a b c => c + a + b) (fun rm a b c => sumVals rm [c, a, b]))

/-! ## Reductions and prefix sums (R222) -/

/-- The sum of a carry and some elements: integers wrap, a float sum is rounded once with element i's draw. -/
def Thread.sumEls (t : Thread) (ty i : Nat) (xs : List Nat) : Nat × Flags :=
  if tIsInt ty then wrapEl (tWidth ty) (xs.foldl (fun r x => r + sextNat x (tWidth ty)) 0)
  else t.roundEl (tCode ty) i (t.csr.sat ty) (sumVals t.csr.rm (xs.map (tVal ty)))

/-- A reduction into element 0; the others become 0. -/
def Thread.reduce (t : Thread) (d a b : BitVec 7) (ty : BitVec 3) (f : List Nat → Nat × Flags) : Thread :=
  let n := ty.toNat
  let r := f (elem (t.rv b) (tWidth n) 0 :: telems (t.rv a) n)
  (t.wv d (vecOf (tWidth n) [r.1])).arithDone n [r.2]

/-- The smallest (or largest) of some elements. -/
def pickAll (ty : BitVec 3) (least : Bool) (xs : List Nat) : Nat × Flags :=
  match xs with
  | [] => (0, 0)
  | x :: r => r.foldl (fun p y => let q := pickEl ty least p.1 y; (q.1, p.2 ||| q.2)) (pickEl ty least x x)

/-- VHADD (R222). -/
def execVhadd (d a b : BitVec 7) (t : BitVec 3) (s : State) : Next :=
  vecForm 1 s (fun x => x.reduce d a b t (x.sumEls t.toNat 0))
/-- VHMAX (R222). -/
def execVhmax (d a b : BitVec 7) (t : BitVec 3) (s : State) : Next :=
  vecForm 1 s (fun x => x.reduce d a b t (pickAll t false))
/-- VHMIN (R222). -/
def execVhmin (d a b : BitVec 7) (t : BitVec 3) (s : State) : Next :=
  vecForm 1 s (fun x => x.reduce d a b t (pickAll t true))
/-- VSCAN (R222). -/
def execVscan (d a b : BitVec 7) (t : BitVec 3) (s : State) : Next :=
  vecForm 1 s (fun x =>
    let n := t.toNat
    let c := elem (x.rv b) (tWidth n) (tElems n - 1)
    let rs := (List.range (tElems n)).map (fun i => x.sumEls n i (c :: (telems (x.rv a) n).take (i + 1)))
    (x.wv d (vecOf (tWidth n) (rs.map (·.1)))).arithDone n (rs.map (·.2)))

/-! ## Dot products (R223) -/

/-- A dot product into the lanes of vd: k elements of width w to a lane. -/
def dotForm (d a b : BitVec 7) (w : Nat) (s : State) (f : Nat → List (Nat × Nat) → Nat × Flags) : Next :=
  vecForm 1 s (fun t =>
    let k := 32 / w
    let rs := (List.range 4).map (fun i =>
      f (elem (t.rv d) 32 i) ((List.range k).map (fun j => (elem (t.rv a) w (k * i + j), elem (t.rv b) w (k * i + j)))))
    (t.wv d (vecOf 32 (rs.map (·.1)))).orFlags (rs.foldl (fun fl r => fl ||| r.2) 0))
/-- VDOT4 (R223). -/
def execVdot4 (d a b : BitVec 7) (s : State) : Next :=
  dotForm d a b 8 s (fun c ps => wrapEl 32 (ps.foldl (fun r p => r + sextNat p.1 8 * sextNat p.2 8) (c : Int)))
/-- VDOT4U (R223). -/
def execVdot4u (d a b : BitVec 7) (s : State) : Next :=
  dotForm d a b 8 s (fun c ps => wrapEl 32 (ps.foldl (fun r p => r + ((p.1 * p.2 : Nat) : Int)) (c : Int)))

/-- A float dot product: one group of R212, rounded once under RNE. -/
def dotFloat (f : Fmt) (c : Nat) (ps : List (Nat × Nat)) : Nat × Flags :=
  fmtF.finish 0 false 0 (groupSum (fmtF.value c) (ps.map (fun p => (f.value p.1, f.value p.2))))
/-- VDOT2B (R223). -/
def execVdot2b (d a b : BitVec 7) (s : State) : Next := dotForm d a b 16 s (dotFloat fmtBf)
/-- VDOT2H (R223). -/
def execVdot2h (d a b : BitVec 7) (s : State) : Next := dotForm d a b 16 s (dotFloat fmtHf)

/-! ## Permutes (R224) -/

/-- A permute: f gives the elements of vd from those of va, vb. -/
def permForm (d a b : BitVec 7) (ty : BitVec 3) (s : State) (f : Nat → List Nat → List Nat → List Nat) : Next :=
  let n := ty.toNat
  vbits d a b s (fun x y => vecOf (tWidth n) (f (tElems n) (telems x n) (telems y n)))

/-- Two lists' elements in turn. -/
def interleave (xs ys : List Nat) : List Nat := (xs.zip ys).flatMap (fun p => [p.1, p.2])

/-- VZIPL (R224). -/
def execVzipl (d a b : BitVec 7) (t : BitVec 3) (s : State) : Next :=
  permForm d a b t s (fun n x y => interleave (x.take (n / 2)) (y.take (n / 2)))
/-- VZIPH (R224). -/
def execVziph (d a b : BitVec 7) (t : BitVec 3) (s : State) : Next :=
  permForm d a b t s (fun n x y => interleave (x.drop (n / 2)) (y.drop (n / 2)))
/-- VUNZL (R224). -/
def execVunzl (d a b : BitVec 7) (t : BitVec 3) (s : State) : Next :=
  permForm d a b t s (fun n x y => (List.range n).map (fun i => (x ++ y).getD (2 * i) 0))
/-- VUNZH (R224). -/
def execVunzh (d a b : BitVec 7) (t : BitVec 3) (s : State) : Next :=
  permForm d a b t s (fun n x y => (List.range n).map (fun i => (x ++ y).getD (2 * i + 1) 0))
/-- VSHUF (R224). -/
def execVshuf (d a b : BitVec 7) (t : BitVec 3) (s : State) : Next :=
  permForm d a b t s (fun _ x y => y.map (fun j => x.getD (j % 256) 0))
/-- VSEL (R224). -/
def execVsel (d a b : BitVec 7) (t : BitVec 3) (s : State) : Next :=
  permForm d a b t s (fun n x y => (List.range n).map (fun i =>
    if (s.thr.rk 0).getLsbD (tWidth t.toNat / 8 * i) then x.getD i 0 else y.getD i 0))
/-- VREV (R224). -/
def execVrev (d a : BitVec 7) (t : BitVec 3) (s : State) : Next := permForm d a a t s (fun _ x _ => x.reverse)
/-- VDUPL (R224). -/
def execVdupl (d a : BitVec 7) (t : BitVec 3) (s : State) : Next :=
  permForm d a a t s (fun n x _ => interleave (x.take (n / 2)) (x.take (n / 2)))

/-! ## Immediates (R225) -/

/-- Each element of va under f. -/
def immForm (d a : BitVec 7) (ty : BitVec 3) (s : State) (f : Nat → Nat → Nat) : Next :=
  let n := ty.toNat
  vbits d a a s (fun x _ => vecOf (tWidth n) ((telems x n).map (f (tWidth n))))
/-- VADDI (R225). -/
def execVaddi (d a : BitVec 7) (i : BitVec 8) (t : BitVec 3) (s : State) : Next :=
  immForm d a t s (fun w x => wrapInt (x + i.toInt) w)
/-- VSPLI (R225): with a float T it is an arithmetic form and advances the position under SR (R215). -/
def execVspli (d : BitVec 7) (i : BitVec 8) (t : BitVec 3) (s : State) : Next :=
  vecForm 1 s (fun x =>
    let n := t.toNat
    let v := if tIsInt n then wrapInt i.toInt (tWidth n)
      else ((codeFmt (tCode n)).round 0 false 0 (.fin (decide (i.toInt < 0)) i.toInt.natAbs 0)).1
    (x.wv d (vecOf (tWidth n) (List.replicate (tElems n) v))).arithDone n [])
/-- VSHLI (R225). -/
def execVshli (d a : BitVec 7) (i : BitVec 8) (t : BitVec 3) (s : State) : Next :=
  immForm d a t s (fun w x => shlEl w x i.toNat)
/-- VSHRI (R225). -/
def execVshri (d a : BitVec 7) (i : BitVec 8) (t : BitVec 3) (s : State) : Next :=
  immForm d a t s (fun w x => shrEl w x i.toNat)
/-- VSARI (R225). -/
def execVsari (d a : BitVec 7) (i : BitVec 8) (t : BitVec 3) (s : State) : Next :=
  immForm d a t s (fun w x => sarEl w x i.toNat)
/-- VEXTB (R225). -/
def execVextb (d a : BitVec 7) (i : BitVec 8) (s : State) : Next :=
  vbits d a d s (fun x y => ((y ++ x) >>> (8 * i.toNat)).setWidth 128)

/-! ## Moves (R226) -/

/-- VMOVS (R226). -/
def execVmovs (d : BitVec 7) (r : BitVec 4) (t : BitVec 3) (s : State) : Next :=
  vecForm 1 s (fun x => x.wv d (vecOf (tWidth t.toNat) (List.replicate (tElems t.toNat) (x.rs r).toNat)))
/-- VINS (R226). -/
def execVins (d : BitVec 7) (i r : BitVec 4) (t : BitVec 3) (s : State) : Next :=
  vecForm 1 s (fun x => x.wvLane d (i.toNat * tWidth t.toNat / 32) (vecOf (tWidth t.toNat) ((telems (x.rv d) t.toNat).set i.toNat (x.rs r).toNat)))
/-- VEXT (R226). -/
def execVext (i : BitVec 4) (a : BitVec 7) (r : BitVec 4) (t : BitVec 3) (s : State) : Next :=
  vecForm 1 s (fun x =>
    let v := elem (x.rv a) (tWidth t.toNat) i.toNat
    x.ws r (if t.toNat < 2 then BitVec.ofInt 32 (sextNat v (tWidth t.toNat)) else BitVec.ofNat 32 v))
/-- KMOVS (R226). -/
def execKmovs (k : BitVec 3) (r : BitVec 4) (s : State) : Next := vecForm 1 s (fun x => x.wk k ((x.rs r).setWidth 16))
/-- KEXT (R226). -/
def execKext (k : BitVec 3) (r : BitVec 4) (s : State) : Next := vecForm 1 s (fun x => x.ws r ((x.rk k).setWidth 32))

end Sys2Proof.Machine
end

