-- ==== Sys2Proof/Machine/Special.lean ====
section
/-! DEFINITION. Conversion, the block and table forms, the special functions and the generator forms (R228–R243, R248). -/

namespace Sys2Proof.Machine

/-! ## The decode table (R202, R232, R238) -/

/-- The scratchpad offset of the decode table's entry i under a TBLP. -/
def tableOff (tblp : Word) (i : Nat) : Nat := bitsOf tblp 10 6 * 1024 + 4 * i

/-- Entry i as a value; an entry beyond the scratchpad is refused before its value is used. -/
def State.tableVal (s : State) (p core : Nat) (tblp : Word) (i : Nat) : Val :=
  fmtX.value (leNat ((span (tableOff tblp i) 4).map (fun o => Memory.read s.sram (s.sramAddr p core o))) % 2 ^ 19)

/-- What reading some entries comes to: all read, or the first that is refused, poisoned or above a watermark. -/
inductive TableRead where
  | ok
  | trap (cause : Nat) (off : Nat)
  | park (off : Nat)
deriving DecidableEq, Repr

/-- The checks of R152, steps 3, 4 and 6, on each entry in turn (R232); which failing entry of several elements decides is not
stated, and the elements are taken in ascending order. DESIGN CHOICE, log entry 106. -/
def State.tableCheck (s : State) (p core : Nat) (tblp : Word) (is : List Nat) : TableRead :=
  match is with
  | [] => .ok
  | i :: r =>
    let off := tableOff tblp i
    let offs := span off 4
    if s.scratchSize p core < off + 4 then .trap 0x05 off
    else if s.aboveMark p core offs then .park off
    else if s.sramPois.contains (s.sramAddr p core off) then .trap 0x06 off
    else State.tableCheck s p core tblp r

/-- The own-core window address of an offset (R65). -/
def ownWindow (off : Nat) : DWord := BitVec.ofNat 64 (0xFF00000000000000 + off)

/-- A form of a cost that reads the entries `reads` and then changes its thread by f; the bank that holds the table passes to
the reader's partition first (R144), and a parked write of L1CFG holds its reads (R146). They are ordinary scratchpad reads, which may
return the carrying write of a release (R232, R296). -/
def State.tableForm (s : State) (cost : Nat) (reads : (Nat → Val) → Thread → List Nat)
    (f : (Nat → Val) → Thread → Thread) : State :=
  let p := s.thr.tid.part
  let c := s.thr.core
  let tblp := s.thr.csr.tblp
  let need (s : State) : List Nat := reads (s.tableVal p c tblp) s.thr
  let s1 := if (need s).isEmpty || s.scratchSize p c < tableOff tblp 1 then s
    else s.touchBank p (s.sramAddr p c (tableOff tblp 0))
  let is := need s1
  if !is.isEmpty && s.l1cfgWaits p c then s.holdAccess
  else match s1.tableCheck p c tblp is with
  | .trap cause off => s1.trapCost cost cause (ownWindow off)
  | .park off => s1.park (.watermark (16 + off))
  | .ok =>
    let s2 := (s1.markAcquire (is.flatMap (fun i => span (tableOff tblp i) 4))).saw { saw := if is.isEmpty then 0 else sigOnes }
    ({ s2 with thr := f (s1.tableVal p c tblp) s2.thr }).retire 4 cost

/-! ## VCVT (R228–R232) -/

/-- An element of a code at a place in a register; x is 19 bits in its 32 (R196). -/
def cvtEl (c : Nat) (x : VReg) (i : Nat) : Nat :=
  let v := elem x (codeWidth c) i
  if c == 13 then v % 2 ^ 19 else v

/-- One element of VCVT: result, flags and the table entries read (R230). -/
def cvtOne (t : Nat → Val) (st dt rm : Nat) (sat : Bool) (g x : Nat) : Nat × Flags × List Nat :=
  if dt == 12 then tcEncode t rm g (codeVal st x)
  else if st == 12 then
    let r := toCode dt rm sat g (t x)
    (r.1, r.2, [x])
  else
    let r := convert st dt rm sat g x
    (r.1, r.2, [])

/-- All elements of VCVT. -/
def Thread.cvtAll (t : Thread) (tab : Nat → Val) (a : BitVec 7) (st dt rm : Nat) (sat : Bool) :
    List (Nat × Flags × List Nat) :=
  (List.range (128 / Nat.max (codeWidth st) (codeWidth dt))).map (fun i =>
    cvtOne tab st dt rm sat (t.csr.draw rm i) (cvtEl st (t.rv a) i))

/-- VCVT (R230). -/
def execVcvt (d a : BitVec 7) (st dt : BitVec 4) (rm : BitVec 3) (sat : BitVec 1) (s : State) : Next :=
  let m := rm.toNat
  let go (tab : Nat → Val) (t : Thread) := t.cvtAll tab a st.toNat dt.toNat m (sat == 1)
  .next (s.tableForm 1 (fun tab t => (go tab t).flatMap (·.2.2)) (fun tab t =>
    let rs := go tab t
    let t1 := (t.wv d (vecOf (codeWidth dt.toNat) (rs.map (·.1)))).orFlags (rs.foldl (fun f r => f ||| r.2.1) 0)
    if m == 5 && !(codeInt st.toNat && codeInt dt.toNat) then { t1 with csr := t1.csr.advance } else t1))

/-! ## Block and table forms (R233–R238) -/

/-- The ST code of a block element type of major 0x2C (R233). -/
def blockCode (t : Nat) : Nat :=
  match t with
  | 0 => 0
  | 1 => 11
  | 6 => 9
  | _ => 10

/-- The registers of a group, from its lowest. -/
def Thread.group (t : Thread) (base n : Nat) : List VReg := (List.range n).map (fun i => t.rv (BitVec.ofNat 7 (base + i)))
/-- The FP32 elements of a group. -/
def Thread.groupF (t : Thread) (base n : Nat) : List Nat := (t.group base n).flatMap (fun x => elems x 32 4)
/-- Write FP32 elements to a group, four to a register. -/
def Thread.writeGroup (t : Thread) (base : Nat) (n : Nat) (xs : List Nat) : Thread :=
  (List.range n).foldl (fun t i => t.wv (BitVec.ofNat 7 (base + i)) (vecOf 32 ((xs.drop (4 * i)).take 4))) t

/-- VQBLK (R234). -/
def execVqblk (d : BitVec 7) (a r : BitVec 4) (ty : BitVec 3) (s : State) : Next :=
  vecForm 8 s (fun t =>
    let c := blockCode ty.toNat
    let (scale, codes, fl) := quantise c (t.groupF (8 * a.toNat) 8)
    let t1 := if c == 11 then t.wv d (vecOf 4 codes)
      else (t.wv d (vecOf 8 (codes.take 16))).wv (d + 1) (vecOf 8 (codes.drop 16))
    (t1.ws r (BitVec.ofNat 32 scale)).orFlags fl)

/-- VMXDEC (R235). -/
def execVmxdec (d : BitVec 4) (a : BitVec 7) (r : BitVec 4) (ty : BitVec 3) (s : State) : Next :=
  vecForm 4 s (fun t =>
    let c := blockCode ty.toNat
    let w := codeWidth c
    let codes := if c == 11 then elems (t.rv a) w 32 else elems (t.rv a) w 16 ++ elems (t.rv (a + 1)) w 16
    let scale := (t.rs r).toNat % 256
    let rs := codes.map (fun x => f32 (scaleVal scale (blockVal c x)))
    (t.writeGroup (8 * d.toNat) 8 (rs.map (·.1))).orFlags (rs.foldl (fun f r => f ||| r.2) 0))

/-- VDEC (R236). -/
def execVdec (d : BitVec 5) (a : BitVec 7) (r : BitVec 4) (s : State) : Next :=
  .next (s.tableForm 4
    (fun _ t => if (t.rs r).toNat % 256 == 0xFF then [] else elems (t.rv a) 8 16)
    (fun tab t =>
      let scale := (t.rs r).toNat % 256
      let rs := (elems (t.rv a) 8 16).map (fun x => f32 (scaleVal scale (tab x)))
      (t.writeGroup (4 * d.toNat) 4 (rs.map (·.1))).orFlags (rs.foldl (fun f r => f ||| r.2) 0)))

/-- An exact value over an E8M0 scale (R237). -/
def unscale (scale : Nat) (v : Val) : Val :=
  match v with
  | .fin s m e => .fin s m (e - ((scale : Int) - 127))
  | v => v

/-- The codes of VENC, with flags and entries read (R237). -/
def Thread.encodeAll (t : Thread) (tab : Nat → Val) (a : BitVec 5) (r : BitVec 4) : List (Nat × Flags × List Nat) :=
  let scale := (t.rs r).toNat % 256
  let xs := t.groupF (4 * a.toNat) 4
  if scale == 0xFF then xs.map (fun _ => (0, fNV ||| fNF, []))
  else (xs.zip (List.range 16)).map (fun xi =>
    tcEncode tab t.csr.rm (t.csr.draw t.csr.rm xi.2) (unscale scale (fmtF.value xi.1)))

/-- VENC (R237). -/
def execVenc (d : BitVec 7) (a : BitVec 5) (r : BitVec 4) (s : State) : Next :=
  .next (s.tableForm 8 (fun tab t => (t.encodeAll tab a r).flatMap (·.2.2)) (fun tab t =>
    let rs := t.encodeAll tab a r
    let t1 := (t.wv d (vecOf 8 (rs.map (·.1)))).orFlags (rs.foldl (fun f r => f ||| r.2.1) 0)
    if t.csr.rm == 5 then { t1 with csr := t1.csr.advance } else t1))

/-! ## Special functions (R239–R241) -/

/-- A function of each FP32 element of va and vb. -/
def specialForm (d a b : BitVec 7) (cost : Nat) (s : State) (f : Nat → Nat → Nat × Flags) : Next :=
  vecForm cost s (fun t =>
    let rs := ((elems (t.rv a) 32 4).zip (elems (t.rv b) 32 4)).map (fun p => f p.1 p.2)
    (t.wv d (vecOf 32 (rs.map (·.1)))).orFlags (rs.foldl (fun f r => f ||| r.2) 0))
/-- VRCP (R239, R240). -/
def execVrcp (d a : BitVec 7) (s : State) : Next := specialForm d a a 4 s (fun x _ => rcpF x)
/-- VRSQ (R239, R240). -/
def execVrsq (d a : BitVec 7) (s : State) : Next := specialForm d a a 4 s (fun x _ => rsqF x)
/-- VEXP2 (R239, R240). -/
def execVexp2 (d a : BitVec 7) (s : State) : Next := specialForm d a a 4 s (fun x _ => vexp2F x)
/-- VLOG2 (R239, R240). -/
def execVlog2 (d a : BitVec 7) (s : State) : Next := specialForm d a a 4 s (fun x _ => vlog2F x)
/-- VSQRT (R239, R240). -/
def execVsqrt (d a : BitVec 7) (s : State) : Next := specialForm d a a 8 s (fun x _ => sqrtF x)
/-- VDIV (R239, R241). -/
def execVdiv (d a b : BitVec 7) (s : State) : Next := specialForm d a b 8 s divF

/-- A form that rounds each element of va to an integer, with or without draws (R242). -/
def Thread.integral (t : Thread) (d a : BitVec 7) (ty : BitVec 3) (rm : Nat) : Thread :=
  let n := ty.toNat
  let rs := (List.range (tElems n)).map (fun i =>
    toIntegral (codeFmt (tCode n)) rm (t.csr.draw rm i) (elem (t.rv a) (tWidth n) i))
  (t.wv d (vecOf (tWidth n) (rs.map (·.1)))).orFlags (rs.foldl (fun f r => f ||| r.2) 0)

/-- VFLR (R242). -/
def execVflr (d a : BitVec 7) (ty : BitVec 3) (s : State) : Next := vecForm 1 s (fun t => t.integral d a ty 3)
/-- VRND (R242). -/
def execVrnd (d a : BitVec 7) (ty : BitVec 3) (s : State) : Next :=
  vecForm 1 s (fun t =>
    let t1 := t.integral d a ty t.csr.rm
    if t.csr.rm == 5 then { t1 with csr := t1.csr.advance } else t1)

/-! ## The generator forms (R248) -/

/-- The output that VRNG and VRNGF take: at RPOS + zext(sS). -/
def Thread.output (t : Thread) (r : BitVec 4) : VReg := mix t.csr.rkey t.csr.rstr (t.csr.rpos + (t.rs r).setWidth 64)

/-- VRNG (R248). -/
def execVrng (d : BitVec 7) (r : BitVec 4) (s : State) : Next := vecForm 1 s (fun t => t.wv d (t.output r))
/-- VRNGF (R248). -/
def execVrngf (d : BitVec 7) (r : BitVec 4) (ty : BitVec 3) (s : State) : Next :=
  vecForm 1 s (fun t =>
    let n := ty.toNat
    let f := codeFmt (tCode n)
    let pr := f.m + 1
    t.wv d (vecOf (tWidth n) ((elems (t.output r) (tWidth n) (tElems n)).map (fun c =>
      (f.roundMag 0 false 0 false (Mag.of (c / 2 ^ (tWidth n - pr)) (-(pr : Int)))).1))))

end Sys2Proof.Machine
end

