-- ==== Sys2Proof/Machine/Engine.lean ====
section
/-! DEFINITION. The copy engine (R121–R142): the checks at the head of a queue, the chunks of a running command, and its
completion. An element's reads come before the chunk's writes; an element is written whole or not at all. -/

namespace Sys2Proof.Machine

/-! ## Accesses of an engine -/

/-- Who accesses, and for whom. -/
structure Engine where
  ag : Agent
  who : Who
  p : Nat
  core : Nat
  /-- What the page request of its pass has come to (R92). -/
  pf : Pf := .clear

/-- What an access yields: a value, a poisoned or refused word (R128), or the code that stops the command. -/
inductive Rd where
  | val (v : Nat) (f : Flags)
  | bad
  | stop (code : Nat)
deriving DecidableEq, Repr

/-- A result, or the block that an access meets: the state that it leaves behind, and the page request it waits for. -/
inductive Res (α : Type) where
  | ok (s : State) (a : α)
  | block (t : State) (rid : Option Nat)

/-- The status code of an access's failure (R125): PERM or XLATE. -/
def stopCode (cause : Nat) : Nat := if cause = 0x04 then 6 else 5

/-- One access within a row, with an access class (R81). -/
def State.engOpAs (s : State) (e : Engine) (va acc : Nat) (op : MemOp) : Res Rd :=
  match s.agentOpAs e.ag e.who e.pf e.p e.core va acc op with
  | .ok s1 a =>
    (match a.verdict with
     | .ok => .ok s1 (.val a.val ((a.words.headD 0).setWidth 6))
     | .trap .. => .ok s1 .bad)
  | .wait t => .block t none
  | .fault t rid => .block t (some rid)
  | .fail t c => .ok t (.stop (stopCode c))

/-- One access within a row, with the access class of its operation. -/
def State.engOp (s : State) (e : Engine) (va : Nat) (op : MemOp) : Res Rd := s.engOpAs e va op.accClass op

/-- n bytes from an address, cut at 32-byte boundaries: address, offset in the run, length. -/
def chop (va n : Nat) (off fuel : Nat) : List (Nat × Nat × Nat) :=
  match fuel with
  | 0 => []
  | k + 1 =>
    if n ≤ off then []
    else
      let a := (va + off) % 2 ^ 64
      let len := Nat.min (n - off) (32 - a % 32)
      (a, off, len) :: chop va n (off + len) k

/-- The cuts of a run. -/
def cuts (va n : Nat) : List (Nat × Nat × Nat) := chop va n 0 (n / 32 + 2)

/-- Read the cuts of a run, lowest first. -/
def State.engReadCuts (s : State) (e : Engine) (cs : List (Nat × Nat × Nat)) (v : Nat) : Res Rd :=
  match cs with
  | [] => .ok s (.val v 0)
  | (a, off, len) :: rest =>
    match s.engOp e a (.read .row len) with
    | .ok s1 (.val x _) => State.engReadCuts s1 e rest (v + x * 2 ^ (8 * off))
    | r => r

/-- Read n bytes. DEDUCED, log entry 34. -/
def State.engRead (s : State) (e : Engine) (va n : Nat) : Res Rd := s.engReadCuts e (cuts va n) 0

/-! ## What a command writes -/

/-- One write of an element: n bytes, or one nibble of a byte, or an update of CRED, OPTADAM or OPTSGD; no address when the destination runs
past a scratchpad's window (R135). -/
structure Put where
  dst : Option Nat
  n : Nat
  data : Nat := 0
  nibble : Option Bool := none
  /-- The operands of a word that the slice's ALU updates for OPTADAM or OPTSGD (R104, R140). -/
  fuse : Option (Bool × Word × Word × Word) := none
  red : Option (Nat × Nat × Bool × Nat) := none
deriving DecidableEq, Repr

/-- A part of an element in one chunk: its writes and the flags of its arithmetic; `bad` when a word that it needs is
poisoned. -/
structure Piece where
  elem : Nat
  outs : List Put
  flags : Flags := 0
  bad : Bool := false
deriving DecidableEq, Repr

/-- What a pass over a chunk has come to. -/
structure Pass where
  stop : Option (Nat × Nat) := none
  first : Option Nat := none
  skip : Option Nat := none
  flags : Flags := 0
  sig : Sig := 0
deriving DecidableEq, Repr

/-- The signature bits of a write: of its sector, or all ones for a scratchpad (R294, R296). DEDUCED, log entry 26. -/
def writeSig (va : Nat) : Sig := if isWindow va then sigOnes else sigBits (sectorNo va)

/-- The channel that an armed command fills (R131, R132). -/
structure Arm where
  chan : Nat
  sc : Nat
deriving DecidableEq, Repr

/-- Bytes of a window address count as filled in an armed channel; an advance wakes its owner (R132, R186). -/
def State.markFilled (s : State) (e : Engine) (arm : Option Arm) (va n : Nat) : State :=
  match arm with
  | none => s
  | some m =>
    match (if isWindow va then s.window e.p e.core va [va % 2 ^ 16] else none) with
    | none => s
    | some (c, off) =>
      (cuts off n).foldl (fun s x =>
        let (k, up) := (s.slotAt c m.chan).fill x.1 x.2.2 m.sc
        let s1 := s.setSlot c m.chan k
        if up then s1.wakeSlot e.p c m.chan else s1) s

/-- Write the cuts of a run. -/
def State.engWriteCuts (s : State) (e : Engine) (arm : Option Arm) (data : Nat) (cs : List (Nat × Nat × Nat)) (f : Sig) :
    Res (Rd × Sig) :=
  match cs with
  | [] => .ok s (.val 0 0, f)
  | (a, off, len) :: rest =>
    match s.engOp e a (.write len (BitVec.ofNat 256 (data / 2 ^ (8 * off) % 2 ^ (8 * len))) false) with
    | .ok s1 (.val _ _) => State.engWriteCuts (s1.markFilled e arm a len) e arm data rest (f ||| writeSig a)
    | .ok s1 r => .ok s1 (r, f)
    | .block t rid => .block t rid

/-- One write of an element. A lone nibble is put into its byte, for which a writable page suffices (R81). DEDUCED, log entry 35. -/
def State.engWrite (s : State) (e : Engine) (arm : Option Arm) (o : Put) : Res (Rd × Sig) :=
  match o.dst with
  | none => .ok s (.stop 5, 0)
  | some a =>
    match o.red with
    | some (c, rm, sat, g) =>
      (match s.engOp e a (.red c rm sat o.data g) with
       | .ok s1 (.val _ f) => .ok (s1.markFilled e arm a o.n) (.val 0 f, writeSig a)
       | .ok s1 r => .ok s1 (r, 0)
       | .block t rid => .block t rid)
    | none =>
      match o.nibble with
      | none =>
        (match o.fuse with
         | some (last, x, y, z) =>
           (match s.engOp e a (.fuse (BitVec.ofNat 32 o.data) last x y z) with
            | .ok s1 (.val _ f) => .ok s1 (.val 0 f, writeSig a)
            | .ok s1 r => .ok s1 (r, 0)
            | .block t rid => .block t rid)
         | none => s.engWriteCuts e arm o.data (cuts a o.n) 0)
      | some hi =>
        (match s.engOpAs e a 1 (.read .row 1) with
         | .ok s1 (.val b _) =>
           let d := if hi then b % 16 + 16 * o.data else b / 16 * 16 + o.data
           s1.engWriteCuts e arm d (cuts a 1) 0
         | .ok s1 r => .ok s1 (r, 0)
         | .block t rid => .block t rid)

/-- The writes of one element. -/
def State.engWrites (s : State) (e : Engine) (arm : Option Arm) (os : List Put) (f : Flags) (g : Sig) :
    Res (Rd × Flags × Sig) :=
  match os with
  | [] => .ok s (.val 0 0, f, g)
  | o :: rest =>
    match s.engWrite e arm o with
    | .ok s1 (.val _ x, y) => State.engWrites s1 e arm rest (f ||| x) (g ||| y)
    | .ok s1 (r, _) => .ok s1 (r, f, g)
    | .block t rid => .block t rid

/-- A skipped element's units count as filled (R128, R132). -/
def State.markOuts (s : State) (e : Engine) (arm : Option Arm) (os : List Put) : State :=
  os.foldl (fun s o =>
    match o.dst with
    | some a => s.markFilled e arm a o.n
    | none => s) s

/-- An index joins the first skipped or failing one. -/
def firstOf (a : Option Nat) (i : Nat) : Option Nat :=
  match a with
  | some k => some (Nat.min k i)
  | none => some i

/-- The write side of a chunk, element after element, up to the element that stops the command (R128, R129). DEDUCED, log entry 26. -/
def State.writeChunk (s : State) (e : Engine) (arm : Option Arm) (groups : List Piece) (r : Pass) : Res Pass :=
  match groups with
  | [] => .ok s r
  | g :: rest =>
    let halted : Bool := match r.stop with
      | some (k, _) => k ≤ g.elem
      | none => false
    if halted then .ok s r
    else if g.bad || r.skip == some g.elem then
      State.writeChunk (s.markOuts e arm g.outs) e arm rest { r with first := firstOf r.first g.elem, skip := some g.elem }
    else
      match s.engWrites e arm g.outs 0 0 with
      | .ok s1 (.val _ _, f, y) =>
        State.writeChunk s1 e arm rest { r with flags := r.flags ||| g.flags ||| f, sig := r.sig ||| y }
      | .ok _ (.bad, _, _) =>
        State.writeChunk (s.markOuts e arm g.outs) e arm rest { r with first := firstOf r.first g.elem, skip := some g.elem }
      | .ok _ (.stop c, _, _) => .ok s { r with stop := some (g.elem, c) }
      | .block t rid => .block t rid

/-- Neighbouring pieces of one element as one. -/
def mergePieces (ps : List Piece) : List Piece :=
  match ps with
  | [] => []
  | p :: rest =>
    match mergePieces rest with
    | q :: r =>
      if p.elem = q.elem then
        { elem := p.elem, outs := p.outs ++ q.outs, flags := p.flags ||| q.flags, bad := p.bad || q.bad } :: r
      else p :: q :: r
    | [] => [p]

/-- The read side of a chunk: its pieces, and the element that stops the command. -/
abbrev Gathered := List Piece × Option (Nat × Nat)

/-- Read the pieces of a chunk one after the other: f gives a piece, or the code of a failure. -/
def State.gatherAll {α : Type} (s : State) (f : State → α → Res (Except (Nat × Nat) Piece)) (is : List α) (ps : List Piece) :
    Res Gathered :=
  match is with
  | [] => .ok s (ps, none)
  | i :: rest =>
    match f s i with
    | .ok s1 (.ok p) => State.gatherAll s1 f rest (ps ++ [p])
    | .ok s1 (.error x) => .ok s1 (ps, some x)
    | .block t rid => .block t rid

/-! ## Bodies (R124, R134–R140) -/

/-- The virtual address of an address field (R124). -/
def bodyAddr (a : Nat) : Nat := if natBit a 56 then 0xFE00000000000000 + a % 2 ^ 56 else a % 2 ^ 56
/-- DEDUCED, log entry 34. -/
def bodyAddrOk (a : Nat) : Bool := !natBit a 56 || bitsOf (BitVec.ofNat 57 a) 48 8 == 0
/-- An address field of the body by its top bit. -/
def Cmd.addrAt (c : Cmd) (hi : Nat) : Nat := bodyAddr (c.f hi (hi - 56))
def Cmd.addrOk (c : Cmd) (hi : Nat) : Bool := bodyAddrOk (c.f hi (hi - 56))
def Cmd.armed (c : Cmd) : Bool := c.word.getLsbD 32

/-- The elements of a command, minus none: runs of bytes count bytes, the others elements. -/
def Cmd.total (c : Cmd) : Nat :=
  match c.ax with
  | some x => x.len
  | none =>
    match c.kind with
    | 0x20 => (c.f 125 118 + 1) * (c.f 117 110 + 1) * (c.f 141 126 + 1)
    | 0x21 => (c.f 158 139 + 1) * (c.f 174 159 + 1)
    | 0x22 => (c.f 68 49 + 1) * (c.f 84 69 + 1)
    | 0x23 => c.f 198 167
    | 0x24 => c.f 84 65 + 1
    | 0x25 => c.f 141 122 + 1
    | _ => c.f 84 65 + 1

/-- CCVT's body is legal (R138). -/
def Cmd.ccvtOk (c : Cmd) : Bool :=
  let st := c.f 64 61
  let dt := c.f 60 57
  let n := c.f 84 65 + 1
  let qnt := c.word.getLsbD 52
  let alignOk (code a : Nat) : Bool := a % Nat.max 1 (codeWidth code / 8) == 0 && (code != 11 || n % 2 == 0)
  bitsOf c.word 33 19 == 0 && c.f 56 54 < 6 && c.addrOk 255 && c.addrOk 198 && c.addrOk 141 &&
  (if qnt then st == 8 && [11, 9, 10, 0].contains dt && n % 32 == 0
   else cvtPair (BitVec.ofNat 4 st) (BitVec.ofNat 4 dt) && c.f 141 85 == 0) &&
  alignOk st (c.addrAt 255) && alignOk dt (c.addrAt 198)

/-- The body of a copy kind is legal but for the channel (R123, R134–R140). -/
def State.copyBodyOk (s : State) (p : Nat) (c : Cmd) : Bool :=
  match c.kind with
  | 0x20 => bitsOf c.word 33 3 == 0 && c.addrOk 255 && c.addrOk 198
  | 0x21 =>
    bitsOf c.word 33 50 == 0 && c.addrOk 255 &&
      shHasRel (s.shape p) (c.f 138 129 + c.f 118 109) (c.f 128 119 + c.f 108 99)
  | 0x22 => bitsOf c.word 33 16 == 0 && c.addrOk 255 && c.addrOk 198 && c.addrOk 141 && c.addrAt 198 % 4 == 0
  | 0x23 =>
    let w := 2 ^ c.f 102 101
    bitsOf c.word 33 68 == 0 && c.addrOk 255 && c.addrAt 255 % w == 0 && c.f 198 167 != 0 && c.f 198 167 % w == 0
  | 0x24 => c.ccvtOk
  | 0x25 =>
    let t := c.f 121 118
    let e := codeWidth t / 8
    bitsOf c.word 33 81 == 0 && c.addrOk 255 && c.addrOk 198 && t ≤ 8 && c.f 117 115 < 6 && (c.f 117 115 != 5 || 6 ≤ t)
      && c.addrAt 255 % e == 0 && c.addrAt 198 % e == 0
  | _ =>
    bitsOf c.word 32 31 == 0 && c.addrOk 255 && c.addrOk 198 && c.addrOk 141 && c.addrAt 255 % 4 == 0
      && c.addrAt 198 % (if c.word.getLsbD 64 then 2 else 4) == 0 && c.addrAt 141 % 64 == 0
      && (c.kind == 0x27 || !c.word.getLsbD 63)

/-- Sign-extended field. -/
def Cmd.sf (c : Cmd) (hi lo : Nat) : Int := sextNat (c.f hi lo) (hi + 1 - lo)

/-- An address displaced by a signed amount, modulo 2^64. -/
def displaced (a : Nat) (d : Int) : Nat := (((a : Int) + d) % (2 ^ 64 : Nat)).toNat

/-- The destination of SLAB's byte at an offset of a core (R135); none past the window's 64 KiB. DEDUCED, log entry 34. -/
def slabDst (x y off : Nat) : Option Nat :=
  if off < 2 ^ 16 then some (0xFE00000000000000 + y * 2 ^ 32 + x * 2 ^ 16 + off) else none

/-- Where the bytes of a run come from. -/
inductive Src where
  | mem (va : Nat)
  | lit (v : Nat)
  /-- Row bytes of GATHER: the index word's address, the base, the row length and the offset in the row. -/
  | row (idx base len off : Nat)
deriving DecidableEq, Repr

/-- Byte q of the logical order of a byte kind: element, source, destination, and the bytes that follow without a break. -/
def Cmd.byteAt (c : Cmd) (q : Nat) : Nat × Src × Option Nat × Nat :=
  match c.kind with
  | 0x20 =>
    let l := c.f 141 126 + 1
    let n1 := c.f 125 118 + 1
    let u : Int := ([1, 32, 1024, 32768].getD (c.f 109 108) 1 : Nat)
    let i1 : Int := (q / l % n1 : Nat)
    let i2 : Int := (q / l / n1 : Nat)
    let j := q % l
    (q / 32, .mem (displaced (c.addrAt 255) ((i1 * c.sf 107 90 + i2 * c.sf 89 72) * u + j)),
      some (displaced (c.addrAt 198) ((i1 * c.sf 71 54 + i2 * c.sf 53 36) * u + j)), Nat.min (l - j) (32 - q % 32))
  | 0x21 =>
    let l := c.f 174 159 + 1
    let n := (c.f 118 109 + 1) * (c.f 108 99 + 1)
    let b := q / l
    let j := q % l
    let k := b % n
    let off := c.f 98 83 + b / n * l + j
    (b, .mem (displaced (c.addrAt 255) ((b : Int) * c.sf 198 175 + j)),
      slabDst (c.f 138 129 + k % (c.f 118 109 + 1)) (c.f 128 119 + k / (c.f 118 109 + 1)) off,
      if off < 2 ^ 16 then Nat.min (l - j) (2 ^ 16 - off) else l - j)
  | 0x22 =>
    let l := c.f 84 69 + 1
    let k := q / l
    let j := q % l
    (k, .row ((c.addrAt 198 + 4 * k) % 2 ^ 64) (c.addrAt 255) l j, some ((c.addrAt 141 + q) % 2 ^ 64), l - j)
  | _ =>
    let w := 2 ^ c.f 102 101
    let n := 32 - q % 32
    let pat := c.f 166 103
    (q / 32, .lit (leNat ((List.range n).map (fun i => BitVec.ofNat 8 (pat / 2 ^ (8 * ((q + i) % w)))))),
      some ((c.addrAt 255 + q) % 2 ^ 64), n)

/-- The runs of a chunk of a byte kind: from q to stop. -/
def Cmd.runs (c : Cmd) (q stop fuel : Nat) : List (Nat × Src × Option Nat × Nat) :=
  match fuel with
  | 0 => []
  | k + 1 =>
    if stop ≤ q then []
    else
      let (el, src, dst, left) := c.byteAt q
      let n := Nat.min left (stop - q)
      (el, src, dst, n) :: Cmd.runs c (q + n) stop k

/-! ## The read side of each kind -/

/-- Read a run's bytes. -/
def State.readSrc (s : State) (e : Engine) (src : Src) (n : Nat) : Res Rd :=
  match src with
  | .mem va => s.engRead e va n
  | .lit v => .ok s (.val v 0)
  | .row idx base len off =>
    match s.engRead e idx 4 with
    | .ok s1 (.val i _) => s1.engRead e ((base + i * len + off) % 2 ^ 64) n
    | r => r

/-- The piece of a run. DEDUCED, log entry 32. -/
def State.bytePiece (s : State) (e : Engine) (x : Nat × Src × Option Nat × Nat) : Res (Except (Nat × Nat) Piece) :=
  let (el, src, dst, n) := x
  match s.readSrc e src n with
  | .ok s1 (.val v _) => .ok s1 (.ok { elem := el, outs := [{ dst := dst, n := n, data := v }] })
  | .ok s1 .bad => .ok s1 (.ok { elem := el, outs := [{ dst := dst, n := n }], bad := true })
  | .ok s1 (.stop c) => .ok s1 (.error (el, c))
  | .block t rid => .block t rid

/-- Element i of an array of a code, whose e2 elements lie two to a byte, low nibble first (R138). -/
def State.readCode (s : State) (e : Engine) (base code i : Nat) : Res Rd :=
  if code = 11 then
    match s.engRead e ((base + i / 2) % 2 ^ 64) 1 with
    | .ok s1 (.val b _) => .ok s1 (.val (if i % 2 = 0 then b % 16 else b / 16) 0)
    | r => r
  else
    let n := codeWidth code / 8
    match s.engRead e ((base + n * i) % 2 ^ 64) n with
    | .ok s1 (.val v _) => .ok s1 (.val (if code = 13 then v % 2 ^ 19 else v) 0)
    | r => r

/-- The state of the table entries that a conversion reads: readable, refused or poisoned (R148, R202, R232). -/
def State.engTable (s : State) (p core : Nat) (tblp : Word) (is : List Nat) : Rd :=
  if is.any (fun i => s.scratchSize p core < tableOff tblp i + 4) then .stop 5
  else if is.any (fun i => s.sramPois.contains (s.sramAddr p core (tableOff tblp i))) then .bad
  else .val 0 0

/-- Where element i of a destination array of a code goes. -/
def codeOut (base code i data : Nat) : Put :=
  if code = 11 then { dst := some ((base + i / 2) % 2 ^ 64), n := 1, data := data, nibble := some (i % 2 == 1) }
  else { dst := some ((base + codeWidth code / 8 * i) % 2 ^ 64), n := codeWidth code / 8, data := data }

/-- Element i of CCVT (R138). -/
def State.ccvtPiece (s : State) (e : Engine) (c : Cmd) (i : Nat) : Res (Except (Nat × Nat) Piece) :=
  let st := c.f 64 61
  let dt := c.f 60 57
  let dst := c.addrAt 198
  match s.readCode e (c.addrAt 255) st i with
  | .ok s1 (.val x _) =>
    let s2 := if (st == 12 || dt == 12) && 4 ≤ s1.scratchSize e.p e.core - tableOff c.cap.tblp 0
      then s1.touchBank e.p (s1.sramAddr e.p e.core (tableOff c.cap.tblp 0)) else s1
    let g := drawAt c.cap.rkey c.cap.rstr (c.cap.rpos + BitVec.ofNat 64 i) 0
    let (y, f, is) := cvtOne (s2.tableVal e.p e.core c.cap.tblp) st dt (c.f 56 54) (c.word.getLsbD 53) g x
    (match s2.engTable e.p e.core c.cap.tblp is with
     | .val _ _ => .ok s2 (.ok { elem := i, outs := [codeOut dst dt i y], flags := f })
     | .bad => .ok s2 (.ok { elem := i, outs := [codeOut dst dt i 0], bad := true })
     | .stop k => .ok s2 (.error (i, k)))
  | .ok s1 .bad => .ok s1 (.ok { elem := i, outs := [codeOut dst dt i 0], bad := true })
  | .ok s1 (.stop k) => .ok s1 (.error (i, k))
  | .block t rid => .block t rid

/-- Two good nibbles of one byte are one write. DEDUCED, log entry 32. -/
def joinNibbles (ps : List Piece) : List Piece :=
  match ps with
  | a :: b :: rest =>
    (match a.outs, b.outs with
     | [x], [y] =>
       if x.nibble == some false && y.nibble == some true && !a.bad && !b.bad && x.dst == y.dst then
         { elem := a.elem, outs := [{ dst := x.dst, n := 1, data := x.data + 16 * y.data }], flags := a.flags ||| b.flags }
           :: joinNibbles rest
       else a :: joinNibbles (b :: rest)
     | _, _ => a :: joinNibbles (b :: rest))
  | ps => ps

/-- Group k of a quantising CCVT: 32 elements under one scale (R138). DEDUCED, log entry 32. -/
def State.quantPiece (s : State) (e : Engine) (c : Cmd) (k : Nat) : Res (Except (Nat × Nat) Piece) :=
  let dt := c.f 60 57
  let n := 32 * codeWidth dt / 8
  let outs (scale codes : Nat) : List Put :=
    [{ dst := some ((c.addrAt 198 + n * k) % 2 ^ 64), n := n, data := codes },
     { dst := some ((c.addrAt 141 + k) % 2 ^ 64), n := 1, data := scale }]
  match s.engRead e ((c.addrAt 255 + 128 * k) % 2 ^ 64) 128 with
  | .ok s1 (.val v _) =>
    let (scale, codes, f) := quantise dt ((List.range 32).map (fun i => v / 2 ^ (32 * i) % 2 ^ 32))
    .ok s1 (.ok { elem := 32 * k, outs := outs scale (packElems (codeWidth dt) codes), flags := f })
  | .ok s1 .bad => .ok s1 (.ok { elem := 32 * k, outs := outs 0 0, bad := true })
  | .ok s1 (.stop x) => .ok s1 (.error (32 * k, x))
  | .block t rid => .block t rid

/-- Element i of CRED (R139). -/
def State.credPiece (s : State) (e : Engine) (c : Cmd) (i : Nat) : Res (Except (Nat × Nat) Piece) :=
  let t := c.f 121 118
  let n := codeWidth t / 8
  let dst := (c.addrAt 198 + n * i) % 2 ^ 64
  let rm := c.f 117 115
  let g := if rm = 5 then drawAt c.cap.rkey c.cap.rstr (BitVec.ofNat 64 (dst / n)) 0 else 0
  let out (v : Nat) : Put := { dst := some dst, n := n, data := v, red := some (t, rm, c.word.getLsbD 114, g) }
  match s.engRead e ((c.addrAt 255 + n * i) % 2 ^ 64) n with
  | .ok s1 (.val v _) => .ok s1 (.ok { elem := i, outs := [out v] })
  | .ok s1 .bad => .ok s1 (.ok { elem := i, outs := [out 0], bad := true })
  | .ok s1 (.stop x) => .ok s1 (.error (i, x))
  | .block t rid => .block t rid

/-- A computation in FP32 that collects flags. -/
abbrev Fl := Nat × Flags
def Fl.of (x : Nat) : Fl := (x, 0)
def Fl.add (a b : Fl) : Fl := let r := addF a.1 b.1; (r.1, a.2 ||| b.2 ||| r.2)
def Fl.sub (a b : Fl) : Fl := let r := subF a.1 b.1; (r.1, a.2 ||| b.2 ||| r.2)
def Fl.mul (a b : Fl) : Fl := let r := mulF a.1 b.1; (r.1, a.2 ||| b.2 ||| r.2)
def Fl.div (a b : Fl) : Fl := let r := divF a.1 b.1; (r.1, a.2 ||| b.2 ||| r.2)
def Fl.sqrt (a : Fl) : Fl := let r := sqrtF a.1; (r.1, a.2 ||| r.2)

/-- The update of one word: its operands, and the flags of the arithmetic that gave them (R140). -/
structure Fused where
  last : Bool := false
  a : Nat
  b : Nat
  c : Nat := 0
  flags : Flags := 0

/-- The word after its update, with all flags. -/
def Fused.apply (f : Fused) (old : Nat) : Fl :=
  let r := fuseEval f.last (BitVec.ofNat 32 f.a) (BitVec.ofNat 32 f.b) (BitVec.ofNat 32 f.c) old
  (r.1, f.flags ||| r.2)

/-- OPTADAM's updates of w, m and v (R140). -/
def adam (par : Nat → Nat) (m v g : Nat) : Fused × Fused × Fused :=
  let p (i : Nat) : Fl := .of (par i)
  let mg := (p 6).mul (.of g)
  let vg := ((p 8).mul (.of g)).mul (.of g)
  let fm : Fused := { a := par 5, b := mg.1, flags := mg.2 }
  let fv : Fused := { a := par 7, b := vg.1, flags := vg.2 }
  let d := (((fv.apply v).mul (p 12)).sqrt).add (p 9)
  let u := ((fm.apply m).mul (p 11)).div d
  ({ last := true, a := par 10, b := par 4, c := u.1, flags := u.2 }, fm, fv)

/-- OPTSGD's updates of w and m (R140). -/
def sgd (par : Nat → Nat) (nom : Bool) (m g : Nat) : Fused × Fused :=
  let fm : Fused := { a := par 5, b := g }
  let m2 : Fl := if nom then .of g else fm.apply m
  ({ last := true, a := par 10, b := par 4, c := m2.1, flags := m2.2 }, fm)

/-- Read the words that an element updates, which needs the permission to write them too (R81, R104, R141). DEDUCED, log entry 112. -/
def State.aluWords (s : State) (e : Engine) (as : List Nat) (vs : List Nat) (bad : Bool) :
    Res (Except Nat (Option (List Nat))) :=
  match as with
  | [] => .ok s (.ok (if bad then none else some vs))
  | a :: rest =>
    match s.engOpAs e a 2 (.read .row 4) with
    | .ok s1 (.val v _) => State.aluWords s1 e rest (vs ++ [v]) bad
    | .ok s1 .bad => State.aluWords s1 e rest (vs ++ [0]) true
    | .ok s1 (.stop k) => .ok s1 (.error k)
    | .block t rid => .block t rid

/-- Element i of OPTADAM or OPTSGD: its gradient, then the words that it updates (R140, R141). -/
def State.optPiece (s : State) (e : Engine) (c : Cmd) (i : Nat) : Res (Except (Nat × Nat) Piece) :=
  let blk := c.params.getD 0
  let par (k : Nat) : Nat := bitsOf blk (32 * k) 32
  let gt := c.word.getLsbD 64
  let isAdam := c.kind == 0x26
  let nom := c.word.getLsbD 63
  let wa := (c.addrAt 255 + 4 * i) % 2 ^ 64
  let ga := (c.addrAt 198 + (if gt then 2 else 4) * i) % 2 ^ 64
  let ma := (bitsOf blk 0 64 + 4 * i) % 2 ^ 64
  let va := (bitsOf blk 64 64 + 4 * i) % 2 ^ 64
  let words := [wa] ++ (if isAdam || !nom then [ma] else []) ++ (if isAdam then [va] else [])
  let piece (vs : List Nat) (fs : List Fused) : Piece :=
    let news := (fs.zip vs).map (fun x => (x.1, x.1.apply x.2))
    { elem := i
      outs := (words.zip news).map (fun ax =>
        { dst := some ax.1, n := 4, data := ax.2.2.1
          fuse := some (ax.2.1.last, BitVec.ofNat 32 ax.2.1.a, BitVec.ofNat 32 ax.2.1.b, BitVec.ofNat 32 ax.2.1.c) })
      flags := news.foldl (fun f x => f ||| x.2.2) 0 }
  let bad : Piece := { elem := i, outs := words.map (fun a => { dst := some a, n := 4 }), bad := true }
  match s.engRead e ga (if gt then 2 else 4) with
  | .block t rid => .block t rid
  | .ok s1 (.stop k) => .ok s1 (.error (i, k))
  | .ok s1 gr =>
    match s1.aluWords e words [] (gr == .bad) with
    | .block t rid => .block t rid
    | .ok s2 (.error k) => .ok s2 (.error (i, k))
    | .ok s2 (.ok none) => .ok s2 (.ok bad)
    | .ok s2 (.ok (some vs)) =>
      let x := match gr with
        | .val v _ => v
        | _ => 0
      let g := if gt then x * 2 ^ 16 else x
      if isAdam then
        let (w, m, v) := adam par (vs.getD 1 0) (vs.getD 2 0) g
        .ok s2 (.ok (piece vs [w, m, v]))
      else
        let (w, m) := sgd par nom (vs.getD 1 0) g
        .ok s2 (.ok (piece vs [w, m]))

/-! ## Chunks (R129) -/

/-- The elements, or bytes, of a chunk: 1 KiB of destination bytes, in whole elements for the fused kinds. DEDUCED, log entry 32. -/
def Cmd.chunk (c : Cmd) : Nat :=
  match c.ax, c.kind with
  | some _, _ => 1024
  | none, 0x24 => 1024 * 8 / codeWidth (c.f 60 57)
  | none, 0x25 => 1024 * 8 / codeWidth (c.f 121 118)
  | none, 0x26 => 85
  | none, 0x27 => if c.word.getLsbD 63 then 256 else 128
  | none, _ => 1024

/-- Where the next chunk ends. DEDUCED, log entry 32. -/
def Cmd.chunkEnd (c : Cmd) : Nat := Nat.min c.total ((c.done / c.chunk + 1) * c.chunk)

/-- The stack side's address of byte j of an AX copy: in the ring, or at the Fen place (R74, R76). -/
def AxCopy.place (x : AxCopy) (j : Nat) : Nat :=
  match x.cold with
  | some a => a + j
  | none => x.wbase + (x.ring + j) % (256 * x.wlen)

/-- The runs of an AX copy's chunk, cut at 32 bytes of its order. -/
def AxCopy.runs (x : AxCopy) (q stop : Nat) : List (Nat × Src × Option Nat × Nat) :=
  (List.range ((stop - q) / 32)).map (fun i =>
    let j := q + 32 * i
    let place := x.place j
    let soft := (x.addr + j) % 2 ^ 64
    (j / 32, .mem (if x.push then soft else place), some (if x.push then place else soft), 32))

/-- The read side of the next chunk. -/
def State.gather (s : State) (e : Engine) (c : Cmd) : Res Gathered :=
  let stop := c.chunkEnd
  let els := (List.range (stop - c.done)).map (c.done + ·)
  match c.ax, c.kind with
  | some x, _ =>
    s.gatherAll (fun s r => s.bytePiece e r) (x.runs c.done stop) []
  | none, 0x24 =>
    if c.word.getLsbD 52 then
      s.gatherAll (fun s k => s.quantPiece e c k) ((List.range ((stop - c.done) / 32)).map (c.done / 32 + ·)) []
    else
      (match s.gatherAll (fun s i => s.ccvtPiece e c i) els [] with
       | .ok s1 (ps, x) => .ok s1 (joinNibbles ps, x)
       | r => r)
  | none, 0x25 => s.gatherAll (fun s i => s.credPiece e c i) els []
  | none, 0x26 | none, 0x27 => s.gatherAll (fun s i => s.optPiece e c i) els []
  | none, _ =>
    s.gatherAll (fun s r => s.bytePiece e r) (c.runs c.done stop 1024) []

/-- The channel that a command arms: that of slot CHAN, or for an AXPOP with W the issuing slot's (R75, R131). -/
def Cmd.arms (c : Cmd) (slot : Nat) : Option Arm :=
  match c.ax with
  | some x => if x.arm then some { chan := slot, sc := 4 } else none
  | none =>
    if c.kind ≤ 0x25 && c.armed then some { chan := c.chan, sc := c.sc } else none

/-- The index that FIRST reports for an element of the present chunk. A block of a SLAB counts by the 32-byte unit of the
logical byte order where what is not done of it begins (R126). DEDUCED, log entry 32. -/
def Cmd.reported (c : Cmd) (i : Nat) : Nat :=
  if c.ax.isNone && c.kind == 0x21 then Nat.max (i * (c.f 174 159 + 1)) c.done / 32 else i

/-- A command that has done a chunk, or stopped at an element. -/
def Cmd.advance (c : Cmd) (r : Pass) : Cmd :=
  let first := match r.first with
    | some i => firstOf c.first (c.reported i)
    | none => c.first
  let c1 := { c with flags := c.flags ||| r.flags, sig := c.sig ||| r.sig, first := first, skip := r.skip }
  match r.stop with
  | some (i, k) => { c1 with state := .ending, code := k, first := firstOf first (c.reported i) }
  | none =>
    let c2 := { c1 with done := c.chunkEnd }
    if c2.done = c.total then { c2 with state := .ending, code := if first.isSome then 1 else 0 } else c2

/-- One chunk: all its reads, then its writes (R129). DEDUCED, log entry 93. -/
def State.runChunk (s : State) (e : Engine) (slot : Nat) (c : Cmd) : Res Cmd :=
  match s.gather e c with
  | .block t rid => .block t rid
  | .ok s1 (ps, stop) =>
    match s1.writeChunk e (c.arms slot) (mergePieces ps) { stop := stop, skip := c.skip } with
    | .block t rid => .block t rid
    | .ok s2 r => .ok s2 (c.advance r)

/-! ## The checks at the head (R63, R123, R131) -/

/-- The destination runs of a command: address and length; none for a run that leaves its window. -/
def Cmd.destinations (c : Cmd) : List (Option Nat × Nat) :=
  match c.ax, c.kind with
  | some x, _ => [(some x.addr, x.len)]
  | none, 0x20 =>
    let l := c.f 141 126 + 1
    (List.range (c.total / l)).map (fun i => ((c.byteAt (i * l)).2.2.1, l))
  | none, 0x21 =>
    let l := c.f 174 159 + 1
    (List.range (c.total / l)).map (fun b => ((c.byteAt (b * l)).2.2.1, l))
  | none, 0x22 => [(some (c.addrAt 141), c.total)]
  | none, 0x23 => [(some (c.addrAt 255), c.total)]
  | none, 0x24 =>
    (some (c.addrAt 198), c.total * codeWidth (c.f 60 57) / 8) ::
      (if c.word.getLsbD 52 then [(some (c.addrAt 141), c.total / 32)] else [])
  | none, _ => [(some (c.addrAt 198), c.total * codeWidth (c.f 121 118) / 8)]

/-- A run of bytes from a window address, cut where the next core's window begins: addresses and lengths (R65). -/
def windowRun (a n fuel : Nat) : List (Nat × Nat) :=
  match fuel with
  | 0 => []
  | k + 1 =>
    if n = 0 || !isWindow a then []
    else
      let m := Nat.min n (65536 - a % 65536)
      (a, m) :: windowRun ((a + m) % 2 ^ 64) (n - m) k

/-- The parts of a run of bytes that lie in windows. -/
def windowParts (r : Nat × Nat) : List (Nat × Nat) := windowRun r.1 r.2 (r.2 / 65536 + 2)

/-- A destination run passes the channel check, on every core that it reaches (R131). A window that names no core of the region
is left to the access, which completes with PERM (R124). DEDUCED, log entry 34. -/
def State.channelOk (s : State) (p core chan : Nat) (d : Option Nat × Nat) : Bool :=
  match d.1 with
  | none => false
  | some a =>
    isWindow a && (windowParts (a, d.2)).all (fun r =>
      match s.window p core r.1 [] with
      | some (c, off) =>
        let k := s.slotAt c chan
        k.chlen != 0 && k.chbase ≤ off && off + r.2 ≤ k.chbase + k.chlen
      | none => true)

/-- The runs of sources that a command reads, as far as its body gives them: first address and length. -/
def Cmd.sources (c : Cmd) : List (Nat × Nat) :=
  match c.ax, c.kind with
  | some x, _ => [(x.addr, x.len)]
  | none, 0x20 =>
    let l := c.f 141 126 + 1
    (List.range (c.total / l)).filterMap (fun i => match (c.byteAt (i * l)).2.1 with
      | .mem a => some (a, l)
      | _ => none)
  | none, 0x21 =>
    let l := c.f 174 159 + 1
    (List.range (c.total / l)).filterMap (fun i => match (c.byteAt (i * l)).2.1 with
      | .mem a => some (a, l)
      | _ => none)
  | none, 0x22 => [(c.addrAt 198, 4 * (c.f 68 49 + 1))]
  | none, 0x23 => []
  | none, 0x24 => [(c.addrAt 255, c.total * codeWidth (c.f 64 61) / 8)]
  | none, 0x25 => [(c.addrAt 255, c.total * codeWidth (c.f 121 118) / 8)]
  | none, _ => [(c.addrAt 255, 4 * c.total), (c.addrAt 198, (if c.word.getLsbD 64 then 2 else 4) * c.total), (c.addrAt 141, 64)]

/-- The cores whose SRAM a command reads or writes, by the windows that its body names (R146); those that its data name, the rows of a
GATHER and the arrays of a parameter block, join them when it reaches them (`State.noteCore`). DEDUCED, log entry 113. -/
def State.cmdCores (s : State) (p core : Nat) (c : Cmd) : List Nat :=
  let runs := (c.sources ++ c.destinations.filterMap (fun d => d.1.map (fun a => (a, d.2)))).flatMap windowParts
  (runs.filterMap (fun r => (s.window p core r.1 []).map (·.1))).eraseDups

/-- The first failing check of a copy command at its head; 0 when it starts. -/
def State.copyCheck (s : State) (p core slot : Nat) (c : Cmd) : Nat :=
  let channels : Bool := match c.arms slot with
    | some m => c.destinations.all (s.channelOk p core m.chan)
    | none => true
  match c.ax with
  | some _ => if channels then 0 else 3
  | none =>
    let h := s.headerCode p core false c
    if h != 0 then h
    else if !s.copyBodyOk p c then 4
    else if channels then 0 else 3

/-- A thread's queue takes its next command: its partition runs, no completion message is under way, and no write of L1CFG
waits for its engines to be quiet (R127, R146, R361). -/
def State.engineFree (s : State) (core slot : Nat) (mtx : Bool) : Bool :=
  let p := s.queuePart core slot
  s.partRuns p && !(s.queueAt core slot mtx).posting && !s.l1cfgWaits p core

/-- The time of a command is fixed in a FIXED launch: a matrix command, or a copy command whose addresses are all window
addresses (R332). -/
def Cmd.timed (c : Cmd) (mtx : Bool) : Bool :=
  mtx || (c.ax.isNone && c.sources.all (fun r => isWindow r.1) && c.destinations.all (fun d => d.1.any isWindow))

/-- The command at the head of a queue does not start while a write of L1CFG is parked where it reads or writes: one of a FIXED
launch is late (R146, R333). -/
def State.holdCmd (s : State) (core slot : Nat) (mtx : Bool) : State :=
  match (s.queueAt core slot mtx).cmds, s.ownerOf core slot with
  | c :: _, some t =>
    if c.late || !c.timed mtx then s else (s.delayed t core).modHead core slot mtx (fun c => { c with late := true })
  | _, _ => s

/-- A copy command passes its checks and runs, or ends with their code. One that uses the SRAM of a core where a write of L1CFG
is parked does not start yet (R146). -/
def State.beginCopy (s : State) (p core slot : Nat) (c : Cmd) : State :=
  let code := s.copyCheck p core slot c
  let cores := s.cmdCores p core c
  if code != 0 then s.modHead core slot false (fun c => { c with state := .ending, code := code })
  else if cores.any (s.l1cfgWaits p) then s.holdCmd core slot false
  else s.modHead core slot false (fun c => { c with state := .running, cores := cores })

/-- A copy command of one kind, at the head of its queue, is checked and starts, or completes at once (R123). -/
def State.startCopy (s : State) (x y slot kind : Nat) : State :=
  let core := coreAt x y
  match (s.queueAt core slot false).cmds with
  | c :: _ =>
    if c.state == .queued && c.ax.isNone && c.kind == kind && s.engineFree core slot false then
      s.beginCopy (s.queuePart core slot) core slot c
    else if c.state == .queued && c.kind == kind && s.l1cfgWaits (s.queuePart core slot) core then s.holdCmd core slot false
    else s
  | [] => s

/-- COPY (R134). -/
def execCopy (x y slot : Nat) (s : State) : Next := .next (s.startCopy x y slot 0x20)
/-- SLAB (R135). -/
def execSlab (x y slot : Nat) (s : State) : Next := .next (s.startCopy x y slot 0x21)
/-- GATHER (R136). -/
def execGather (x y slot : Nat) (s : State) : Next := .next (s.startCopy x y slot 0x22)
/-- FILL (R137). -/
def execFill (x y slot : Nat) (s : State) : Next := .next (s.startCopy x y slot 0x23)
/-- CCVT (R138). -/
def execCcvt (x y slot : Nat) (s : State) : Next := .next (s.startCopy x y slot 0x24)
/-- CRED (R139). -/
def execCred (x y slot : Nat) (s : State) : Next := .next (s.startCopy x y slot 0x25)
/-- OPTADAM (R140). -/
def execOptadam (x y slot : Nat) (s : State) : Next := .next (s.startCopy x y slot 0x26)
/-- OPTSGD (R140). -/
def execOptsgd (x y slot : Nat) (s : State) : Next := .next (s.startCopy x y slot 0x27)

/-! ## The copies of AXPUSH and AXPOP (R75, R76) -/

/-- Ring intervals of a window of n bytes that share a byte. -/
def ringMeets (n a la b lb : Nat) : Bool := (b + n - a) % n < la || (a + n - b) % n < lb

/-- The AX copies of a stack that are not done, in every copy queue of the partition. -/
def State.axPending (s : State) (p st : Nat) : List AxCopy :=
  s.slots.flatMap (fun k =>
    if s.queuePart (k.1 / 16) (k.1 % 16) == p then
      k.2.copy.cmds.filterMap (fun c => match c.ax with
        | some x => if x.stack = st then some x else none
        | none => none)
    else [])

/-- The units of 256 bytes of the pushed frames of a stack whose copies are pending. -/
def State.pushing (s : State) (p st : Nat) : Nat :=
  ((s.axPending p st).filter (fun y => y.push && !y.gone)).foldl (fun n y => n + y.len / 256) 0

/-- WTOP: where the next frame starts, after the last push copy that has been made (R71, R74). -/
def State.wtopOf (s : State) (p st : Nat) (k : Stack) : Nat := (k.wtop + k.wlen - s.pushing p st % k.wlen) % k.wlen

/-- The window holds room for a push copy: its bytes are clear of the hot frames that stand there, and of a recall that began
before it (R74). -/
def State.pushRoom (s : State) (p st : Nat) (k : Stack) (x : AxCopy) : Bool :=
  let w := 256 * k.wlen
  let hot := k.hot - s.pushing p st
  (hot == 0 || !ringMeets w x.ring x.len (256 * ((s.wtopOf p st k + k.wlen - hot % k.wlen) % k.wlen)) (256 * hot)) &&
  (match k.job with
   | some j => j.spill || x.n < j.n || j.len == 0 || !ringMeets w x.ring x.len j.ring j.len
   | none => true)

/-- The load of a stack's entry has failed. -/
def AxLoad.gone (k : AxLoad) : Bool :=
  match k.pf with
  | .failed .. => true
  | _ => false

/-- A push copy waits: for an earlier push copy of its stack, for a pop that still reads window bytes of an older frame, for
window room, or for its stack's entry to be loaded again after a restore (R74, R76). -/
def State.pushReady (s : State) (p : Nat) (x : AxCopy) : Bool :=
  let olderRead (y : AxCopy) : Bool :=
    !y.push && y.cold.isNone && y.src.all (· < x.n) && ringMeets (256 * x.wlen) x.ring x.len y.ring y.len
  !(s.axPending p x.stack).any (fun y => (y.push && y.n < x.n) || olderRead y) &&
  (match Table.get? s.stackTab (16 * p + x.stack) with
   | some k => s.pushRoom p x.stack k x
   | none => (s.part p).axReload.all (fun k => k.stack != x.stack || k.gone))

/-- An AX copy may move bytes: a pop waits for its frame's own push copy (R76). DEDUCED, log entry 37. -/
def State.axReady (s : State) (p : Nat) (x : AxCopy) : Bool :=
  if x.push then s.pushReady p x
  else match x.src with
    | some m => (s.axPending p x.stack).all (fun y => y.n != m)
    | none => true

/-! ## Chunks and completion as events -/

/-- The engine of a slot as an accessing agent. -/
def State.engineOf (s : State) (core slot : Nat) : Engine :=
  { ag := .engine core slot false, who := Who.of core slot 1, p := s.queuePart core slot, core := core }

/-- The parameter block of OPTADAM and OPTSGD, read when the command starts (R140): the block, or the command's end. A pointer
that is not 4-byte aligned ends it with BADBODY. DEDUCED, log entry 33. DESIGN CHOICE, log entry 100. -/
def State.optParams (s : State) (e : Engine) (c : Cmd) : Res Cmd :=
  match s.engRead e (c.addrAt 141) 64 with
  | .block t rid => .block t rid
  | .ok s1 (.val v _) =>
    let blk := BitVec.ofNat 512 v
    let ok : Bool := bitsOf blk 416 96 == 0 && (c.kind == 0x27 || bitsOf blk 64 2 == 0)
      && ((c.kind == 0x27 && c.word.getLsbD 63) || bitsOf blk 0 2 == 0)
    .ok s1 (if ok then { c with params := some blk } else { c with state := .ending, code := 4 })
  | .ok s1 .bad => .ok s1 { c with state := .ending, code := 1, first := some 0, done := c.total }
  | .ok s1 (.stop k) => .ok s1 { c with state := .ending, code := k, first := some 0 }

/-- The next piece of a running command's work. -/
def State.engineWork (s : State) (e : Engine) (slot : Nat) (c : Cmd) : Res Cmd :=
  if c.ax.isNone && 0x26 ≤ c.kind && c.params.isNone then s.optParams e c else s.runChunk e slot c

/-- ENGINE_CHUNK: the engine reads and writes the next chunk of the running command of a slot's copy queue; an AX copy
starts here too. A page fault holds the command (R90, R128, R129). DEDUCED, log entry 93. -/
def execEngineChunk (x y slot : Nat) (s : State) : Next :=
  let core := coreAt x y
  .next (match (s.queueAt core slot false).cmds with
  | c :: _ =>
    let e := s.engineOf core slot
    let ready : Bool := match c.ax with
      | some a => s.axReady e.p a
      | none => true
    if c.state == .queued && c.ax.isSome && s.engineFree core slot false then
      s.beginCopy e.p core slot c
    else if c.state == .running && s.partRuns e.p && ready then
      (match c.pf with
       | .waiting _ => s
       | _ =>
         match s.engineWork { e with pf := c.pf } slot { c with pf := .clear } with
         | .ok s1 c1 => (s1.forget e.ag).modHead core slot false (fun k => { c1 with cores := k.cores })
         | .block t none => s.blocked t e.ag
         | .block t (some rid) => (s.blocked t e.ag).modHead core slot false (fun c => { c with pf := .waiting rid }))
    else s
  | [] => s)

/-- A capped completion counts in the SCOPEDEM of the queue's owner (R291). -/
def State.countOwner (s : State) (core slot sc : Nat) : State :=
  match s.ownerOf core slot with
  | some t =>
    if s.capped t.tid.part sc then
      s.modThread t.tid (fun t => { t with csr := { t.csr with scopedem := t.csr.scopedem + 1 } })
    else s
  | none => s

/-- A completion's release at scope 5 or 6: the write-backs of matching sectors start, and must land (R297). DEDUCED, log entry 19. -/
def State.completionRelease (s : State) (core slot : Nat) (mtx : Bool) (c : Cmd) : State × Bool :=
  match c.wbs with
  | some ns => (s, s.landed ns)
  | none =>
    if !c.release then (s, true)
    else
      let p := s.queuePart core slot
      let s0 := s.countOwner core slot c.sc
      let (s1, ns) := s0.writeOut p (if c.sc < 7 then s.scope p c.sc else 0) c.sig
      (s1.modHead core slot mtx (fun c => { c with wbs := some ns }), ns.isEmpty)

/-- The bytes that a matrix command writes when it completes (R256, R263). -/
def State.writeTile (s : State) (p core : Nat) (c : Cmd) : State :=
  let s1 := if c.out.isEmpty then s else s.scratchWrite p core c.out
  if c.outPois then s1.scratchPoison p core (c.out.map (·.1)) else s1

/-- A command with an unknown KIND, or a header error that leaves its kind unknown, ends as soon as it is at the head. -/
def State.endUnknown (s : State) (core slot : Nat) (mtx : Bool) (c : Cmd) : Option Nat :=
  if c.state == .queued && c.ax.isNone && s.headerCode (s.queuePart core slot) core mtx c == 2 && s.engineFree core slot mtx
  then some 2 else none

/-- COMMAND_COMPLETION: a command that has ended completes: its writes, its release, its message, then its history entry,
its error and its owner's wake bit (R127, R346). A class that the partition does not own gets no message.
DEDUCED, log entry 37. DESIGN CHOICE, log entry 101. -/
def execCommandCompletion (x y slot : Nat) (mtx : Bool) (s : State) : Next :=
  let core := coreAt x y
  .next (match (s.queueAt core slot mtx).cmds with
  | c :: _ =>
    let p := s.queuePart core slot
    match s.endUnknown core slot mtx c with
    | some k => s.modHead core slot mtx (fun c => { c with state := .ending, code := k })
    | none =>
      if c.state == .ending && !(s.queueAt core slot mtx).posting && (mtx || s.partRuns p) then
        let s0 := (s.writeTile p core c).modHead core slot mtx (fun c => { c with out := [], outPois := false })
        let (s1, made) := s0.completionRelease core slot mtx c
        if !made then s1
        else if c.notify && s.ownsSlot p core c.cls then
          let m : Msg := { w0 := c.word0 slot, w1 := statusWord 2 c.code c.flags c.first
                           w2 := match c.first with
                             | some i => BitVec.ofNat 32 i
                             | none => 0xFFFFFFFF
                           sig := c.sig }
          let k : MsgPkt := { core := core, cls := c.cls, msg := m, sender := .engine core slot mtx }
          let s2 := s1.setQueueAt core slot mtx { s1.queueAt core slot mtx with posting := true }
          s2.send p core (.msg k)
        else s1.finishCmd core slot mtx
      else s
  | [] => s)

end Sys2Proof.Machine
end

