-- ==== Sys2Proof/Machine/Comb.lean ====
section
/-! DEFINITION. Trajectory stores and the comb units (R268–R288): the TJ forms, the loading of descriptors, the sum tree,
linearisation, and the accesses and the answer that follow it. -/

namespace Sys2Proof.Machine

/-! ## Accesses that end in a status code (R278) -/

/-- A failure: the code, and the signature of the writes made before it (R277, R278). -/
abbrev Fail := Nat × Sig

/-- Go on with a result unless it is a failure. -/
def Res.andThen {ε α β : Type} (r : Res (Except ε α)) (f : State → α → Res (Except ε β)) : Res (Except ε β) :=
  match r with
  | .ok s (.ok a) => f s a
  | .ok s (.error c) => .ok s (.error c)
  | .block t rid => .block t rid

/-- A failure after writes of signature g. -/
def Res.wrote {α : Type} (g : Sig) (r : Res (Except Fail α)) : Res (Except Fail α) :=
  match r with
  | .ok s (.error c) => .ok s (.error (c.1, c.2 ||| g))
  | r => r

/-- Read n bytes: POISON for a poisoned or refused unit, PERM or XLATE as R81 and R65 say. -/
def State.codedRead (s : State) (e : Engine) (va n : Nat) : Res (Except Fail Nat) :=
  match s.engRead e va n with
  | .ok s1 (.val v _) => .ok s1 (.ok v)
  | .ok s1 .bad => .ok s1 (.error (7, 0))
  | .ok s1 (.stop c) => .ok s1 (.error (c, 0))
  | .block t rid => .block t rid

/-- Write n bytes; a peer's refusal counts as PERM. The signature of the write. -/
def State.codedWrite (s : State) (e : Engine) (va n v : Nat) : Res (Except Fail Sig) :=
  match s.engWriteCuts e none v (cuts va n) 0 with
  | .ok s1 (.val _ _, g) => .ok s1 (.ok g)
  | .ok s1 (.bad, g) => .ok s1 (.error (5, g))
  | .ok s1 (.stop c, g) => .ok s1 (.error (c, g))
  | .block t rid => .block t rid

/-- Update a doubleword of the tree region at its slice, which needs RD and W at once (R81). DEDUCED, log entry 112. -/
def State.treeOp (s : State) (e : Engine) (op : AluOp) (va v : Nat) : Res (Except Fail Sig) :=
  match s.engOp e va (.alu op 8 (BitVec.ofNat 64 v) 0) with
  | .ok s1 (.val _ _) => .ok s1 (.ok (writeSig va))
  | .ok s1 .bad => .ok s1 (.error (7, 0))
  | .ok s1 (.stop c) => .ok s1 (.error (c, 0))
  | .block t rid => .block t rid

/-- Read some lines, with a poison mark for each; only PERM and XLATE end it. -/
def State.readMarked (s : State) (e : Engine) (vas : List Nat) (ls : List (Line × Bool)) : Res (Except Fail (List (Line × Bool))) :=
  match vas with
  | [] => .ok s (.ok ls)
  | va :: rest =>
    match s.engRead e va 32 with
    | .ok s1 (.val v _) => State.readMarked s1 e rest (ls ++ [(BitVec.ofNat 256 v, false)])
    | .ok s1 .bad => State.readMarked s1 e rest (ls ++ [(0, true)])
    | .ok s1 (.stop c) => .ok s1 (.error (c, 0))
    | .block t rid => .block t rid

/-- The 32 bytes at an address are poisoned: a row of a resident sector, or words of a scratchpad (R75, R278). -/
def State.markPoison (s : State) (p core va : Nat) : State :=
  if isWindow va then
    match s.window p core va [va % 2 ^ 16] with
    | some (c, off) => s.scratchPoison p c (span off 32)
    | none => s
  else
    match s.sector? (s.sliceOf p va) p va with
    | some c => s.putSector { c with pois := c.pois ||| (1#32 <<< (va % 1024 / 32)) }
    | none => s

/-- Write lines with their poison marks, lowest address first. -/
def State.writeMarked (s : State) (e : Engine) (va : Nat) (ls : List (Line × Bool)) (g : Sig) : Res (Except Fail Sig) :=
  match ls with
  | [] => .ok s (.ok g)
  | (l, pois) :: rest =>
    ((s.codedWrite e va 32 l.toNat).wrote g).andThen (fun s h =>
      State.writeMarked (if pois then s.markPoison e.p e.core va else s) e (va + 32) rest (g ||| h))

/-! ## Descriptors (R270, R271) -/

def Store.f (k : Store) (lo n : Nat) : Nat := bitsOf k.desc lo n
def Store.rbase (k : Store) : Nat := k.f 0 64
def Store.tbase (k : Store) : Nat := k.f 64 64
/-- The capacity C. -/
def Store.cap (k : Store) : Nat := 2 ^ k.f 288 5
/-- The bytes of a record. -/
def Store.recLen (k : Store) : Nat := (k.f 293 7 + 1) * 64
def Store.fullref (k : Store) : Bool := k.desc.getLsbD 300
/-- The number of nodes of a level; level 6 is the leaves (R273). -/
def Store.nodes (k : Store) (level : Nat) : Nat := (k.cap + 16 ^ (6 - level) - 1) / 16 ^ (6 - level)
def Store.leaf (k : Store) (i : Nat) : Nat := k.tbase + 8 * i
def Store.node5 (k : Store) (n : Nat) : Nat := k.tbase + 8 * k.cap + 8 * n

/-- The rules of R271 on a descriptor. DEDUCED, log entry 47. -/
def descOk (d : BitVec 1024) : Bool :=
  let k : Store := { part := 0, daddr := 0, desc := d }
  bitsOf d 704 320 == 0 && bitsOf d 536 8 == 0 && bitsOf d 301 211 == 0 && k.f 288 5 ≤ 24 && k.f 279 8 != 255
    && k.rbase % 64 == 0 && k.tbase % 1024 == 0 && k.rbase < 2 ^ 56 && k.tbase < 2 ^ 56

/-- A sum of levels 0–4. -/
def Store.sum (k : Store) (level n : Nat) : Nat := Table.getD k.tree (2 ^ 20 * level + n) 0
/-- T. -/
def Store.total (k : Store) : Nat := k.sum 0 0

/-- A level-5 node changes by d, and its ancestors with it, modulo 2^64 (R273). -/
def treeAdd (t : Table Nat) (n d : Nat) : Table Nat :=
  (List.range 5).foldl (fun t l =>
    let key := 2 ^ 20 * l + n / 16 ^ (5 - l)
    Table.set t key ((Table.getD t key 0 + d) % 2 ^ 64)) t

/-- The word of a node of levels 0–4 holds an uncorrectable error (R278). -/
def Store.badNode (k : Store) (level n : Nat) : Bool := k.bad.contains (2 ^ 20 * level + n)
/-- So does that of an ancestor of a level-5 node. -/
def Store.badAbove (k : Store) (n : Nat) : Bool := (List.range 5).any (fun l => k.badNode l (n / 16 ^ (5 - l)))

/-- The descriptor with its RO fields, as it is written back (R270). -/
def Store.image (k : Store) : BitVec 1024 :=
  let ro : Nat := k.total * 2 ^ 640 + k.seq * 2 ^ 608 + k.ver.toNat * 2 ^ 576 + k.n * 2 ^ 544 + k.head * 2 ^ 512
  BitVec.ofNat 1024 (ro + k.desc.toNat % 2 ^ 512)

/-! ## Loading (R269) -/

/-- The comb unit as an accessing agent. -/
def TjOp.engine (o : TjOp) : Engine :=
  { ag := .comb o.n, who := Who.of o.core o.slot 3, p := o.part, core := o.core, pf := o.pf }

def State.setStore (s : State) (sid : Nat) (k : Store) : State := { s with stores := Table.set s.stores sid k }

/-- The store becomes broken; the operation returns the code (R278). A store that RESTORE has left to be loaded again is broken
when it is. DEDUCED, log entry 47. -/
def State.breakStore (s : State) (p sid : Nat) : State :=
  match Table.get? s.stores sid with
  | some k => if k.part = p then s.setStore sid { k with broken := true } else s
  | none => s.modPart p (fun x => { x with tjReload := x.tjReload.map (fun y => if y.1 == sid then (sid, true) else y) })

/-- Rebuild levels 0–4 from level-5 nodes n, n + 1, …. -/
def State.rebuild (s : State) (e : Engine) (k : Store) (n : Nat) (left : Nat) : Res (Except Fail Store) :=
  match left with
  | 0 => .ok s (.ok k)
  | j + 1 => (s.codedRead e (k.node5 n) 8).andThen (fun s v => State.rebuild s e { k with tree := treeAdd k.tree n v } (n + 1) j)

/-- A load after a write of TJTBL, or after a restore: the store, and the signature of the zeros written. -/
def State.fillStore (s : State) (o : TjOp) (k : Store) : Res (Except Fail (Store × Sig)) :=
  match ((s.part o.part).tjReload).find? (fun x => x.1 == o.sid) with
  | some (_, broken) =>
    let k1 := { k with seq := bitsOf k.desc 608 32, ver := BitVec.ofNat 32 (bitsOf k.desc 576 32), n := bitsOf k.desc 544 32
                       head := bitsOf k.desc 512 24, broken := broken }
    (s.rebuild o.engine k1 0 (k.nodes 5)).andThen (fun s k => .ok s (.ok (k, 0)))
  | none =>
    (s.codedWrite o.engine k.tbase (8 * k.cap + 8 * k.nodes 5) 0).andThen (fun s g =>
      .ok s (.ok ({ k with ver := BitVec.ofNat 32 (k.f 192 32) }, g)))

/-- A store that RESTORE has left to be loaded again was broken at the stop (R278). -/
def State.brokenThen (s : State) (o : TjOp) : Bool := (s.part o.part).tjReload.contains (o.sid, true)

/-- The store of an operation, loaded if it is not, with the signature of a load's writes: NOSTORE, or the code that broke it; BROKEN
when it was broken before. One whose load fails has nothing to write back. DEDUCED, log entry 47. -/
def State.loadStore (s : State) (o : TjOp) : Res (Except Fail (Store × Sig)) :=
  let e := o.engine
  let x := s.part o.part
  let mine : Option Store := match Table.get? s.stores o.sid with
    | some k => if k.part = o.part then some k else none
    | none => none
  match mine with
  | some k => .ok s (.ok (k, 0))
  | none =>
    let broke (s : State) (c : Fail) : Res (Except Fail (Store × Sig)) :=
      .ok (s.setStore o.sid { part := o.part, daddr := 0, desc := 0, broken := true })
        (.error (if s.brokenThen o then (9, c.2) else c))
    match s.codedRead e (x.tjtbl.toNat + 8 * o.sid) 8 with
    | .block t rid => .block t rid
    | .ok s1 (.error c) => broke s1 c
    | .ok s1 (.ok a) =>
      if a = 0 || a % 128 != 0 then .ok s1 (.error (3, 0))
      else match s1.codedRead e a 128 with
        | .block t rid => .block t rid
        | .ok s2 (.error c) => broke s2 c
        | .ok s2 (.ok d) =>
          let desc := BitVec.ofNat 1024 d
          if !descOk desc then .ok s2 (.error (3, 0))
          else match s2.fillStore o { part := o.part, daddr := a, desc := desc } with
            | .block t rid => .block t rid
            | .ok s3 (.error c) => broke s3 c
            | .ok s3 (.ok (k, g)) =>
              .ok ((s3.setStore o.sid k).modPart o.part (fun x => { x with tjReload := x.tjReload.filter (fun y => y.1 != o.sid) }))
                (.ok (k, g))

/-! ## The block (R281, R283–R288) -/

def TjOp.f (o : TjOp) (lo n : Nat) : Nat := bitsOf o.block lo n
def TjOp.notify (o : TjOp) : Bool := o.block.getLsbD 31
/-- The handle that TJPRI, TJEVT and TJGET name. -/
def TjOp.given (o : TjOp) : DWord := BitVec.ofNat 64 (o.f 32 64)

/-- The reserved bits and the address fields of a form's block. DEDUCED, log entry 48. -/
def TjOp.fieldsOk (o : TjOp) : Bool :=
  o.f 0 27 == 0 &&
  (match o.form with
   | 0 => o.f 256 256 == 0 && o.f 32 64 % 64 == 0
   | 1 => o.f 41 215 == 0 && o.f 256 64 % 64 == 0 && o.f 320 64 % 16 == 0
   | 2 => o.f 160 352 == 0
   | 3 => o.f 96 416 == 0
   | 4 => o.f 96 416 == 0
   | 5 => o.f 32 32 == 0 && o.f 256 256 == 0
   | _ => o.f 160 352 == 0 && o.f 96 64 % 64 == 0)

/-- The form names a handle (R287). -/
def TjOp.handled (o : TjOp) : Bool := o.form == 2 || o.form == 3 || o.form == 6

/-- The block checks of R281. -/
def State.blockOk (s : State) (o : TjOp) (k : Store) : Bool :=
  o.fieldsOk && (!o.notify || s.ownsSlot o.part o.core (o.f 27 4)) &&
  (!o.handled || (bitsOf o.given 24 8 == o.sid && bitsOf o.given 0 24 < k.cap))

/-- Checks 2 to 4 of R282: the store, and the signature of its load's writes. -/
def State.storeChecks (s : State) (o : TjOp) : Res (Except Fail (Store × Sig)) :=
  if !(s.part o.part).grant.getLsbD o.sid then .ok s (.error (3, 0))
  else
    (s.loadStore o).andThen (fun s k =>
      if k.1.broken then .ok s (.error (9, k.2))
      else if !s.blockOk o k.1 then .ok s (.error (4, k.2))
      else .ok s (.ok k))

/-! ## The tree (R273–R275) -/

/-- A priority in Q16.16, and PERR (R275). -/
def convPrio (x : Nat) : Nat × Bool :=
  match fmtF.value x with
  | .nan => (0, true)
  | .inf neg => if neg then (0, true) else (0xFFFFFFFF, false)
  | .fin _ 0 _ => (0, false)
  | .fin true _ _ => (0, true)
  | .fin false m e => (Nat.min (roundInt 0 0 false m (e + 16)).1.toNat 0xFFFFFFFF, false)

/-- A handle (R274). -/
def handleOf (gen sid slot : Nat) : DWord := BitVec.ofNat 64 (gen % 2 ^ 32 * 2 ^ 32 + sid * 2 ^ 24 + slot)

/-- Leaf i with its priority changed from one value to another and its generation set: the leaf, its level-5 node and the
levels above (R273). -/
def State.setLeaf (s : State) (e : Engine) (k : Store) (i old p gen : Nat) : Res (Except Fail (Store × Sig)) :=
  let d := (2 ^ 64 + p - old) % 2 ^ 64
  (s.treeOp e .swp (k.leaf i) (gen % 2 ^ 32 * 2 ^ 32 + p)).andThen fun s g =>
    ((s.treeOp e .add (k.node5 (i / 16)) d).wrote g).andThen fun s h =>
      if k.badAbove (i / 16) then .ok s (.error (7, g ||| h))
      else .ok s (.ok ({ k with tree := treeAdd k.tree (i / 16) d }, g ||| h))

/-- Leaf i: its generation and priority. -/
def State.readLeaf (s : State) (e : Engine) (k : Store) (i : Nat) : Res (Except Fail (Nat × Nat)) :=
  (s.codedRead e (k.leaf i) 8).andThen (fun s v => .ok s (.ok (v / 2 ^ 32, v % 2 ^ 32)))

/-- The sum of a node: in SRAM, or in the tree region. DESIGN CHOICE, log entry 45. -/
def State.nodeSum (s : State) (e : Engine) (k : Store) (level n : Nat) : Res (Except Fail Nat) :=
  match level with
  | 6 => (s.readLeaf e k n).andThen (fun s v => .ok s (.ok v.2))
  | 5 => s.codedRead e (k.node5 n) 8
  | _ => if k.badNode level n then .ok s (.error (7, 0)) else .ok s (.ok (k.sum level n))

/-- The child whose range holds x, with x less the sums before it; else the last child with a sum (R284). DESIGN CHOICE, log entry 45. -/
def State.pickChild (s : State) (e : Engine) (k : Store) (level : Nat) (cs : List Nat) (x : Nat) (last : Option (Nat × Nat)) :
    Res (Except Fail (Option (Nat × Nat))) :=
  match cs with
  | [] => .ok s (.ok last)
  | c :: rest =>
    (s.nodeSum e k level c).andThen (fun s v =>
      if x < v then .ok s (.ok (some (c, x)))
      else State.pickChild s e k level rest (x - v) (if v = 0 then last else some (c, v - 1)))

/-- The descent from a node to a leaf; none when every child's sum is zero. DESIGN CHOICE, log entry 45. -/
def State.descend (s : State) (e : Engine) (k : Store) (level n x left : Nat) : Res (Except Fail (Option Nat)) :=
  match left with
  | 0 => .ok s (.ok (some n))
  | j + 1 =>
    let cs := (List.range 16).filterMap (fun i => if 16 * n + i < k.nodes (level + 1) then some (16 * n + i) else none)
    (s.pickChild e k (level + 1) cs x none).andThen (fun s r =>
      match r with
      | some (c, y) => State.descend s e k (level + 1) c y j
      | none => .ok s (.ok none))

/-! ## TJSMP (R284, R285) -/

/-- Draw j. -/
def TjOp.drawOf (o : TjOp) (k : Store) (q j : Nat) : Nat :=
  if o.block.getLsbD 40 then (o.draws.getD j 0).toNat
  else bitsOf (mix (BitVec.ofNat 64 (k.f 128 64)) (BitVec.ofNat 32 o.sid) (BitVec.ofNat 64 (q * 256 + j))) 0 32

/-- The entries of a batch from entry j on: the slot with its generation and priority, or none for ZERO. -/
def State.drawAll (s : State) (o : TjOp) (k : Store) (q b j left : Nat) (es : List (Option (Nat × Nat × Nat))) :
    Res (Except Fail (List (Option (Nat × Nat × Nat)))) :=
  match left with
  | 0 => .ok s (.ok es)
  | r + 1 =>
    let t := k.total
    if t = 0 then State.drawAll s o k q b (j + 1) r (es ++ [none])
    else
      let x := (j * t + t * o.drawOf k q j / 2 ^ 32) / b
      (s.descend o.engine k 0 0 x 6).andThen (fun s i =>
        match i with
        | none => State.drawAll s o k q b (j + 1) r (es ++ [none])
        | some i => (s.readLeaf o.engine k i).andThen (fun s v => State.drawAll s o k q b (j + 1) r (es ++ [some (i, v.1, v.2)])))

/-- The unnormalised weight of a priority, with its flags (R285). -/
def weightOf (n t beta p : Nat) : Nat × Flags :=
  let a := f32 (.fin false n 0)
  let b := f32 (.fin false p 0)
  let c := f32 (.fin false t 0)
  let d := mulF a.1 b.1
  let qv := divF d.1 c.1
  let l := vlog2F qv.1
  let m := mulF (Nat.xor beta (2 ^ 31)) l.1
  let w := vexp2F m.1
  (w.1, a.2 ||| b.2 ||| c.2 ||| d.2 ||| qv.2 ||| l.2 ||| m.2 ||| w.2)

/-- The result entries and the flags of their weights (R285). DESIGN CHOICE, log entry 50. -/
def weigh (sid n t beta : Nat) (es : List (Option (Nat × Nat × Nat))) : List (DWord × Word × BitVec 3) × Flags :=
  let ws := es.map (fun e => e.map (fun x => (handleOf x.2.1 sid x.1, weightOf n t beta x.2.2)))
  let big := ws.foldl (fun m w => match w with
    | some w => Nat.max m w.2.1
    | none => m) 0
  let rs := ws.map (fun w => match w with
    | some w => let r := divF w.2.1 big; (((w.1, BitVec.ofNat 32 r.1, 0) : DWord × Word × BitVec 3), w.2.2 ||| r.2)
    | none => ((0, 0, 2), 0))
  (rs.map (·.1), rs.foldl (fun f r => f ||| r.2) 0)

/-! ## Linearisation (R276, R283–R288) -/

/-- A doubleword as two RO words of a block. -/
def roPair (i : Nat) (x : DWord) : List (Nat × Word) := [(i, loWord x), (i + 1, hiWord x)]

/-- The operation ends with a code, after writes of a signature. -/
def TjOp.ended (o : TjOp) (c : Fail) : TjOp :=
  { o with code := c.1, sig := o.sig ||| c.2, finished := true, tasks := [] }

/-- TJINS. -/
def State.linIns (s : State) (o : TjOp) (k : Store) : Res (Except Fail TjOp) :=
  let i := k.head
  (s.readLeaf o.engine k i).andThen fun s v =>
    let live := v.1 % 2 == 1
    if live && k.fullref then .ok s (.ok { o with code := 2, ro := roPair 6 0 })
    else
      let evh := if live then handleOf v.1 o.sid i else 0
      let gen := (v.1 + (if live then 2 else 1)) % 2 ^ 32
      let (p, perr) := convPrio (o.f 96 32)
      (s.setLeaf o.engine k i v.2 p gen).andThen fun s r =>
        let h := handleOf gen o.sid i
        let k1 : Store := { r.1 with n := if live then k.n else k.n + 1, head := (k.head + 1) % k.cap }
        let o1 : TjOp := { o with
          perr := perr, ro := roPair 4 h ++ roPair 6 evh, handle := h, sig := o.sig ||| r.2
          tasks := [.record i (BitVec.ofNat 32 (o.f 96 32)) gen]
          code := if (o.src.getD []).any (·.2) then 8 else 0 }
        .ok (s.setStore o.sid k1) (.ok o1)

/-- TJSMP. -/
def State.linSmp (s : State) (o : TjOp) (k : Store) : Res (Except Fail TjOp) :=
  let q := k.seq
  let b := o.f 32 8 + 1
  let s1 := s.setStore o.sid { k with seq := (q + 1) % 2 ^ 32 }
  (s1.drawAll o k q b 0 b []).andThen fun s es =>
    let (entries, flags) := weigh o.sid k.n k.total (k.f 256 32) es
    let copies := ((List.range b).zip es).filterMap (fun je =>
      je.2.map (fun x => CombTask.copy x.1 (o.f 256 64 + je.1 * k.recLen) (some je.1)))
    let outs := (List.range b).map (fun j => CombTask.entry j (o.f 320 64 + 16 * j))
    .ok s (.ok { o with
      entries := entries, flags := flags, tasks := copies ++ outs
      ro := roPair 14 (BitVec.ofNat 64 k.total) ++ [(13, BitVec.ofNat 32 k.n), (12, BitVec.ofNat 32 q)] })

/-- TJPRI, TJEVT and TJGET on a handle (R287). -/
def State.linHandle (s : State) (o : TjOp) (k : Store) : Res (Except Fail TjOp) :=
  let i := bitsOf o.given 0 24
  (s.readLeaf o.engine k i).andThen fun s v =>
    if v.1 != bitsOf o.given 32 32 || v.1 % 2 == 0 then .ok s (.ok { o with code := 1 })
    else match o.form with
      | 2 =>
        let (p, perr) := convPrio (o.f 96 32)
        (s.setLeaf o.engine k i v.2 p v.1).andThen fun s r =>
          .ok (s.setStore o.sid r.1) (.ok { o with
            perr := perr, ro := [(4, BitVec.ofNat 32 v.2)], sig := o.sig ||| r.2
            tasks := [.prio i (BitVec.ofNat 32 (o.f 96 32))] })
      | 3 =>
        (s.setLeaf o.engine k i v.2 0 (v.1 + 1)).andThen fun s r =>
          .ok (s.setStore o.sid { r.1 with n := (k.n + 2 ^ 32 - 1) % 2 ^ 32 }) (.ok { o with sig := o.sig ||| r.2 })
      | _ => .ok s (.ok { o with tasks := [.copy i (o.f 96 64) none] })

/-- An operation whose checks have passed takes effect; a failure inside the tree breaks the store (R278). -/
def State.linearise (s : State) (o : TjOp) (k : Store) : Res (Except Fail TjOp) :=
  match o.form with
  | 0 => s.linIns o k
  | 1 => if k.badNode 0 0 then .ok (s.setStore o.sid { k with seq := (k.seq + 1) % 2 ^ 32 }) (.error (7, 0)) else s.linSmp o k
  | 4 =>
    .ok (s.setStore o.sid { k with ver := BitVec.ofNat 32 (o.f 32 32) }) (.ok { o with ro := [(2, k.ver)] })
  | 5 =>
    if k.badNode 0 0 then .ok s (.error (7, 0))
    else .ok s (.ok { o with ro := roPair 2 (BitVec.ofNat 64 k.total) ++
                  [(4, BitVec.ofNat 32 k.n), (5, k.ver), (6, BitVec.ofNat 32 k.head), (7, BitVec.ofNat 32 k.seq)] })
  | _ => s.linHandle o k

/-- What words 2 and 3 of the message hold before the operation has an outcome (R281). DEDUCED, log entry 48. -/
def TjOp.handleAt (o : TjOp) (k : Store) : DWord :=
  if o.form == 1 then BitVec.ofNat 64 k.seq else if o.handled then o.given else 0

/-- The head of the queue: its checks, then its effect; the operation as it is after. -/
def State.runOp (s : State) (o : TjOp) : Res TjOp :=
  match s.storeChecks o with
  | .block t rid => .block t rid
  | .ok s1 (.error c) => .ok s1 { o.ended c with checked := false }
  | .ok s1 (.ok (k, g)) =>
    let o0 := { o with checked := true, sig := o.sig ||| g, handle := o.handleAt k }
    if o.form == 0 && (o.src.getD []).length * 32 != k.recLen then .ok s1 { o0 with src := none }
    else match s1.linearise { o0 with desc := k.desc, ver := k.ver } k with
      | .block t rid => .block t rid
      | .ok s2 (.ok o1) => .ok s2 { o1 with linearised := true, finished := o1.tasks.isEmpty }
      | .ok s2 (.error c) => .ok (s2.breakStore o.part o.sid) { o0.ended c with linearised := true }

/-- The source record of a TJINS is read, at once when it arrives or at its turn (R277). -/
def State.readSource (s : State) (o : TjOp) : Res TjOp :=
  match s.storeChecks o with
  | .block t rid => .block t rid
  | .ok s1 (.error c) => .ok s1 (o.ended c)
  | .ok s1 (.ok (k, g)) =>
    let o0 := { o with checked := true, sig := o.sig ||| g }
    match s1.readMarked o.engine ((List.range (k.recLen / 32)).map (fun i => (o.f 32 64 + 32 * i) % 2 ^ 64)) [] with
    | .block t rid => .block t rid
    | .ok s2 (.error c) => .ok s2 (o0.ended c)
    | .ok s2 (.ok ls) => .ok s2 { o0 with src := some ls }

/-! ## The accesses after the linearisation (R276–R278) -/

/-- The descriptor at the linearisation, as a store. -/
def TjOp.store (o : TjOp) : Store := { part := o.part, daddr := 0, desc := o.desc }

/-- A failure's code takes the place of OK and PARTIAL; PARTIAL that of OK. -/
def TjOp.mark (o : TjOp) (c : Nat) : TjOp := if o.code == 0 || (o.code == 8 && c != 8) then { o with code := c } else o

/-- The slot whose record bytes a task touches. -/
def CombTask.slot? (t : CombTask) : Option Nat :=
  match t with
  | .copy i _ _ | .record i _ _ | .prio i _ => some i
  | .entry .. => none

/-- An entry's flags: 1 STALE, 2 ZERO, 4 POISON (R286). -/
def TjOp.setFlags (o : TjOp) (j : Nat) (f : BitVec 3) : TjOp :=
  { o with entries := (o.entries.zip (List.range o.entries.length)).map (fun ei =>
      if ei.2 = j then (ei.1.1, ei.1.2.1, f) else ei.1) }

/-- STALE of entry j from VER of its record (R284). -/
def TjOp.judge (o : TjOp) (j : Option Nat) (header : Line) : TjOp :=
  match j with
  | some j => o.setFlags j (if bitsOf header 64 32 + o.store.f 224 32 < o.ver.toNat then 1 else 0)
  | none => o

/-- The first task is done. -/
def TjOp.nextTask (o : TjOp) : TjOp := { o with tasks := o.tasks.drop 1, buf := none, copied := 0 }

/-- Write the next 1 KiB of a record image (R279); the task ends with its last line. -/
def State.recordChunk (s : State) (o : TjOp) (va : Nat) (ls : List (Line × Bool)) : Res (Except Fail TjOp) :=
  (s.writeMarked o.engine (va + 32 * o.copied) ((ls.drop o.copied).take 32) 0).andThen (fun s g =>
    let o1 := { o with sig := o.sig ||| g }
    .ok s (.ok (if ls.length ≤ o.copied + 32 then o1.nextTask else { o1 with copied := o.copied + 32 })))

/-- A record copy: the record is read whole and judged, then written (R278, R284). DESIGN CHOICE, log entry 45. -/
def State.copyRecord (s : State) (o : TjOp) (slot dst : Nat) (j : Option Nat) : Res TjOp :=
  let k := o.store
  match o.buf with
  | none =>
    (match s.readMarked o.engine ((List.range (k.recLen / 32)).map (fun i => k.rbase + slot * k.recLen + 32 * i)) [] with
     | .block t rid => .block t rid
     | .ok s1 (.error c) =>
       let o1 := (o.mark c.1).nextTask
       .ok s1.tick (match j with
         | some j => o1.setFlags j (if Config.unreadStale s1.fresh then 1 else 0)
         | none => o1)
     | .ok s1 (.ok ls) =>
       if ls.any (·.2) then
         let o1 := (o.mark 8).nextTask
         .ok s1 (match j with
           | some j => o1.setFlags j 4
           | none => o1)
       else
         let o1 := o.judge j ((ls.headD (0, false)).1)
         .ok s1 (if o.dstGone then o1.nextTask else { o1 with buf := some ls }))
  | some ls =>
    match s.recordChunk o dst ls with
    | .block t rid => .block t rid
    | .ok s1 (.ok o1) => .ok s1 o1
    | .ok s1 (.error c) => .ok s1 { (o.mark c.1).nextTask with sig := o.sig ||| c.2, dstGone := true }

/-- A task that writes in the record region: the operation after it, or the code that breaks the store. -/
def State.recordWritten (o : TjOp) (r : Res (Except Fail TjOp)) : Res TjOp :=
  match r with
  | .block t rid => .block t rid
  | .ok s (.ok o1) => .ok s o1
  | .ok s (.error c) => .ok (s.breakStore o.part o.sid) { o.mark c.1 with sig := o.sig ||| c.2, tasks := [] }

/-- The record image of a TJINS with its PRIO and GEN (R272, R283). -/
def recordImage (ls : List (Line × Bool)) (prio : Word) (gen : Nat) : List (Line × Bool) :=
  match ls with
  | (h, pois) :: rest =>
    let kept := h.toNat / 2 ^ 224 * 2 ^ 224 + gen % 2 ^ 32 * 2 ^ 192 + bitsOf h 32 160 * 2 ^ 32 + prio.toNat
    (BitVec.ofNat 256 kept, pois) :: rest
  | [] => []

/-- The next access of a linearised operation. -/
def State.runTask (s : State) (o : TjOp) : Res TjOp :=
  let k := o.store
  match o.tasks with
  | [] => .ok s o
  | .copy slot dst j :: _ => s.copyRecord o slot dst j
  | .record slot prio gen :: _ =>
    State.recordWritten o (s.recordChunk o (k.rbase + slot * k.recLen) (recordImage (o.src.getD []) prio gen))
  | .prio slot p :: _ =>
    State.recordWritten o ((s.codedWrite o.engine (k.rbase + slot * k.recLen) 4 p.toNat).andThen (fun s g =>
      .ok s (.ok { o.nextTask with sig := o.sig ||| g })))
  | .entry j a :: rest =>
    let (h, w, f) := o.entries.getD j (0, 0, 0)
    match s.codedWrite o.engine a 16 (h.toNat + w.toNat * 2 ^ 64 + f.toNat * 2 ^ 96) with
    | .block t rid => .block t rid
    | .ok s1 (.ok g) => .ok s1 { o.nextTask with sig := o.sig ||| g }
    | .ok s1 (.error c) =>
      .ok s1 { o.mark c.1 with sig := o.sig ||| c.2, tasks := rest.filter (fun t => match t with
        | .entry .. => false
        | _ => true) }

/-! ## COMB_OPERATION -/

/-- An operation waits for a page answer. -/
def TjOp.waits (o : TjOp) : Bool :=
  match o.pf with
  | .waiting _ => true
  | _ => false

/-- A page fault holds an operation, with a fault entry or without one yet. -/
def State.tjHeld (s : State) (o : TjOp) : Bool := o.waits || s.pageHeld (.comb o.n)

/-- An earlier operation of the same store holds this one (R278). -/
def State.heldStore (s : State) (o : TjOp) : Bool :=
  (s.comb.takeWhile (fun q => q.n != o.n)).any (fun q =>
    q.sid == o.sid && q.die == o.die && !q.finished && (s.tjHeld q || q.stuck))

/-- An earlier operation has a record access of the same slot before it (R276). -/
def State.slotBefore (s : State) (o : TjOp) : Bool :=
  match o.tasks.head? with
  | some t =>
    (match t.slot? with
     | some i => (s.comb.takeWhile (fun q => q.n != o.n)).any (fun q =>
         q.sid == o.sid && q.die == o.die && q.tasks.any (fun u => u.slot? == some i))
     | none => false)
  | none => true

/-- The arrival of an operation at its comb unit, where those of one fabric cycle come in the order of their threads (R276). -/
def TjOp.met (o : TjOp) : Met := { home := 2 ^ 40 + o.die, place := 0, rank := slotRank o.core o.slot }

/-- The operations that could reach a unit now. -/
def State.combArrivals (s : State) (die : Nat) : List TjOp :=
  s.comb.filter (fun o => o.die == die && !o.arrived && !s.overtaken o.met)

/-- A comb operation at a unit, of a partition whose stop does not hold it (R279). -/
def State.combRuns (s : State) (die : Nat) : List TjOp :=
  s.comb.filter (fun o => o.die == die && o.arrived && s.partRuns o.part && !o.finished && !o.waits)

/-- The operation at the head of a unit's queue, past those that a page fault holds and those of their stores. -/
def State.combHead (s : State) (die : Nat) : Option TjOp :=
  (s.combRuns die).find? (fun o => !o.linearised && !s.heldStore o && !s.tjHeld o)

/-- The operations that could take a step: one that arrives, a record access, a source to read, the head, or one that wants a fault
entry. -/
def State.combReady (s : State) (die : Nat) : List TjOp :=
  let tasks := (s.combRuns die).filter (fun o => o.linearised && !s.slotBefore o)
  let early := (s.combRuns die).filter (fun o => !o.linearised && !s.heldStore o)
  let sources := early.filter (fun o => o.form == 0 && o.src.isNone)
  let again := early.filter (fun o => s.tjHeld o && !(o.form == 0 && o.src.isNone))
  let head := match s.combHead die with
    | some o => if o.form == 0 && o.src.isNone then [] else [o]
    | none => []
  s.combArrivals die ++ tasks ++ sources ++ head ++ again

/-- An operation's next step. DESIGN CHOICE, log entry 38. -/
def State.combStep (s : State) (o : TjOp) : Res TjOp :=
  if o.linearised then s.runTask o
  else if o.form == 0 && o.src.isNone then s.readSource o
  else s.runOp o

/-- The operation after a step, in its place; one that linearises joins the linearised ones. -/
def State.putOp (s : State) (o : TjOp) : State :=
  let others := s.comb.filter (fun q => q.n != o.n)
  match s.comb.find? (fun q => q.n == o.n) with
  | some old =>
    if o.linearised && !old.linearised then
      { s with comb := others.filter (·.linearised) ++ [o] ++ others.filter (fun q => !q.linearised) }
    else { s with comb := s.comb.map (fun q => if q.n == o.n then o else q) }
  | none => s

/-- An operation arrives: it takes the last place of the queue (R276). -/
def State.tjArrive (s : State) (o : TjOp) : State :=
  let others := s.comb.filter (fun q => q.n != o.n)
  { (s.meet o.met).tick with
    comb := others.filter (·.arrived) ++ [{ o with arrived := true }] ++ others.filter (fun q => !q.arrived) }

/-- COMB_OPERATION: at a comb unit an operation arrives, a source is read, the operation at the head of the queue linearises, or a
linearised one makes an access; a page fault holds the operation (R276–R278). DESIGN CHOICE, log entry 38. -/
def execCombOperation (die : Nat) (s : State) : Next :=
  let os := s.combReady die
  .next (match os[Config.combTurn s.fresh % os.length]? with
  | none => s
  | some o =>
    if !o.arrived then s.tjArrive o
    else match s.combStep o with
    | .ok s1 o1 =>
      let o2 := { o1 with pf := .clear, finished := o1.finished || (o1.linearised && o1.tasks.isEmpty) }
      ((s1.forget (.comb o.n)).tick).putOp o2
    | .block t rid =>
      let s1 := s.blocked t (.comb o.n)
      s1.putOp { o with pf := (rid.map Pf.waiting).getD o.pf
                        stuck := o.stuck || (o.linearised && (rid.isSome || s1.pageHeld (.comb o.n))) })

/-! ## COMB_ANSWER (R277, R281, R282) -/

/-- The status word. DEDUCED, log entry 48. -/
def TjOp.status (o : TjOp) : Word :=
  BitVec.ofNat 32 (o.flags.toNat * 2 ^ 24 + (if o.perr then 2 ^ 8 else 0) + o.code)

/-- The message of an operation that has passed the store and block checks. -/
def TjOp.message (o : TjOp) : Option MsgPkt :=
  if o.notify && o.checked then
    some { core := o.core, cls := o.f 27 4, sender := .comb o.die
           msg := { w0 := BitVec.ofNat 32 (o.form * 256 + o.sid), w1 := o.status, w2 := loWord o.handle
                    w3 := hiWord o.handle, sig := o.sig } }
  else none

/-- COMB_ANSWER: every write of the operation has been acknowledged; the answer, then the message. -/
def execCombAnswer (n : Nat) (s : State) : Next :=
  .next (match s.comb.find? (fun o => o.n == n) with
  | some o =>
    if !(o.finished && s.partRuns o.part) then s
    else
      let a : Answer := { val := o.status.toNat, sig := o.sig
                          words := o.ro.flatMap (fun r => [BitVec.ofNat 32 r.1, r.2]) }
      let s1 := { s with comb := s.comb.filter (fun q => q.n != n) }
      let s2 := s1.send o.part (dieCore o.die) (.wake o.tid o.seq a)
      match o.message with
      | some m => s2.send o.part (dieCore o.die) (.msg m)
      | none => s2
  | none => s)

/-! ## The forms (R280) -/

/-- What the checks of a parameter block come to. -/
inductive BlockRead where
  | ok (s : State) (bytes : List Byte)
  | trap (cause va : Nat)
  | wait (w : Wait)

/-- Some bytes of a block: bounds, watermark, poison. DEDUCED, log entry 46. -/
def State.blockBytes (s : State) (o len : Nat) : BlockRead :=
  let p := s.thr.tid.part
  let c := s.thr.core
  let offs := span o len
  let va := (ownWindow o).toNat
  if o + len ≤ 65536 && s.l1cfgWaits p c then .wait .l1cfg
  else if s.scratchSize p c < o + len then .trap 0x05 va
  else match s.heldMark p c offs with
    | some k => .wait (.watermark k)
    | none =>
      let (s1, bs, pois) := s.scratchRead p c offs
      if pois then .trap 0x06 va else .ok s1 bs

/-- The whole block of a form; MODE and BM1 of TJSMP give its length. DEDUCED, log entry 46. -/
def State.block (s : State) (form o : Nat) : BlockRead :=
  if o % 64 != 0 then .trap 0x03 (ownWindow o).toNat
  else match s.blockBytes o 64 with
    | .ok s1 bs =>
      let b := BitVec.ofNat 512 (leNat bs)
      if form == 1 && b.getLsbD 40 then s1.blockBytes o (64 + 4 * (bitsOf b 32 8 + 1)) else .ok s1 bs
    | r => r

/-- The RO words of an answer, as scratchpad bytes of the block. DEDUCED, log entry 48. -/
def roBytes (o : Nat) (ws : List Word) : List (Nat × Byte) :=
  match ws with
  | i :: w :: rest => ((span (o + 4 * i.toNat) 4).zip (leBytes w.toNat 4)) ++ roBytes o rest
  | _ => []

/-- The answer: the block's RO fields, the status, and the acquire (R277, R280). -/
def State.tjDone (s : State) (d : BitVec 4) (o : Nat) (a : Answer) : State :=
  let bs := roBytes o a.words
  if !bs.isEmpty && s.l1cfgWaits s.thr.tid.part s.thr.core then s.park .l1cfg
  else
  let s1 := if bs.isEmpty then s else s.scratchWrite s.thr.tid.part s.thr.core bs
  let s2 := s1.acquire 4 a.sig
  ({ s2 with thr := s2.thr.ws d (BitVec.ofNat 32 a.val) }).retire 4 1

/-- The operation goes to the comb unit, with the signature of its release (R294). DEDUCED, log entry 27. -/
def State.sendTj (s : State) (form sid : Nat) (bs : List Byte) : State :=
  let t := s.thr
  let v := leNat bs
  let o : TjOp := { n := s.seqno, die := sid / 4, tid := t.tid, seq := s.seqno, part := t.tid.part, core := t.core
                    slot := t.slot, form := form, sid := sid, block := BitVec.ofNat 512 v, sig := t.stage.sig
                    draws := (List.range ((bs.length - 64) / 4)).map (fun i => BitVec.ofNat 32 (v / 2 ^ (512 + 32 * i))) }
  { s with comb := s.comb ++ [o], seqno := s.seqno + 1, thr := { t with expect := some s.seqno } }

/-- A TJ form. DEDUCED, log entry 46. -/
def tjForm (form : Nat) (g d a b : BitVec 4) (s : State) : Next :=
  guarded g 4 s (fun s =>
    let t := s.thr
    let o := (t.rs a).toNat
    match t.answer with
    | some r => s.answered r (fun s r => s.tjDone d o r)
    | none =>
      if t.stage.sent then s.park .answer
      else match s.block form o with
        | .trap c va => s.accessTrap c va
        | .wait w => s.park w
        | .ok s1 bs =>
          let (s2, made) := (s1.markAcquire (span o bs.length)).release 4
          if !made then s2.park .release
          else
            let sid := (s2.thr.rs b).toNat
            if 64 ≤ sid then s2.tjDone d o { val := 3 }
            else (s2.sendTj form sid bs).sent.park .answer)

/-- TJINS (R283). -/
def execTjins (g d a b : BitVec 4) (s : State) : Next := tjForm 0 g d a b s
/-- TJSMP (R284). -/
def execTjsmp (g d a b : BitVec 4) (s : State) : Next := tjForm 1 g d a b s
/-- TJPRI (R287). -/
def execTjpri (g d a b : BitVec 4) (s : State) : Next := tjForm 2 g d a b s
/-- TJEVT (R287). -/
def execTjevt (g d a b : BitVec 4) (s : State) : Next := tjForm 3 g d a b s
/-- TJVER (R288). -/
def execTjver (g d a b : BitVec 4) (s : State) : Next := tjForm 4 g d a b s
/-- TJQRY (R288). -/
def execTjqry (g d a b : BitVec 4) (s : State) : Next := tjForm 5 g d a b s
/-- TJGET (R287). -/
def execTjget (g d a b : BitVec 4) (s : State) : Next := tjForm 6 g d a b s

end Sys2Proof.Machine
end

