-- ==== Sys2Proof/Machine/Sluice.lean ====
section
/-! DEFINITION. Activation stacks and the sluice engines (R71–R76): loading an entry, the AX forms, their linearisation, and
spills and recalls. Their data copies run in the copy engine. -/

namespace Sys2Proof.Machine

/-! ## Entries (R71, R72) -/

/-- The fields of an entry with some RO fields. -/
def Stack.of (a : Nat) (d : BitVec 512) (keep : Bool) : Stack :=
  let f (lo n : Nat) : Nat := bitsOf d lo n
  let ro (lo n : Nat) : Nat := if keep then f lo n else 0
  { eaddr := a, fbase := f 448 64, wbase := f 384 64, wlen := f 352 32, hi := f 320 32, lo := f 288 32, flen := f 256 32
    lbase := f 64 64, home := f 4 4
    valid := f 8 56 == 0 && f 1 3 == 0 && d.getLsbD 0 && f 448 12 == 0 && f 384 12 == 0 && f 352 32 != 0
      && decide (f 288 32 < f 320 32) && decide (f 320 32 ≤ f 352 32) && f 256 32 != 0 && f 64 2 == 0
    depth := ro 240 16, cold := ro 224 16, total := ro 192 32, hot := ro 160 32, wtop := ro 128 32 }

/-- The RO fields as they are written back: DEPTH, COLD, TOTAL, HOT and WTOP in bits 255 to 128 of the entry. -/
def Stack.ro (k : Stack) : Nat :=
  k.depth % 2 ^ 16 * 2 ^ 112 + k.cold % 2 ^ 16 * 2 ^ 96 + k.total % 2 ^ 32 * 2 ^ 64 + k.hot % 2 ^ 32 * 2 ^ 32 + k.wtop % 2 ^ 32

def State.stack? (s : State) (p st : Nat) : Option Stack := Table.get? s.stackTab (16 * p + st)
def State.setStack (s : State) (p st : Nat) (k : Stack) : State := { s with stackTab := Table.set s.stackTab (16 * p + st) k }

/-- The cause of a failed access (R74, R92). DEDUCED, log entry 40. -/
def axCause (c : Nat) : Nat :=
  match c with
  | 5 => 0x05
  | 6 => 0x04
  | _ => 0x06

/-- A result whose failure is a cause and its detail. -/
abbrev AxRes (α : Type) := Res (Except (Nat × Nat) α)

/-- A result with an access's failure as a cause and its address. DEDUCED, log entry 40. -/
def axFail {α : Type} (va : Nat) (r : Res (Except Fail α)) : AxRes α :=
  match r with
  | .ok s (.ok a) => .ok s (.ok a)
  | .ok s (.error c) => .ok s (.error (axCause c.1, va))
  | .block t rid => .block t rid

/-- The stack of an entry, loaded if it is not: after an AXTBL write its RO fields are 0, after a restore as written back, and
the spill or recall that was under way goes on (R72, R76). A stack that was not loaded at the stop had nothing written back
and takes 0; one whose entry was invalid then takes what stands in memory. DEDUCED, log entry 40. DESIGN CHOICE, log entry 96.
DESIGN CHOICE, log entry 122. -/
def State.loadStack (s : State) (e : Engine) (p st : Nat) : AxRes Stack :=
  match s.stack? p st with
  | some k => .ok s (.ok k)
  | none =>
    let x := s.part p
    let a := x.axtbl.toNat + 64 * st
    (axFail a (s.codedRead e a 64)).andThen (fun s d =>
      let saved := x.axReload.find? (fun r => r.stack == st)
      let k0 := Stack.of a (BitVec.ofNat 512 d) saved.isSome
      let k := { k0 with job := saved.bind (·.job), wtop := (k0.wtop + s.pushing p st) % Nat.max 1 k0.wlen }
      .ok ((s.setStack p st k).modPart p (fun x => { x with axReload := x.axReload.filter (fun r => r.stack != st) })) (.ok k))

/-! ## The operations (R74) -/

/-- The detail of a STACK trap. -/
def stackDetail (reason st : Nat) : Nat := reason * 256 + st % 16
def stackTrap {α : Type} (s : State) (reason st : Nat) : AxRes α := .ok s (.error (0x12, stackDetail reason st))

/-- A legal length operand. -/
def legalLen (n : Nat) : Bool := n != 0 && n % 256 == 0 && n ≤ 2 ^ 26

/-- The length of frame i, in units of 256 bytes. DEDUCED, log entry 40. -/
def State.frameLen (s : State) (e : Engine) (k : Stack) (i : Nat) : AxRes Nat :=
  axFail (k.lbase + 4 * i) (s.codedRead e (k.lbase + 4 * i) 4)

/-- A place in the ring, some units before WTOP. -/
def Stack.back (k : Stack) (n : Nat) : Nat := (k.wtop + k.wlen - n % k.wlen) % k.wlen

/-- A stack without its top frame, of n units; a spill or recall of that frame ends. -/
def Stack.removeTop (k : Stack) (n : Nat) : Stack :=
  let d := k.depth - 1
  if k.cold < k.depth then
    { k with depth := d, total := k.total - n, hot := k.hot - n, wtop := k.back n, idle := none
             job := match k.job with
               | some j => if j.spill && d == k.cold then none else some j
               | none => none }
  else { k with depth := d, total := k.total - n, cold := k.cold - 1, job := none, idle := none }

/-- A command of the stack's data joins the issuing slot's copy queue (R75); its transfer id. -/
def State.addCopy (s : State) (o : StackOp) (x : AxCopy) : State × Nat :=
  let q := s.queueAt o.core o.slot false
  let c : Cmd := { id := q.next, word := BitVec.ofNat 256 (2 ^ 10 + 4 * 2 ^ 12), cap := {}, ax := some x, sig := o.sig }
  ({ s.setQueueAt o.core o.slot false { q with cmds := q.cmds ++ [c], next := q.next + 1 } with seqno := s.seqno + 1 },
    q.next.toNat)

/-- The pending push copies of frames from d on are of frames that have gone (R76). -/
def State.framesGone (s : State) (p st d : Nat) : State :=
  let f (c : Cmd) : Cmd := { c with ax := c.ax.map (fun x =>
    if x.stack == st && x.push && d ≤ x.frame then { x with gone := true } else x) }
  { s with slots := s.slots.map (fun k =>
      if s.queuePart (k.1 / 16) (k.1 % 16) == p then
        (k.1, { k.2 with copy := { k.2.copy with cmds := k.2.copy.cmds.map f } })
      else k) }

/-- The pending push copy of a frame that is on the stack. -/
def State.pushOf (s : State) (p st d : Nat) : Option Nat :=
  ((s.axPending p st).find? (fun y => y.push && !y.gone && y.frame == d)).map (·.n)

/-- The engine that serves an operation. DEDUCED, log entry 41. -/
def StackOp.engine (o : StackOp) : Engine :=
  { ag := .stackOp o.n, who := Who.of o.core o.slot 4, p := o.part, core := o.core, pf := o.pf }

/-- AXPUSH at the home sluice engine. DEDUCED, log entry 27. DEDUCED, log entry 39. -/
def State.axPush (s : State) (o : StackOp) (k : Stack) : AxRes Nat :=
  let n := o.arg / 256
  if k.hi < n || k.depth == 65535 || k.flen < k.total + n then stackTrap s 2 o.stack
  else
    let a := k.lbase + 4 * k.depth
    (axFail a (s.codedWrite o.engine a 4 n)).andThen (fun s _ =>
      let x : AxCopy := { stack := o.stack, push := true, len := o.arg, addr := o.addr, ring := 256 * k.wtop, cold := none
                          arm := false, wbase := k.wbase, wlen := k.wlen, frame := k.depth, n := s.seqno }
      let k1 := { k with depth := k.depth + 1, total := k.total + n, hot := k.hot + n, wtop := (k.wtop + n) % k.wlen, idle := none }
      let (s1, id) := (s.setStack o.part o.stack k1).addCopy o x
      .ok s1 (.ok id))

/-- AXPOP at the home sluice engine. DEDUCED, log entry 39. -/
def State.axPop (s : State) (o : StackOp) (k : Stack) : AxRes Nat :=
  if k.depth == 0 then stackTrap s 3 o.stack
  else
    (s.frameLen o.engine k (k.depth - 1)).andThen (fun s n =>
      if o.arg < 256 * n then stackTrap s 5 o.stack
      else
        let k1 := k.removeTop n
        let x : AxCopy := { stack := o.stack, push := false, len := 256 * n, addr := o.addr, ring := 256 * k.back n
                            cold := if k.cold < k.depth then none else some (k.fbase + 256 * (k.total - n))
                            arm := o.w, wbase := k.wbase, wlen := k.wlen, frame := k1.depth
                            src := s.pushOf o.part o.stack k1.depth, n := s.seqno }
        let (s1, id) := ((s.setStack o.part o.stack k1).framesGone o.part o.stack k1.depth).addCopy o x
        .ok s1 (.ok id))

/-- AXDEPTH's value. -/
def State.axDepth (s : State) (o : StackOp) (k : Stack) : AxRes Nat :=
  match o.arg with
  | 0 => .ok s (.ok k.depth)
  | 1 => .ok s (.ok k.total)
  | 2 =>
    if k.depth == 0 then .ok s (.ok 0)
    else (s.frameLen o.engine k (k.depth - 1)).andThen (fun s n => .ok s (.ok (256 * n)))
  | _ => .ok s (.ok k.hot)

/-- The stack without its top n frames. -/
def State.dropFrames (s : State) (e : Engine) (k : Stack) (n : Nat) : AxRes Stack :=
  match n with
  | 0 => .ok s (.ok k)
  | m + 1 => (s.frameLen e k (k.depth - 1)).andThen (fun s len => State.dropFrames s e (k.removeTop len) m)

/-- AXDROP. DEDUCED, log entry 39. -/
def State.axDrop (s : State) (o : StackOp) (k : Stack) : AxRes Nat :=
  if k.depth < o.arg then stackTrap s 3 o.stack
  else (s.dropFrames o.engine k o.arg).andThen (fun s k1 =>
    .ok ((s.setStack o.part o.stack k1).framesGone o.part o.stack k1.depth) (.ok k1.depth))

/-- An operation at the home sluice engine. -/
def State.axRun (s : State) (o : StackOp) : AxRes Nat :=
  (s.loadStack o.engine o.part o.stack).andThen (fun s k =>
    if !k.valid then stackTrap s 1 o.stack
    else match o.form with
      | 0 => s.axPush o k
      | 1 => s.axPop o k
      | 2 => s.axDepth o k
      | _ => s.axDrop o k)

/-- The die whose sluice engine takes an operation: the stack's home, or the issuing core's until the entry is loaded.
DEDUCED, log entry 41. -/
def State.opDie (s : State) (o : StackOp) : Nat :=
  match s.stack? o.part o.stack with
  | some k => k.home
  | none => dieOf o.core

/-- An operation waits for a page answer. -/
def StackOp.waits (o : StackOp) : Bool :=
  match o.pf with
  | .waiting _ => true
  | _ => false

/-- The operation that a sluice engine takes next: the oldest of its stack, whose partition runs. -/
def State.nextStackOp (s : State) (die : Nat) : Option StackOp :=
  s.stackOps.find? (fun o => s.opDie o == die && s.partRuns o.part && !o.waits &&
    !((s.stackOps.takeWhile (fun q => q.n != o.n)).any (fun q => q.part == o.part && q.stack == o.stack)))

/-- STACK_OPERATION: an AX operation linearises at its home sluice engine in arrival order and is answered; a page fault
holds it and the later operations of its stack (R76, R90). -/
def execStackOperation (die : Nat) (s : State) : Next :=
  .next (match s.nextStackOp die with
  | none => s
  | some o =>
    let answer (s : State) (a : Answer) : State :=
      let s1 := { s.forget (.stackOp o.n) with stackOps := s.stackOps.filter (fun q => q.n != o.n) }
      s1.send o.part (dieCore die) (.wake o.tid o.seq a)
    match s.axRun o with
    | .ok s1 (.ok v) => answer s1 { val := v }
    | .ok s1 (.error (c, va)) => answer s1 { verdict := .trap c va }
    | .block t rid =>
      let s1 := s.blocked t (.stackOp o.n)
      { s1 with stackOps := s1.stackOps.map (fun (q : StackOp) =>
          if q.n == o.n then { q with arrived := true, pf := (rid.map Pf.waiting).getD q.pf } else q) })

/-! ## Spills and recalls (R73) -/

/-- The sluice engine of a stack's home die as an accessing agent; no core's own window is its own. -/
def sluiceEngine (p st home : Nat) (pf : Pf) : Engine :=
  { ag := .sluice p st, who := { die := home, core := 0x7FFF, slot := 0, agent := 4 }, p := p, core := coreAt 0 640
    pf := pf }

/-- A push copy waits for window room (R73, R74). -/
def State.pushWaits (s : State) (p st : Nat) (k : Stack) : Bool :=
  (s.axPending p st).any (fun x => x.push && !s.pushRoom p st k x)

/-- A spill or recall may move bytes, after the copies that came before it: a spill waits for its frame's own push copy and for
a pop that still reads its Fen place, a recall for what still uses its window bytes. DEDUCED, log entry 37.
DESIGN CHOICE, log entry 42. -/
def State.jobReady (s : State) (p st : Nat) (k : Stack) (j : StackJob) : Bool :=
  (s.axPending p st).all (fun x =>
    j.n ≤ x.n ||
    (match x.cold with
     | some a => !j.spill || a + x.len ≤ j.fen || j.fen + j.len ≤ a
     | none => if j.spill then !(x.push && !x.gone && x.frame == j.frame) else !ringMeets (256 * k.wlen) x.ring x.len j.ring j.len))

/-- A spill (of the lowest hot frame) or a recall (of the highest cold one) that is due, with its frame's number. -/
def State.jobDue (s : State) (p st : Nat) (k : Stack) (spill : Bool) : Option Nat :=
  if !k.valid || k.idle == some spill then none
  else if spill then
    if k.cold < k.depth && (k.hi < k.hot || s.pushWaits p st k) then some k.cold else none
  else if k.hot < k.lo && 0 < k.cold then some (k.cold - 1) else none

/-- The stack without its spill or recall, which is not tried again until the frames change. DESIGN CHOICE, log entry 42. -/
def Stack.giveUp (k : Stack) (spill : Bool) : Stack := { k with job := none, idle := some spill }

/-- A spill or recall starts: its frame's length is read and its places are fixed. -/
def State.startJob (s : State) (p st : Nat) (k : Stack) (spill : Bool) (i : Nat) (pf : Pf) : AxRes Stack :=
  (s.frameLen (sluiceEngine p st k.home pf) k i).andThen (fun s n =>
    if !spill && k.hi < k.hot + n then .ok s (.ok (k.giveUp false))
    else
      let below := k.total - k.hot
      let j : StackJob := { spill := spill, len := 256 * n, frame := i, n := s.seqno
                            ring := 256 * (if spill then k.back k.hot else k.back (k.hot + n))
                            fen := k.fbase + 256 * (if spill then below else below - n) }
      .ok { s with seqno := s.seqno + 1 } (.ok { k with job := some j }))

/-- The next 1 KiB of a spill or recall; poison marks travel (R75). DEDUCED, log entry 43. -/
def State.moveJob (s : State) (p st : Nat) (k : Stack) (j : StackJob) : Res (Except Fail Nat) :=
  let e := sluiceEngine p st k.home j.pf
  let n := Nat.min 1024 (j.len - j.done)
  let lines := (List.range (n / 32)).map (fun i => j.done + 32 * i)
  let ring (o : Nat) : Nat := k.wbase + (j.ring + o) % (256 * k.wlen)
  let src (o : Nat) : Nat := if j.spill then ring o else j.fen + o
  let dst (o : Nat) : Nat := if j.spill then j.fen + o else ring o
  (s.readMarked e (lines.map src) []).andThen (fun s ls =>
    ((lines.zip ls).foldl (fun (r : Res (Except Fail Sig)) (ol : Nat × Line × Bool) =>
      r.andThen (fun s _ => s.writeMarked e (dst ol.1) [ol.2] 0)) (.ok s (.ok 0))).andThen (fun s _ => .ok s (.ok n)))

/-- A stack that a stop has unloaded, with what the load of its entry has come to. -/
def State.setReload (s : State) (p : Nat) (r : AxLoad) : State :=
  s.modPart p (fun x => { x with axReload := x.axReload.map (fun q => if q.stack == r.stack then r else q) })

/-- The load of a stack that a stop has unloaded, by its home die, for the spill or recall that was under way or a copy that waits
(R76); an access that fails ends the spill or recall, and no copy waits for it (R92). DEDUCED, log entry 40. -/
def State.reloadStack (s : State) (p : Nat) (r : AxLoad) : State :=
  let ag : Agent := .sluice p r.stack
  if r.pf.waits || !(r.job.isSome || (!r.gone && !(s.axPending p r.stack).isEmpty)) then s
  else match s.loadStack (sluiceEngine p r.stack r.home r.pf) p r.stack with
    | .ok s1 (.ok _) => s1.forget ag
    | .ok s1 (.error (_, a)) => (s1.forget ag).setReload p { r with job := none, pf := .failed (a / 4096) 0 }
    | .block t (some rid) => (s.blocked t ag).setReload p { r with pf := .waiting rid }
    | .block t none => s.blocked t ag

/-- A step of a stack's spill or recall: its start, or its next chunk. An access that fails ends the copy, and the stack
stays as it is. After a restore the entry is loaded first. -/
def State.jobStep (s : State) (p st : Nat) (spill : Bool) : State :=
  let ag : Agent := .sluice p st
  let hold (t : State) (rid : Option Nat) (k : Stack) (j : StackJob) : State :=
    match rid with
    | none => s.blocked t ag
    | some r => (s.blocked t ag).setStack p st { k with job := some { j with pf := .waiting r } }
  if !s.partRuns p then s
  else match s.stack? p st with
    | none =>
      (match (s.part p).axReload.find? (fun r => r.stack == st) with
       | some r => s.reloadStack p r
       | none => s)
    | some k =>
      let start (pf : Pf) : State :=
        match s.jobDue p st k spill with
        | none => s.setStack p st { k with job := none }
        | some i =>
          match s.startJob p st k spill i pf with
          | .ok s1 (.ok k1) => (s1.forget ag).setStack p st k1
          | .ok s1 (.error _) => (s1.forget ag).setStack p st (k.giveUp spill)
          | .block t rid => hold t rid k { spill := spill, len := 0, ring := 0, fen := 0 }
      match k.job with
      | none => if (s.jobDue p st k spill).isSome then start .clear else s
      | some j =>
        if j.spill != spill then s
        else match j.pf with
          | .waiting _ => s
          | pf =>
            if j.len = 0 then start pf
            else if j.done = j.len || !s.jobReady p st k j then s
            else match s.moveJob p st k j with
              | .ok s1 (.ok n) =>
                (s1.forget ag).setStack p st { k with job := some { j with done := j.done + n, pf := .clear } }
              | .ok s1 (.error _) => (s1.forget ag).setStack p st (k.giveUp spill)
              | .block t rid => hold t rid k j

/-- SPILL: the sluice engine copies the lowest hot frame to its Fen place (R73). DESIGN CHOICE, log entry 16. -/
def execSpill (p st : Nat) (s : State) : Next := .next (s.jobStep p st true)
/-- RECALL: it copies the highest cold frame into the window (R73). -/
def execRecall (p st : Nat) (s : State) : Next := .next (s.jobStep p st false)

/-- A stack's spill or recall has copied its whole frame. -/
def Stack.jobDone (k : Stack) (spill : Bool) : Option StackJob :=
  match k.job with
  | some j => if j.spill == spill && j.len != 0 && j.done == j.len then some j else none
  | none => none

/-- SPILL_COMPLETE: COLD counts the frame and HOT no longer does (R73). -/
def execSpillComplete (p st : Nat) (s : State) : Next :=
  .next (match s.stack? p st with
  | some k =>
    (match k.jobDone true with
     | some j => s.setStack p st { k with job := none, idle := none, cold := k.cold + 1, hot := k.hot - j.len / 256 }
     | none => s)
  | none => s)

/-- RECALL_COMPLETE (R73). -/
def execRecallComplete (p st : Nat) (s : State) : Next :=
  .next (match s.stack? p st with
  | some k =>
    (match k.jobDone false with
     | some j => s.setStack p st { k with job := none, idle := none, cold := k.cold - 1, hot := k.hot + j.len / 256 }
     | none => s)
  | none => s)

/-! ## The forms (R74) -/

/-- A new operation takes its place among those that wait, behind every one that has arrived; which of the others come before it
is the order of arrival. DESIGN CHOICE, log entry 38. -/
def placed {α : Type} (arrived : α → Bool) (q : List α) (k : Nat) (x : α) : List α :=
  let back := (q.reverse.takeWhile (fun y => !arrived y)).length
  let i := q.length - k % (back + 1)
  q.take i ++ [x] ++ q.drop i

/-- The operation goes to the home sluice engine. -/
def State.sendAx (s : State) (form st arg : Nat) (w : Bool) (addr : Nat) (sig : Sig) : State :=
  let t := s.thr
  let o : StackOp := { n := s.seqno, tid := t.tid, seq := s.seqno, part := t.tid.part, core := t.core, slot := t.slot
                       form := form, stack := st, arg := arg, w := w, addr := addr, sig := sig }
  ({ s with stackOps := placed StackOp.arrived s.stackOps (Config.arrivalPlace s.fresh) o, seqno := s.seqno + 1
            thr := { t with expect := some s.seqno } }).tick

/-- The value that an AX form's answer brings. -/
def State.axDone (s : State) (d : BitVec 4) (a : Answer) : State :=
  s.answered a (fun s a => ({ s with thr := s.thr.ws d (BitVec.ofNat 32 a.val) }).retire 4 1)

/-- AXPUSH and AXPOP: the operand's checks, room in the copy queue, AXPUSH's release, then the answer. -/
def axCopyForm (push : Bool) (g d : BitVec 4) (a : BitVec 3) (b : BitVec 4) (s : State) : Next :=
  guarded g 4 s (fun s =>
    let t := s.thr
    let w := t.rs b
    let st := bitsOf w 28 4
    let len := bitsOf w 0 27
    match t.answer with
    | some r => s.axDone d r
    | none =>
      if t.stage.sent then s.park .answer
      else if (push && w.getLsbD 27) || !legalLen len then s.trap 0x12 (BitVec.ofNat 64 (stackDetail 4 st))
      else if 2 ≤ (s.queueAt t.core t.slot false).cmds.length then s.park .queueFull
      else if push then
        let (s1, made) := s.release 4
        if !made then s1.park .release
        else (s1.sendAx 0 st len false (t.ra a).toNat s1.thr.stage.sig).sent.park .answer
      else (s.sendAx 1 st len (w.getLsbD 27) (t.ra a).toNat 0).sent.park .answer)

/-- AXPUSH (R74). -/
def execAxpush (g d : BitVec 4) (a : BitVec 3) (b : BitVec 4) (s : State) : Next := axCopyForm true g d a b s
/-- AXPOP (R74). -/
def execAxpop (g d : BitVec 4) (a : BitVec 3) (b : BitVec 4) (s : State) : Next := axCopyForm false g d a b s

/-- AXDEPTH and AXDROP: the operands' checks, then the answer. -/
def axAskForm (form : Nat) (g d a b : BitVec 4) (bad : Nat → Bool) (s : State) : Next :=
  guarded g 4 s (fun s =>
    let t := s.thr
    let st := (t.rs a).toNat
    let arg := (t.rs b).toNat
    match t.answer with
    | some r => s.axDone d r
    | none =>
      if t.stage.sent then s.park .answer
      else if 15 < st || bad arg then s.trap 0x12 (BitVec.ofNat 64 (stackDetail 4 st))
      else (s.sendAx form st arg false 0 0).sent.park .answer)

/-- AXDEPTH (R74). -/
def execAxdepth (g d a b : BitVec 4) (s : State) : Next := axAskForm 2 g d a b (fun n => 3 < n) s
/-- AXDROP (R74). -/
def execAxdrop (g d a b : BitVec 4) (s : State) : Next := axAskForm 3 g d a b (fun _ => false) s

end Sys2Proof.Machine
end

