-- ==== Sys2Proof/Machine/Launch.lean ====
section
/-! DEFINITION. Launches: descriptors and their checks (R307, R308), who holds a slot (R311, R324), the passes of the sequencer
(R311, R329), the signature (R334), and what a thread starts with (R165, R168). -/

namespace Sys2Proof.Machine

/-! ## Launch descriptors (R307) -/

def Launch.f (l : Launch) (hi lo : Nat) : Nat := bitsOf l.desc lo (hi + 1 - lo)
def Launch.slots (l : Launch) : Nat := l.f 279 264
def Launch.flog (l : Launch) : Nat := l.f 247 246
def Launch.step (l : Launch) : Nat := 16 / 2 ^ l.flog
def Launch.fixed (l : Launch) : Bool := l.desc.getLsbD 224
def Launch.rw (l : Launch) : Nat := l.f 299 290
def Launch.rh (l : Launch) : Nat := l.f 289 280
def Launch.rx (l : Launch) : Nat := l.f 319 310
def Launch.ry (l : Launch) : Nat := l.f 309 300
def Launch.entryPoint (l : Launch) : DWord := BitVec.ofNat 64 (l.f 1023 960)
def Launch.args (l : Launch) : DWord := BitVec.ofNat 64 (l.f 959 896)
def Launch.dep (l : Launch) (k : Nat) : Nat := if k = 0 then l.f 703 640 else l.f 575 512
def Launch.depValue (l : Launch) (k : Nat) : Nat := if k = 0 then l.f 639 576 else l.f 511 448
def Launch.doneAddr (l : Launch) : Nat := l.f 447 384
def Launch.ngrp (l : Launch) : Nat := l.f 245 237
def Launch.msgt (l : Launch) : Word := BitVec.ofNat 32 (l.f 351 320)
def Launch.msgen (l : Launch) : Bool := l.desc.getLsbD 220

/-- A core is in the launch's region. -/
def State.inRegion (s : State) (l : Launch) (c : Nat) : Bool :=
  let x : Int := (coreX c : Int) - 32 * shQx (s.shape l.part) - l.f 319 310
  let y : Int := (coreY c : Int) - 40 * shQy (s.shape l.part) - l.f 309 300
  0 ≤ x && x < l.rw && 0 ≤ y && y < l.rh

/-- The launch has been admitted and not retired: its pairs are held (R311). -/
def Launch.holds (l : Launch) : Bool :=
  match l.phase with
  | .admitted | .ready | .running => true
  | _ => false

/-- A visitor, live or ended, is on slot k of a core (R324). -/
def Thread.visits (t : Thread) (core k : Nat) : Bool :=
  t.phase != .none && t.home.isSome && t.core == core && !t.travelling && t.ownsHere k

/-- A launch or a visitor holds the pair (R311, R324). -/
def State.pairHeld (s : State) (p core k : Nat) : Bool :=
  s.launches.any (fun l => l.part == p && l.holds && natBit l.slots k && s.inRegion l core) ||
  s.allThreads.any (fun t => t.tid.part == p && t.visits core k)

/-! ## What a thread starts with (R165, R168) -/

/-- The per-thread CSRs at dispatch. -/
def Launch.csrs (l : Launch) : Csrs :=
  { fmtd := BitVec.ofNat 32 (l.f 236 225), sclpl := BitVec.ofNat 32 (l.f 735 704), sclph := BitVec.ofNat 32 (l.f 767 736) }

/-- The queues, counters and channels of a thread's slots on a core start empty (R122, R130, R158). DEDUCED, log entry 51. -/
def State.freshSlots (s : State) (core slot step : Nat) : State :=
  ((List.range 16).filter (fun k => k % step == slot % step)).foldl (fun s k => s.setSlot core k {}) s

/-! ## The descriptor checks (R308) -/

/-- The first failing check of a descriptor that a submitter places, or 0. -/
def State.descCheck (s : State) (p : Nat) (desc : BitVec 1024) (level lperm : Bool) : Nat :=
  let sh := s.shape p
  let l : Launch := { part := p, lid := 0, entry := 0, ring := 0, level := 0, desc := desc }
  let groups := l.f 895 832
  let members := l.f 831 768
  if l.f 263 248 != 0 || l.f 219 0 != 0 || bitsOf l.msgt 30 2 != 0 || bitsOf l.msgt 4 6 != 0 then 1
  else if l.slots == 0 || (List.range 16).any (fun j => natBit l.slots j && !natBit l.slots ((j + l.step) % 16)) then 2
  else if l.rw == 0 || l.rh == 0 || 32 * shQw sh < l.rx + l.rw || 40 * shQh sh < l.ry + l.rh then 3
  else if Nat.land l.slots (shSlots sh) != l.slots then 4
  else if l.entryPoint.toNat % 4 != 0 || 256 < l.ngrp || (l.ngrp == 0 && (groups != 0 || members != 0))
      || (l.ngrp != 0 && (groups == 0 || members == 0 || groups % 8 != 0 || members % 8 != 0)) then 5
  else if (l.desc.getLsbD 222 && !level) || (l.desc.getLsbD 221 && !lperm) then 6
  else if l.dep 0 % 8 != 0 || l.dep 1 % 8 != 0 || l.doneAddr % 8 != 0
      || (l.msgen && (s.msgTarget p l.msgt).isNone) then 7
  else 0

/-! ## The passes of the sequencer (R310–R312, R329) -/

/-- Two launches need a pair in common. -/
def Launch.meets (a b : Launch) : Bool :=
  a.part == b.part && Nat.land a.slots b.slots != 0 && a.rx < b.rx + b.rw && b.rx < a.rx + a.rw
    && a.ry < b.ry + b.rh && b.ry < a.ry + a.rh

/-- The quads that a launch's region touches. -/
def State.launchQuads (s : State) (l : Launch) : List Nat :=
  let sh := s.shape l.part
  (shQuads sh).filter (fun q =>
    let x := 32 * (q % 20 - shQx sh)
    let y := 40 * (q / 20 - shQy sh)
    decide (x < l.rx + l.rw) && decide (l.rx < x + 32) && decide (y < l.ry + l.rh) && decide (l.ry < y + 40))

/-- The gate closes a FIXED launch that touches an unpinned quad (R329). -/
def State.gated (s : State) (l : Launch) : Bool := s.gate && l.fixed && (s.launchQuads l).any (fun q => !(s.clock q).pinned)

/-- Every pair of a launch is free (R311). -/
def State.allFree (s : State) (l : Launch) : Bool :=
  s.launches.all (fun m => !(m.holds && m.meets l)) &&
  s.allThreads.all (fun t => !(t.tid.part == l.part && t.phase != .none && t.home.isSome && !t.travelling
    && s.inRegion l t.core && (List.range 16).any (fun k => natBit l.slots k && t.ownsHere k))) &&
  !s.gated l

/-- The dependences were met at their last read. -/
def Launch.met (l : Launch) : Bool := l.met0 && l.met1

/-- The waiting time counted up to now (R312). -/
def Launch.settle (l : Launch) (now : Nat) : Launch :=
  { l with waited := if l.phase == .waiting && l.met then l.waited + (now - l.mark) else l.waited, mark := now }

def State.modLaunch (s : State) (p lid : Nat) (f : Launch → Launch) : State :=
  { s with launches := s.launches.map (fun l => if l.part == p && l.lid == lid then f l else l) }

/-- The signature of a launch (R334): its first eight digest bytes. -/
def State.signature (s : State) (l : Launch) : DWord :=
  let sh := s.shape l.part
  let flag (b : Bool) : Byte := if b then 1 else 0
  let m : List Byte := [1, .ofNat 8 (shQw sh), .ofNat 8 (shQh sh), .ofNat 8 (shSlots sh), .ofNat 8 (shSlots sh / 256),
    .ofNat 8 l.flog, flag l.fixed, flag (l.desc.getLsbD 223), 0, 0, 0, 0, 0, 0, 0, 0]
  (sha512 m).extractLsb' 448 64

/-- A launch is admitted: its pairs are held; without groups it is ready for dispatch (R313). -/
def State.letIn (s : State) (l : Launch) : State :=
  let g := s.signature l
  s.modLaunch l.part l.lid (fun l =>
    if l.phase == .waiting then { l with phase := if l.ngrp = 0 then .ready else .admitted, sigHL := g } else l)

/-- The waiting launches of one level, in order of entry; one whose dependences are met and that must wait blocks its pairs. -/
def State.passLevel (s : State) (ls : List Launch) (blocked : List Launch) : State × List Launch :=
  match ls with
  | [] => (s, blocked)
  | l :: rest =>
    if !l.met then State.passLevel s rest blocked
    else if s.allFree l && !blocked.any l.meets then State.passLevel (s.letIn l) rest blocked
    else (s, blocked ++ [l])

/-- A pass of a partition's sequencer (R311). -/
def State.admitPass (s : State) (p : Nat) : State :=
  if !s.partRuns p then s
  else
    ([3, 2, 1, 0].foldl (fun (sb : State × List Launch) lv =>
      let ls := sb.1.launches.filter (fun l => l.part == p && l.phase == .waiting && l.level == lv)
      sb.1.passLevel ls sb.2) (s, [])).1

/-- A launch enters a ring's waiting set (R309): its id, its entry number, and reads of its dependences. -/
def State.enter (s : State) (p ring : Nat) (desc : BitVec 1024) (entry : Option Nat) (status why : Nat) : State :=
  let x := s.part p
  let l0 : Launch := { part := p, lid := x.nextLid, entry := x.nextEntry, ring := ring, level := ring, desc := desc }
  let l : Launch := { l0 with
    phase := if status = 0 then .waiting else .doneDue
    met0 := l0.dep 0 == 0, met1 := l0.dep 1 == 0, read0 := l0.dep 0 != 0, read1 := l0.dep 1 != 0
    mark := s.gtime, status := status, why := why, ringEntry := entry }
  let next := (x.nextLid + 1) % 2 ^ 32
  let s1 := s.setPart p { x with nextLid := if next = 0 then 1 else next, nextEntry := x.nextEntry + 1 }
  ({ s1 with launches := s1.launches ++ [l] }).admitPass p

/-- The waiting set of a ring holds 256 launches (R309). -/
def State.ringFull (s : State) (p ring : Nat) : Bool :=
  256 ≤ (s.launches.filter (fun l => l.part == p && l.ring == ring && l.phase == .waiting)).length

/-! ## LNCH (R191) -/

/-- The detail of a LAUNCH trap is the failing check's number. -/
def State.launchFrom (s : State) (d : BitVec 4) (ring o : Nat) (bs : List Byte) : State :=
  let t := s.thr
  let (s1, made) := (s.markAcquire (span o bs.length)).release 4
  if !made then s1.park .release
  else
    let desc := BitVec.ofNat 1024 (leNat bs)
    let code := s1.descCheck t.tid.part desc t.prv t.lperm
    if code != 0 then s1.trap 0x16 (BitVec.ofNat 64 code)
    else if s1.ringFull t.tid.part ring then s1.park (.ring ring)
    else
      let lid := (s1.part t.tid.part).nextLid
      let s2 := s1.enter t.tid.part ring desc none 0 0
      ({ s2 with thr := s2.thr.ws d (BitVec.ofNat 32 lid) }).retire 4 1

/-- LNCH (R191). -/
def execLnch (g d a : BitVec 4) (r : BitVec 2) (s : State) : Next :=
  guarded g 4 s (fun s =>
    let o := (s.thr.rs a).toNat
    if o % 128 != 0 then s.trap 0x03 (ownWindow o)
    else match s.blockBytes o 128 with
      | .trap c va => s.accessTrap c va
      | .wait w => s.park w
      | .ok s1 bs => s1.launchFrom d r.toNat o bs)

end Sys2Proof.Machine
end

