-- ==== Sys2Proof/Machine/Migration.lean ====
section
/-! DEFINITION. GO and GOHOME (R324, R325): eligibility, departure, and the state of a thread at a visited slot and back at
home (R166). -/

namespace Sys2Proof.Machine

/-! ## GO and GOHOME (R324, R325) -/

/-- The visitor mask: VMASK within the owned slots (R352). -/
def State.vmask (s : State) (p : Nat) : Nat := Nat.land (bitsOf (s.part p).ctl 16 16) (shSlots (s.shape p))

/-- The owned-slot set j of a factor has all its bits in a mask. -/
def setIn (mask step j : Nat) : Bool := (List.range 16).all (fun k => k % step != j || natBit mask k)

/-- Some slot set of the visitor mask can take a factor. -/
def State.takesVisitors (s : State) (p step : Nat) : Bool := (List.range step).any (setIn (s.vmask p) step)

/-- The lowest free visitor slot set of a core (R324). -/
def State.freeVisitorSet (s : State) (p core step : Nat) : Option Nat :=
  (List.range step).find? (fun j => setIn (s.vmask p) step j &&
    (List.range 16).all (fun k => k % step != j || !s.pairHeld p core k))

/-- The queues of the visited slot are empty and the RDMS deliveries are done. -/
def State.visitDrained (s : State) : Bool :=
  let k := s.slotAt s.thr.core s.thr.slot
  s.thr.rdmsDue == 0 && k.copy.quiet && k.mtx.quiet

/-- FENCE at partition scope within another instruction (R301). -/
def State.fencePartition (s : State) : State × Bool :=
  let (s1, made) := s.release 4
  (if made then (s1.attachSig 4).acquireSeen 4 else s1, made)

/-- What the home slot keeps of a thread that leaves it (R166). -/
def Thread.stay (t : Thread) : Home :=
  { core := t.core, slot := t.slot, s := t.s, v := t.v, k := t.k, csr := t.csr, cycHi := t.cycHi, timeHi := t.timeHi
    wake := t.wake, poison := t.poison }

/-- The 64 bytes of a thread's travel context (R167). -/
def Thread.context (t : Thread) : BitVec 512 :=
  let regs := (List.finRange 10).foldr (fun i n => (t.s[i.val]).toNat + 2 ^ 32 * n) 0
  0#104 ++ t.pword ++ t.pc ++ 0#16 ++ BitVec.ofNat 320 regs

/-- The fields of a travel context. -/
def ctxP (x : BitVec 512) : BitVec 8 := x.extractLsb' 400 8
def ctxPc (x : BitVec 512) : DWord := x.extractLsb' 336 64
def ctxReg (x : BitVec 512) (i : Nat) : Word := x.extractLsb' (32 * i) 32

/-- The focused thread leaves its slot for a core: a visited set is freed, its bindings end, and the context travels. An error
that is pending in a queue of a visited set goes with the thread (R347). -/
def State.depart (s : State) (core : Nat) (back : Bool) (pc : DWord) : State :=
  let t := s.thr
  let away := t.home.isSome
  let es := if away then (s.slotAt t.core t.slot).errs else []
  let s1 := if away then
      (s.unbindHere t).modSlot t.core t.slot (fun k => (k.clearErr false).clearErr true)
    else s
  let t1 := { t.goOn pc none with
              home := t.home.or (some t.stay), travelling := true, phase := .parked .visitor, issued := t.issued + 1
              owed := t.owed ++ es }
  let s2 := ({ s1 with thr := t1 }).send t.tid.part t.core
    (.travel { tid := t.tid, core := core, back := back, ctx := t1.context })
  if away then s2.admitPass t.tid.part else s2

/-- GO (R325). -/
def State.goTo (s : State) (a : BitVec 3) : State :=
  let t := s.thr
  let p := t.tid.part
  let va := t.ra a
  match (if isWindow va.toNat then s.window p t.core va.toNat [va.toNat % 2 ^ 16] else none) with
  | none => s.trap 0x05 va
  | some (c, _) =>
    if c = t.core then s.retire 4 1
    else if !s.takesVisitors p t.step || (t.fix && !(s.clock (quadOf c)).pinned) then s.trap 0x15 va
    else if t.home.isSome && !s.visitDrained then s.park .drain
    else
      let (s1, made) := s.fencePartition
      if made then s1.depart c false (t.pc + 4) else s1.park .release

/-- GO (R325). -/
def execGo (g : BitVec 4) (a : BitVec 3) (s : State) : Next := guarded g 4 s (fun s => s.goTo a)

/-- GOHOME (R325). -/
def execGohome (g : BitVec 4) (s : State) : Next :=
  guarded g 4 s (fun s =>
    match s.thr.home with
    | none => s.retire 4 1
    | some h =>
      if !s.visitDrained then s.park .drain
      else
        let (s1, made) := s.fencePartition
        if made then s1.depart h.core true (s.thr.pc + 4) else s1.park .release)

/-- The travelling scalar registers, s0–s9, over others. -/
def travelRegs (x : BitVec 512) (base : Vector Word 16) : Vector Word 16 :=
  Vector.ofFn (fun (i : Fin 16) => if i.val < 10 then ctxReg x i.val else base[i])

/-- A register whose poison mark travels: s0–s9 and the predicate word. DEDUCED, log entry 52. -/
def travels (r : Nat) : Bool := r < 10 || r == pWord

/-- The thread at a visited slot: the travel context, and dispatch values for the rest (R166). DEDUCED, log entry 52. -/
def Thread.visit (t : Thread) (x : BitVec 512) (csr : Csrs) (core slot : Nat) : Thread :=
  { t with
    s := travelRegs x (Vector.replicate 16 0), p := ctxP x, pc := ctxPc x, v := Vector.replicate 128 0
    k := Vector.replicate 8 0, csr := csr, core := core, slot := slot, travelling := false, phase := .run, wake := false
    cycHi := 0, timeHi := 0, acc := sigOnes, poison := t.poison.filter travels }

/-- The thread back in its home slot (R166). DEDUCED, log entry 52. -/
def Thread.comeBack (t : Thread) (x : BitVec 512) (h : Home) : Thread :=
  { t with
    s := travelRegs x h.s, p := ctxP x, pc := ctxPc x, v := h.v, k := h.k, csr := h.csr, core := h.core, slot := h.slot
    home := none, travelling := false, phase := .run, wake := h.wake, cycHi := h.cycHi, timeHi := h.timeHi, acc := sigOnes
    poison := t.poison.filter travels ++ h.poison.filter (fun r => !travels r) }

/-- GOHOME is single-stepped when DBGCTL.SS is 1 both where it issued and where it retires (R166, R345); EADDR names the
GOHOME. DEDUCED, log entry 109. -/
def State.steppedHome (s : State) (tid : Tid) (left : Word) : State :=
  match s.thread? tid with
  | some t =>
    if left == 1 && t.csr.dbgctl == 1 then (s.focus tid).trapWith 0x10 (t.pc - 4) t.pc 0 true else s
  | none => s

/-- A travel context that has come to core c of partition p and waits there since before another did; n is the other's place
in the order of arrival, or none when it has just come (R325). -/
def State.waitsBefore (s : State) (p c : Nat) (n : Option Nat) : Bool :=
  s.net.any (fun k => match k.body with
    | .travel u => u.core == c && !u.back && k.part == p && (match u.arrived, n with
      | some i, some j => i < j
      | some _, none => true
      | none, _ => false)
    | _ => false)

/-- A travel context has come to its core: it takes its place behind those that wait there. -/
def State.takePlace (s : State) (n : Nat) : State :=
  { s with
    seqno := s.seqno + 1
    net := s.net.map (fun k => if k.seq == n then (match k.body with
      | .travel u => { k with body := .travel { u with arrived := u.arrived.or (some s.seqno) } }
      | _ => k) else k) }

/-- MIGRATION_ARRIVAL: a travel context comes to its core. It enters the lowest free visitor slot set, in arrival order, or
waits for one; or it enters its home slot. It acquires with all ones (R325). DEDUCED, log entry 51. -/
def execMigrationArrival (n : Nat) (s : State) : Next :=
  .next (match s.packet? n with
  | some { body := .travel v, part := p, .. } =>
    if !s.partRuns p then s
    else match s.thread? v.tid with
      | none => s.dropPacket n
      | some t =>
        if v.back then
          match t.home with
          | some h =>
            (((s.dropPacket n).applySig h.core p sigOnes).modThread v.tid (fun t => t.comeBack v.ctx h)).steppedHome v.tid
              t.csr.dbgctl
          | none => s.dropPacket n
        else
          match (if s.waitsBefore p v.core v.arrived then none else s.freeVisitorSet p v.core t.step) with
          | none => if v.arrived.isSome then s else s.takePlace n
          | some j =>
            let csr := match s.launch? p v.tid.lid with
              | some l => l.csrs
              | none => {}
            let s1 := ((s.dropPacket n).freshSlots v.core j t.step).applySig v.core p sigOnes
            s1.modThread v.tid (fun t => t.visit v.ctx csr v.core j)
  | _ => s)

end Sys2Proof.Machine
end

