-- ==== Sys2Proof/Machine/Memory.lean ====
section
/-! DEFINITION. The memory forms: scalar loads and stores (R154, R302), memory-side atomics (R155), vector memory forms
(R156, R157), and the events at slices and cores that serve their requests (R82, R90–R92, R98, R103, R150, R153). -/

namespace Sys2Proof.Machine

/-! ## Scalar loads and stores (R154, R302) -/

/-- H[0]: do not install the line (R150). -/
def installs (h : BitVec 5) : Bool := !h.getLsbD 0

/-- A load of n bytes; f writes the register from the value. -/
def loadForm (g : BitVec 4) (bp : BitVec 3) (h : BitVec 5) (off : BitVec 24) (n : Nat) (s : State)
    (f : Thread → Nat → Thread) : Next :=
  guarded g 8 s (fun s =>
    let va := s.thr.va bp off
    s.access va (aligned va n) true (.read .row n) (installs h) none
      (fun s a => ({ s with thr := f s.thr a.val }).retire 8 1))

/-- A store of n bytes. -/
def storeForm (g : BitVec 4) (bp : BitVec 3) (off : BitVec 24) (n : Nat) (data : Nat) (s : State) : Next :=
  guarded g 8 s (fun s =>
    let va := s.thr.va bp off
    s.access va (aligned va n) true (.write n (BitVec.ofNat 256 data) false) false none (fun s _ => s.retire 8 1))

/-- A loaded value, sign-extended from n bytes. -/
def sextLoad (n v : Nat) : Word := BitVec.ofInt 32 (sextNat v (8 * n))

/-- LDB (R154). -/
def execLdb (g d : BitVec 4) (bp : BitVec 3) (h : BitVec 5) (off : BitVec 24) (s : State) : Next :=
  loadForm g bp h off 1 s (fun t v => t.ws d (sextLoad 1 v))
/-- LDBU (R154). -/
def execLdbu (g d : BitVec 4) (bp : BitVec 3) (h : BitVec 5) (off : BitVec 24) (s : State) : Next :=
  loadForm g bp h off 1 s (fun t v => t.ws d (BitVec.ofNat 32 v))
/-- LDH (R154). -/
def execLdh (g d : BitVec 4) (bp : BitVec 3) (h : BitVec 5) (off : BitVec 24) (s : State) : Next :=
  loadForm g bp h off 2 s (fun t v => t.ws d (sextLoad 2 v))
/-- LDHU (R154). -/
def execLdhu (g d : BitVec 4) (bp : BitVec 3) (h : BitVec 5) (off : BitVec 24) (s : State) : Next :=
  loadForm g bp h off 2 s (fun t v => t.ws d (BitVec.ofNat 32 v))
/-- LDW (R154). -/
def execLdw (g d : BitVec 4) (bp : BitVec 3) (h : BitVec 5) (off : BitVec 24) (s : State) : Next :=
  loadForm g bp h off 4 s (fun t v => t.ws d (BitVec.ofNat 32 v))
/-- LDD (R154). -/
def execLdd (g : BitVec 4) (d bp : BitVec 3) (h : BitVec 5) (off : BitVec 24) (s : State) : Next :=
  loadForm g bp h off 8 s (fun t v => t.wa d (BitVec.ofNat 64 v))
/-- STB (R154). -/
def execStb (g d : BitVec 4) (bp : BitVec 3) (_ : BitVec 5) (off : BitVec 24) (s : State) : Next :=
  storeForm g bp off 1 (s.thr.rs d).toNat s
/-- STH (R154). -/
def execSth (g d : BitVec 4) (bp : BitVec 3) (_ : BitVec 5) (off : BitVec 24) (s : State) : Next :=
  storeForm g bp off 2 (s.thr.rs d).toNat s
/-- STW (R154). -/
def execStw (g d : BitVec 4) (bp : BitVec 3) (_ : BitVec 5) (off : BitVec 24) (s : State) : Next :=
  storeForm g bp off 4 (s.thr.rs d).toNat s
/-- STD (R154). -/
def execStd (g : BitVec 4) (d bp : BitVec 3) (_ : BitVec 5) (off : BitVec 24) (s : State) : Next :=
  storeForm g bp off 8 (s.thr.ra d).toNat s

/-- LDA: a load at the home that never looks in the L1, then an acquire applying its response's SIG, or all ones for a
window address (R302). DEDUCED, log entry 20. -/
def execLda (g d : BitVec 4) (bp : BitVec 3) (sc : BitVec 3) (_ : BitVec 5) (off : BitVec 24) (s : State) : Next :=
  guarded g 8 s (fun s =>
    let va := s.thr.va bp off
    let n := s.scope s.thr.tid.part sc.toNat
    s.access va (aligned va 4) true (.readHome (5 ≤ n)) false none
      (fun s a =>
        let s1 := (s.countCap sc.toNat).acquire n (if isWindow va then sigOnes else a.sig)
        ({ s1 with thr := s1.thr.ws d (BitVec.ofNat 32 a.val) }).retire 8 1))

/-- STR: a release, then a store as the carrying write (R302). DEDUCED, log entry 20. -/
def execStr (g d : BitVec 4) (bp : BitVec 3) (sc : BitVec 3) (_ : BitVec 5) (off : BitVec 24) (s : State) : Next :=
  guarded g 8 s (fun s =>
    let va := s.thr.va bp off
    let deep : Bool := 5 ≤ s.scope s.thr.tid.part sc.toNat
    s.access va (aligned va 4) true (.write 4 ((s.thr.rs d).setWidth 256) deep) false (some sc.toNat)
      (fun s _ => s.retire 8 1))

/-! ## Memory-side atomics (R155) -/

/-- The register pair of a doubleword operand, and one or two registers' value. -/
def Thread.atomValue (t : Thread) (d : BitVec 4) (sz : BitVec 1) : DWord :=
  if sz == 0 then (t.rs d).setWidth 64 else t.ra (d.extractLsb' 1 3)

/-- The old value delivered. -/
def Thread.atomResult (t : Thread) (d : BitVec 4) (sz : BitVec 1) (old : Nat) : Thread :=
  if sz == 0 then t.ws d (BitVec.ofNat 32 old) else t.wa (d.extractLsb' 1 3) (BitVec.ofNat 64 old)

/-- An ATOM of one operation; v is the operand and cmp the compare value. -/
def atomForm (g d : BitVec 4) (bp : BitVec 3) (nr sz : BitVec 1) (off : BitVec 24) (op : AluOp) (s : State) : Next :=
  guarded g 8 s (fun s =>
    let va := s.thr.va bp off
    let n := if sz == 0 then 4 else 8
    let v := match op with
      | .cas => s.thr.atomValue (d + (if sz == 0 then 1 else 2)) sz
      | _ => s.thr.atomValue d sz
    let cmp := match op with
      | .cas => s.thr.atomValue d sz
      | _ => 0
    s.access va (aligned va n) true (.alu op n v cmp) false none
      (fun s a =>
        let t := if nr == 0 then s.thr.atomResult d sz a.val else s.thr
        let f : Flags := (a.words.headD 0).setWidth 6
        ({ s with thr := t.orFlags f }).retire 8 1))

/-- AADD (R155). -/
def execAadd (g d : BitVec 4) (bp : BitVec 3) (nr sz : BitVec 1) (_ : BitVec 5) (off : BitVec 24) (s : State) : Next :=
  atomForm g d bp nr sz off .add s
/-- AMIN (R155). -/
def execAmin (g d : BitVec 4) (bp : BitVec 3) (nr sz : BitVec 1) (_ : BitVec 5) (off : BitVec 24) (s : State) : Next :=
  atomForm g d bp nr sz off .min s
/-- AMAX (R155). -/
def execAmax (g d : BitVec 4) (bp : BitVec 3) (nr sz : BitVec 1) (_ : BitVec 5) (off : BitVec 24) (s : State) : Next :=
  atomForm g d bp nr sz off .max s
/-- AMINU (R155). -/
def execAminu (g d : BitVec 4) (bp : BitVec 3) (nr sz : BitVec 1) (_ : BitVec 5) (off : BitVec 24) (s : State) : Next :=
  atomForm g d bp nr sz off .minu s
/-- AMAXU (R155). -/
def execAmaxu (g d : BitVec 4) (bp : BitVec 3) (nr sz : BitVec 1) (_ : BitVec 5) (off : BitVec 24) (s : State) : Next :=
  atomForm g d bp nr sz off .maxu s
/-- AAND (R155). -/
def execAand (g d : BitVec 4) (bp : BitVec 3) (nr sz : BitVec 1) (_ : BitVec 5) (off : BitVec 24) (s : State) : Next :=
  atomForm g d bp nr sz off .and s
/-- AOR (R155). -/
def execAor (g d : BitVec 4) (bp : BitVec 3) (nr sz : BitVec 1) (_ : BitVec 5) (off : BitVec 24) (s : State) : Next :=
  atomForm g d bp nr sz off .or s
/-- AXOR (R155). -/
def execAxor (g d : BitVec 4) (bp : BitVec 3) (nr sz : BitVec 1) (_ : BitVec 5) (off : BitVec 24) (s : State) : Next :=
  atomForm g d bp nr sz off .xor s
/-- ASWP (R155). -/
def execAswp (g d : BitVec 4) (bp : BitVec 3) (nr sz : BitVec 1) (_ : BitVec 5) (off : BitVec 24) (s : State) : Next :=
  atomForm g d bp nr sz off .swp s
/-- ACAS (R155). -/
def execAcas (g d : BitVec 4) (bp : BitVec 3) (nr sz : BitVec 1) (_ : BitVec 5) (off : BitVec 24) (s : State) : Next :=
  atomForm g d bp nr sz off .cas s
/-- AADDF (R155). -/
def execAaddf (g d : BitVec 4) (bp : BitVec 3) (nr : BitVec 1) (_ : BitVec 5) (off : BitVec 24) (s : State) : Next :=
  atomForm g d bp nr 0 off .addf s

/-! ## Vector memory forms (R156, R157) -/

/-- The element width that CW names (R97). -/
def columnWidth (cw : BitVec 2) : Nat := 2 ^ cw.toNat

/-- LDV (R156). -/
def execLdv (d : BitVec 7) (bp : BitVec 3) (h : BitVec 5) (off : BitVec 24) (s : State) : Next :=
  .next (
    let va := s.thr.va bp off
    s.access va (aligned va 16) true (.read .row 16) (installs h) none
      (fun s a => ({ s with thr := s.thr.wv d (BitVec.ofNat 128 a.val) }).retire 8 1))
/-- LDVP (R156). -/
def execLdvp (d : BitVec 6) (bp : BitVec 3) (h : BitVec 5) (off : BitVec 24) (s : State) : Next :=
  .next (
    let va := s.thr.va bp off
    s.access va (aligned va 32) true (.read .row 32) (installs h) none
      (fun s a => ({ s with thr := s.thr.wvp d (BitVec.ofNat 256 a.val) }).retire 8 1))
/-- LDVC (R156). -/
def execLdvc (d : BitVec 6) (bp : BitVec 3) (cw : BitVec 2) (h : BitVec 5) (off : BitVec 24) (s : State) : Next :=
  .next (
    let va := s.thr.va bp off
    let w := columnWidth cw
    s.access va (columnOk va w) true (.read (.col w) 32) (installs h) none
      (fun s a => ({ s with thr := s.thr.wvp d (BitVec.ofNat 256 a.val) }).retire 8 1))
/-- STV (R156). -/
def execStv (d : BitVec 7) (bp : BitVec 3) (_ : BitVec 5) (off : BitVec 24) (s : State) : Next :=
  .next (
    let va := s.thr.va bp off
    s.access va (aligned va 16) true (.write 16 ((s.thr.rv d).setWidth 256) false) false none (fun s _ => s.retire 8 1))
/-- STVP (R156). -/
def execStvp (d : BitVec 6) (bp : BitVec 3) (_ : BitVec 5) (off : BitVec 24) (s : State) : Next :=
  .next (
    let va := s.thr.va bp off
    s.access va (aligned va 32) true (.write 32 (s.thr.rvp d) false) false none (fun s _ => s.retire 8 1))
/-- STVC (R156). -/
def execStvc (d : BitVec 6) (bp : BitVec 3) (cw : BitVec 2) (_ : BitVec 5) (off : BitVec 24) (s : State) : Next :=
  .next (
    let va := s.thr.va bp off
    let w := columnWidth cw
    s.access va (columnOk va w) true (.writeCol w (s.thr.rvp d)) false none (fun s _ => s.retire 8 1))

/-- The 16-bit draws of VAADD: from v(VD+1), or from the generator at positions (va + j·e) / e (R157). -/
def Thread.vaaddDraws (t : Thread) (d : BitVec 7) (bs : BitVec 1) (rm ty : BitVec 3) (va : Nat) : VReg :=
  if rm != 5 then 0
  else if bs == 0 then t.rv (d + 1)
  else
    let e := tBytes ty
    vecOf 16 ((List.range 8).map (fun j =>
      if j < 16 / e then drawAt t.csr.rkey t.csr.rstr (BitVec.ofNat 64 (va / e + j)) 0 % 2 ^ 16 else 0))

/-- VAADD (R157). -/
def execVaadd (d : BitVec 7) (bp : BitVec 3) (bs : BitVec 1) (rm t : BitVec 3) (_ : BitVec 5) (off : BitVec 24) (s : State) :
    Next :=
  .next (
    let va := s.thr.va bp off
    s.access va (aligned va 16) false (.vaadd t rm (s.thr.rv d) (s.thr.vaaddDraws d bs rm t va)) false none
      (fun s a =>
        let f : Flags := (a.words.headD 0).setWidth 6
        ({ s with thr := s.thr.orFlags f }).retire 8 1))
/-- LDVB (R156). -/
def execLdvb (d : BitVec 7) (bp : BitVec 3) (t : BitVec 3) (h : BitVec 5) (off : BitVec 24) (s : State) : Next :=
  .next (
    let va := s.thr.va bp off
    let e := tBytes t
    s.access va (aligned va e) true (.read .row e) (installs h) none
      (fun s a => ({ s with thr := s.thr.wv d (vecOf (8 * e) (List.replicate (16 / e) a.val)) }).retire 8 1))

/-! ## At the slices (R82, R90, R98, R103) -/

/-- A request is answered under the GEN of its access; the answer goes back under the request's number. -/
def State.answerReq (s : State) (n : Nat) (r : Req) (gen : Half) (a : Answer) : State :=
  let s1 := s.outdate r
  { s1 with
    held := s1.held.filter (fun h => h.seq != n)
    net := s1.net.filter (fun k => k.seq != n) ++
      [{ seq := n, part := r.part, src := sliceCore r.dst, body := .answer r a gen }] }

/-- The GEN under which a held request's access began; one that waits for a page answer is not in flight (R88). -/
def State.heldGen (s : State) (n : Nat) (r : Req) : Half :=
  match s.held.find? (fun h => h.seq == n) with
  | some h => (match h.stage with
    | .faulted | .noEntry .. => s.genAt r.part r.dst
    | _ => h.gen)
  | none => s.genAt r.part r.dst

/-- A request moves on at its slice, and keeps its place in the order of arrival. -/
def State.holdReq (s : State) (n : Nat) (r : Req) (st : HeldStage) (pf : Pf) : State :=
  let waits : Bool := match st with
    | .faulted | .noEntry .. => true
    | _ => false
  let h : Held := { seq := n, req := r, stage := st, pf := pf, gen := s.heldGen n r
                    again := waits || s.held.any (fun h => h.seq == n && h.again) }
  { s with
    held := if s.held.any (fun h => h.seq == n) then s.held.map (fun x => if x.seq == n then h else x) else s.held ++ [h]
    net := s.net.filter (fun k => k.seq != n) }

/-- The slices work for a partition: it runs, or its stop has not ended (R361). -/
def State.slicesRun (s : State) (p : Nat) : Bool := (s.part p).state == .running

/-- A request waits for a fault entry of its page: it joins or opens one, or waits for one to free (R90). The record names the
GEN under which its walk ran (R91). -/
def State.faultReq (s : State) (n : Nat) (r : Req) (level : Nat) (pf : Bool) (gen : Half) : State :=
  match s.openFault (.held n) r.dst r.part r.va r.op.accClass level pf gen (Who.of r.core r.slot 0) with
  | (s1, some rid) => s1.holdReq n r .faulted (.waiting rid)
  | (s1, none) => s1.holdReq n r (.noEntry level pf gen) .clear

/-- What a translation under a GEN leads to for a request. -/
def State.judgeReq (s : State) (n : Nat) (r : Req) (gen : Half) (x : Xlate) : State :=
  match x with
  | .ok l => s.holdReq n r (if l.tgt == 2 then .remote l else .fill l) .clear
  | .request level pf => s.faultReq n r level pf gen
  | .fail c => s.answerReq n r gen { verdict := .trap c r.va }

/-- The rows that an operation needs are valid in a resident sector, so that it is served at once (R98). -/
def Sector.hasRows (c : Sector) (op : MemOp) (off : Nat) : Bool :=
  if op.column then c.whole else op.wholeRows off || (op.rows off).all (fun r => c.valid.getLsbD r.val)

/-- An earlier request goes first: one of the same slot to the same slice, one to the same sector (R103, R153), or a ticket
fetch of the same thread there, even one that a page fault holds (R111). -/
def State.heldBack (s : State) (n : Nat) (r : Req) : Bool :=
  s.net.any (fun k => k.seq < n && (match k.body with
    | .slice q => q.dst == r.dst && q.core == r.core && q.slot == r.slot
    | .tkFetch q => q.slice == r.dst && q.tid == r.tid
    | .redeem q => q.slice == r.dst && q.tid == r.tid
    | _ => false)) ||
  s.heldAt r.dst r.part r.sector || s.fetchAt r.dst r.part r.sector ||
  s.tickets.any (fun t => t.slice == r.dst && t.part == r.part && sectorNo t.va == r.sector && t.fetching && t.tid == r.tid)

/-- The arrival of a thread's request at its slice (R103). -/
def Req.met (r : Req) : Met :=
  { home := r.dst, place := r.sector, rank := if r.op.writes then slotRank r.core r.slot else readRank }

/-- SLICE_REQUEST: the request reaches its slice, in the order of R103 among those of one fabric cycle. A hit is served; a miss
in the sector storage goes by the translation cache, and a miss in both, or a hit that lacks the permission, begins a walk (R82,
R83). A walk that begins before the slice has adopted a new GEN reads from the root that the raise latched.
DESIGN CHOICE, log entry 98. -/
def execSliceRequest (n : Nat) (s : State) : Next :=
  .next (match s.packet? n with
  | some { body := .slice r, .. } =>
    if s.heldBack n r || s.overtaken r.met then s
    else
      let s := s.meet r.met
      let acc := r.op.accClass
      let gen := s.genAt r.part r.dst
      let walk : HeldStage := .walk 3 (s.part r.part).root gen
      match s.sector? r.dst r.part r.va with
      | some c =>
        if c.leaf.permits acc then
          if c.hasRows r.op (r.va % 1024) then
            let (s1, a) := s.serve r.dst r.part r.va c.leaf r.op r.sig
            s1.answerReq n r gen a
          else s.holdReq n r (.fill c.leaf) .clear
        else s.holdReq n r walk .clear
      | none =>
        match s.tcFind r.dst r.part r.va with
        | some l => s.judgeReq n r gen (l.judge r.va acc l.level)
        | none => s.holdReq n r walk .clear
  | _ => s)

/-- TABLE_WALK: one entry of the shadow table is read for a held request (R82). A request that waits for a fault entry
tries again. -/
def execTableWalk (n : Nat) (s : State) : Next :=
  .next (match s.held.find? (fun h => h.seq == n) with
  | some h =>
    let r := h.req
    if !s.slicesRun r.part then s else
    (match h.stage with
     | .walk level base gen =>
       (match s.walkEntry r.va level base with
        | .down l b => s.holdReq n r (.walk l b gen) .clear
        | .absent => s.judgeReq n r gen (.request level false)
        | .bad => s.judgeReq n r gen (.fail 0x04)
        | .leaf l => (s.tcInstall r.dst r.part r.va gen l).judgeReq n r gen (l.judge r.va r.op.accClass level))
     | .noEntry level pf gen => s.faultReq n r level pf gen
     | _ => s)
  | none => s)

/-- Change the record of a held request. -/
def State.modHeld (s : State) (n : Nat) (f : Held → Held) : State :=
  { s with held := s.held.map (fun h => if h.seq == n then f h else h) }

/-- A way for a held request's new sector (R100): none yet while it waits for the write-back of the victim that it took, or
for its turn; the state tells what it waits for. -/
def State.takeWay (s : State) (h : Held) (slice set : Nat) : State × Bool :=
  let ag : Agent := .held h.seq
  let wait : State × Bool := (s.waitWay ag slice h.req.part set, false)
  match h.evict with
  | some _ => (s, s.holdsWay h slice set)
  | none =>
    if !s.wayTurn ag slice set then wait
    else if s.waysUsed slice set < 16 then (s.tookWay ag slice set, true)
    else match s.victim slice set with
      | none => wait
      | some v =>
        let s1 := s.tookWay ag slice set
        if v.dirtyRows == 0 then (s1.removeSector v, true)
        else (((s1.startWb v false).removeSector v).modHeld h.seq (fun h => { h with evict := some s.seqno }), false)

/-- Apply f to the partition's raise. -/
def State.modRaise (s : State) (p : Nat) (f : Raise → Raise) : State :=
  s.modPart p (fun x => { x with raise := x.raise.map f })

/-- A request that began under the GEN before the raise in progress is served under it: its lines are tagged with that GEN,
and what it stored counts among the write-backs of step 3 (R82, R87, R89). -/
def State.serveOld (s : State) (l : Leaf) (r : Req) : State × Answer :=
  let was := ((s.part r.part).raise.map (·.adopted)).getD []
  let s0 := s.modRaise r.part (fun x => { x with adopted := x.adopted.filter (· != r.dst) })
  let (s1, a) := s0.serve r.dst r.part r.va l r.op r.sig
  let (s2, ns) := match s1.sector? r.dst r.part r.va with
    | some c => s1.cleanAll [c]
    | none => (s1, [])
  (s2.modRaise r.part (fun x => { x with adopted := was, wbs := x.wbs ++ ns }), a)

/-- A held request is served under the GEN at which its access began. -/
def State.serveHeld (s : State) (l : Leaf) (r : Req) (gen : Half) : State × Answer :=
  if gen == s.genAt r.part r.dst then s.serve r.dst r.part r.va l r.op r.sig else s.serveOld l r

/-- A held request's sector is resident, or has a way; no older bytes of it are on their way out (R99, R100). -/
def State.fillReady (s : State) (h : Held) : State × Bool :=
  let r := h.req
  if (s.sector? r.dst r.part r.va).isSome then (s, true)
  else if s.landingOut r.dst r.part r.va then (s, false)
  else s.takeWay h r.dst (s.setOf r.part r.va)

/-- SECTOR_FILL: the rows that a held request needs arrive from the target, or from the peer module, and it is served
(R98, R105). -/
def execSectorFill (n : Nat) (s : State) : Next :=
  .next (match s.held.find? (fun h => h.seq == n) with
  | some h =>
    let r := h.req
    if !s.slicesRun r.part then s else
    (match h.stage with
     | .fill l =>
       (match s.fillReady h with
        | (s1, false) => s1
        | (s1, true) =>
          let (s2, a) := (s1.modHeld n (fun h => { h with evict := none })).serveHeld l r h.gen
          s2.answerReq n r h.gen a)
     | .remote l =>
       (match (s.losePeer r.dst r.part r.sig).peerOp (.held n) r.part r.dst r.va l r.op with
        | (s1, some a) => (s1.forget (.held n)).answerReq n r h.gen { a with sig := s1.peerSig r.dst r.part }
        | (s1, none) => s1)
     | _ => s)
  | none => s)

/-! ## At the cores (R150, R151, R153) -/

/-- The words of a row of code go to the core's instruction buffer (R178). -/
def State.putWords (s : State) (core p va : Nat) (d : Line) : State :=
  let base := 2 ^ 64 * (64 * core + p) + va / 32 * 32
  { s with ibuf := (List.range 8).foldl (fun b i => Table.set b (base + 4 * i) (d.extractLsb' (32 * i) 32)) s.ibuf }

/-- A load's line arrives: it is installed, or a resident line of the same place goes, since the reader of the newer bytes must
not hit older ones (R150, R292). -/
def State.lineComes (s : State) (r : Req) (kind : LineKind) (va : Nat) (gen : Half) (d : Line) (g : Sig) : State :=
  if r.install && gen == s.genAt r.part (coreTarget r.core) then s.l1Install r.core r.part kind va gen d g
  else s.l1Drop r.core r.part (fun l => l.kind == kind && l.va == va)

/-- What an answered request does at its core beside waking its thread: a load's line is installed (R150), a store's bytes
go into resident lines, an atomic's lines go (R151), and every write counts in the accumulators (R294). -/
def State.arrive (s : State) (r : Req) (a : Answer) (gen : Half) : State :=
  match r.op with
  | .read .row _ => s.lineComes r .row (r.va / 32 * 32) gen a.data a.sig
  | .read (.col w) _ => s.lineComes r (.col w) r.va gen a.data a.sig
  | .readHome _ => s
  | .fetch =>
    if r.install && gen == s.genAt r.part (coreTarget r.core) then s.putWords r.core r.part r.va a.data else s
  | .write .. | .writeCol .. =>
    let ws := (r.op.stored (r.va % 1024)).map (fun ob => (r.va / 1024 * 1024 + ob.1, ob.2))
    ((s.l1Store r.core r.part ws r.sig).noInstall r.core r.part (fun q => q.sector == r.sector)).accumulate r.core r.part
      (sigBits r.sector)
  | .alu .. | .vaadd .. | .red .. | .fuse .. =>
    let bs := r.op.span r.va
    ((s.l1Drop r.core r.part (fun l => bs.any (fun b => l.bytes.contains b))).noInstall r.core r.part
      (fun q => q.sector == r.sector)).accumulate r.core r.part (sigBits r.sector)

/-- The seen signature takes the SIG of a load's, LDA's or ATOM's response (R295). -/
def State.see (s : State) (r : Req) (n : Nat) (g : Sig) : State :=
  match r.op with
  | .read .. | .readHome _ | .alu .. =>
    s.modThread r.tid (fun t => if t.expect == some n then { t with seen := t.seen ||| g } else t)
  | _ => s

/-- LINE_ARRIVAL: a slice's answer reaches the core, delivers its data and wakes the thread (R150, R153). DEDUCED, log entry 21. -/
def execLineArrival (n : Nat) (s : State) : Next :=
  .next (match s.packet? n with
  | some { body := .answer r a gen, .. } =>
    let s1 := s.dropPacket n
    let s2 := match a.verdict with
      | .ok => (s1.arrive r a gen).see r n a.sig
      | .trap .. => s1
    s2.deliver r.tid n a
  | _ => s)

/-- The arrivals of a window access from another core, one for each word of the scratchpad (R153). -/
def Req.metWords (r : Req) : List Met :=
  ((r.op.span (r.va % 2 ^ 16)).map (· / 4)).eraseDups.map (fun k =>
    { home := coreTarget r.dst, place := k, rank := if r.op.writes then slotRank r.core r.slot else readRank })

/-- A window access is held at the core whose L1CFG is being written: a thread of a FIXED launch waits beyond its time (R146, R333). -/
def State.holdScratch (s : State) (n : Nat) (r : Req) : State :=
  if r.late then s
  else
    let s1 := match s.thread? r.tid with
      | some t => s.delayed t r.dst
      | none => s
    { s1 with net := s1.net.map (fun k => if k.seq == n then { k with body := .scratch { r with late := true } } else k) }

/-- REMOTE_SCRATCHPAD_REQUEST: a window access from another core is served at the core's SRAM port, in arrival order of its
slot's requests, and in the order of R103 among those of one fabric cycle to a word; while a write of L1CFG is parked there it
is held (R146, R153). The window rules hold there too. DESIGN CHOICE, log entry 16. -/
def execRemoteScratchpadRequest (n : Nat) (s : State) : Next :=
  .next (match s.packet? n with
  | some { body := .scratch r, .. } =>
    let early := s.net.any (fun k => k.seq < n && (match k.body with
      | .scratch q => q.dst == r.dst && q.core == r.core && q.slot == r.slot
      | _ => false))
    if early then s
    else if s.l1cfgWaits r.part r.dst then s.holdScratch n r
    else if r.metWords.any s.overtaken then s
    else
      let s0 := r.metWords.foldl State.meet (s.dropPacket n)
      let (s1, a) := match s.window r.part r.core r.va (r.op.span (r.va % 2 ^ 16)) with
        | some (c, off) => s0.sramOp r.part c off r.va r.op
        | none => (s0, ({ verdict := .trap 0x05 r.va } : Answer))
      { s1 with net := s1.net ++ [{ seq := n, part := r.part, src := r.dst, body := .wake r.tid n a }] }
  | _ => s)

/-- WRITE_BACK_COMPLETE: a write-back reaches its target and its way is no longer busy; those of a sector land in their order
(R99, R100). -/
def execWriteBackComplete (n : Nat) (s : State) : Next :=
  .next (match s.wbs.find? (fun w => w.n == n) with
  | some w => if s.wbs.any (fun v => v.n < n && v.of w.slice w.part (1024 * w.vpn)) then s else s.landWb w
  | none => s)

end Sys2Proof.Machine
end

