-- ==== Sys2Proof/Machine/Tickets.lean ====
section
/-! DEFINITION. Ticket loads (R108–R120): the LDT and TKT forms, and the fetches, redemptions and notices of the slices'
ticket tables. A tombstone with `discard` still waits for the end of its fetch. -/

namespace Sys2Proof.Machine

/-! ## Ticket values (R108, R109) -/

def tkIndex (v : Word) : Nat := bitsOf v 21 11
/-- The issuing core that a ticket names. -/
def tkCore (v : Word) : Nat :=
  let i := bitsOf v 6 15
  let d := bitsOf v 2 4
  coreAt (160 * (d % 4) + i % 160) (160 * (d / 4) + i / 160)
def tkValue (idx core seq : Nat) : Word :=
  BitVec.ofNat 32 (idx * 2 ^ 21 + coreIndex core * 2 ^ 6 + dieOf core * 4 + seq)

/-- The slice that a live ticket is toward. DEDUCED, log entry 29. -/
def State.liveSlice (s : State) (l : Live) : Nat := shSlice (s.shape l.part) (tkIndex l.ticket)

/-- The live tickets of a core toward a slice, of every slot. DEDUCED, log entry 29. -/
def State.liveToward (s : State) (core slice : Nat) : List Live :=
  s.live.filter (fun l => l.core == core && s.liveSlice l == slice)

/-- The thread's owned slot that holds the fewest live tickets, lowest first. -/
def State.chargeSlot (s : State) (t : Thread) : Nat :=
  let count (k : Nat) : Nat := (s.live.filter (fun l => l.core == t.core && l.slot == k && l.part == t.tid.part)).length
  ((List.range 16).filter t.ownsHere).foldr (fun k best => if count k ≤ count best then k else best)
    (((List.range 16).filter t.ownsHere).getLastD 0)

/-- The first free sequence number of a core toward a slice; none when four tickets are live there. DEDUCED, log entry 29. -/
def State.freeSeq (s : State) (core slice : Nat) : Option Nat :=
  (List.range 4).find? (fun q => (s.liveToward core slice).all (fun l => bitsOf l.ticket 0 2 != q))

/-! ## LDT (R118) -/

/-- An LDT form; kind 0 a row line, 1 a quad-line, 2 a sector, 3 a column line of width cw. -/
def ldtForm (g d : BitVec 4) (bp : BitVec 3) (off : BitVec 24) (kind cw : Nat) (alignOk : Nat → Bool) (s : State) : Next :=
  guarded g 8 s (fun s =>
    let t := s.thr
    let va := t.va bp off
    if unimplemented va then s.accessTrap 0x04 va
    else if !alignOk va then s.accessTrap 0x03 va
    else if isWindow va then s.accessTrap 0x05 va
    else
      let p := t.tid.part
      let idx := s.sliceIx p va
      let slice := s.sliceOf p va
      if 64 * 2 ^ t.flog ≤ (s.live.filter (fun l => l.tid == t.tid)).length then s.park (.tickets 0)
      else if s.fetchRefused slice then s.park (.tickets 2)
      else match s.freeSeq t.core slice with
        | none => s.park (.tickets 1)
        | some q =>
          let v := tkValue idx t.core q
          let k := s.chargeSlot t
          let r : TkReq := { tid := t.tid, part := p, core := t.core, slot := k, slice := slice, ticket := v, kind := kind
                             cw := cw, va := va }
          let s1 := s.send p t.core (.tkFetch r)
          let l : Live := { ticket := v, core := t.core, part := p, slot := k, tid := t.tid }
          let u := s1.thr.ws d v
          ({ s1 with live := s1.live ++ [l], thr := { u with unserved := u.unserved + 1 } }).retire 8 1)

/-- LDT.L (R118). -/
def execLdtL (g d : BitVec 4) (bp : BitVec 3) (_ : BitVec 5) (off : BitVec 24) (s : State) : Next :=
  ldtForm g d bp off 0 0 (fun va => aligned va 32) s
/-- LDT.Q (R118). -/
def execLdtQ (g d : BitVec 4) (bp : BitVec 3) (_ : BitVec 5) (off : BitVec 24) (s : State) : Next :=
  ldtForm g d bp off 1 0 (fun va => aligned va 128) s
/-- LDT.S (R118). -/
def execLdtS (g d : BitVec 4) (bp : BitVec 3) (_ : BitVec 5) (off : BitVec 24) (s : State) : Next :=
  ldtForm g d bp off 2 0 (fun va => aligned va 1024) s
/-- LDT.C (R118). -/
def execLdtC (g d : BitVec 4) (bp : BitVec 3) (cw : BitVec 2) (_ : BitVec 5) (off : BitVec 24) (s : State) : Next :=
  ldtForm g d bp off 3 (columnWidth cw) (fun va => columnOk va (columnWidth cw)) s

/-! ## The TKT forms (R113, R119) -/

/-- A redemption of the focused thread goes to its slice; the thread parks for the answer. -/
def State.redeem (s : State) (v : Word) (kind : RedeemKind) : State :=
  let t := s.thr
  let p := t.tid.part
  if shSlices (s.shape p) ≤ tkIndex v then s.trap 0x08 (v.setWidth 64)
  else
    let slice := shSlice (s.shape p) (tkIndex v)
    if s.fetchRefused slice then s.park (.tickets 2)
    else
      let r : Redeem := { tid := t.tid, part := p, core := t.core, slot := t.slot, slice := slice, ticket := v, kind := kind }
      ((s.request (.redeem r)).sent).park .answer

/-- A TKT form that takes an answer. -/
def State.ticketForm (s : State) (v : Word) (kind : RedeemKind) (k : State → Answer → State) : State :=
  match s.thr.answer with
  | some a => s.answered a k
  | none => if s.thr.stage.sent then s.park .answer else s.redeem v kind

/-- RDMV (R119). -/
def execRdmv (g : BitVec 4) (v : BitVec 6) (a : BitVec 4) (s : State) : Next :=
  guarded g 4 s (fun s => s.ticketForm (s.thr.rs a) .rdmv (fun s a =>
    ({ s with thr := s.thr.wvp v a.data }).retire 4 1))

/-- RDMS (R119): its destination is checked at the core first. -/
def execRdms (g a : BitVec 4) (b : BitVec 3) (s : State) : Next :=
  guarded g 4 s (fun s =>
    match s.thr.answer with
    | some r => s.answered r (fun s _ => s.retire 4 1)
    | none =>
      if s.thr.stage.sent then s.park .answer
      else
        let d := s.thr.ra b
        let p := s.thr.tid.part
        match (if isWindow d.toNat then s.window p s.thr.core d.toNat [d.toNat % 2 ^ 16] else none) with
        | some (c, off) =>
          if c != s.thr.core then s.trap 0x05 d
          else if off % 32 != 0 then s.trap 0x03 d
          else s.redeem (s.thr.rs a) (.rdms d.toNat (s.scratchSize p c - off))
        | none => s.trap 0x05 d)

/-- TKDROP (R119): it never parks; its request waits its turn on the way (R111). DEDUCED, log entry 30. -/
def execTkdrop (g a : BitVec 4) (s : State) : Next :=
  guarded g 4 s (fun s =>
    let t := s.thr
    let v := t.rs a
    let p := t.tid.part
    if shSlices (s.shape p) ≤ tkIndex v then s.retire 4 1
    else
      let r : Redeem := { tid := t.tid, part := p, core := t.core, slot := t.slot
                          slice := shSlice (s.shape p) (tkIndex v), ticket := v, kind := .drop }
      (s.send p t.core (.redeem r)).retire 4 1)

/-- TKTST (R119). -/
def execTktst (g : BitVec 4) (pd : BitVec 3) (a : BitVec 4) (s : State) : Next :=
  guarded g 4 s (fun s => s.ticketForm (s.thr.rs a) .test (fun s a =>
    ({ s with thr := s.thr.wp pd (a.val == 1) }).retire 4 1))

/-- RDMW (R119). DEDUCED, log entry 30. -/
def execRdmw (g : BitVec 4) (s : State) : Next :=
  guarded g 4 s (fun s => if s.thr.rdmsDue == 0 then s.retire 4 1 else s.park .rdmw)

/-! ## At the slices (R110–R115) -/

/-- The units that a kind takes, and the bytes it fetches. -/
def tkUnits (kind : Nat) : Nat :=
  match kind with
  | 1 => 4
  | 2 => 32
  | _ => 1

/-- A tombstone that may be reused. -/
def Ticket.tombstone (t : Ticket) : Bool := (t.state == .spent || t.state == .expired) && !t.discard

/-- Apply f to the entry of a number. -/
def State.modTicket (s : State) (n : Nat) (f : Ticket → Ticket) : State :=
  { s with tickets := s.tickets.map (fun t => if t.n == n then f t else t) }

/-- The service acknowledgement of a fetch (R298). -/
def State.ackFetch (s : State) (t : Ticket) : State := s.send t.part (sliceCore t.slice) (.served t.tid)

/-- An entry becomes a tombstone, the youngest: its units are free, its issuing core is told (R115). A fetch still under way
is completed and then discarded. DEDUCED, log entry 30. -/
def State.bury (s : State) (t : Ticket) (state : TkState) : State :=
  let u := { t with state := state, units := 0, data := [], claim := none, discard := t.fetching, delivering := false }
  let s1 := { s with tickets := s.tickets.filter (fun (x : Ticket) => x.n != t.n) ++ [u] }
  s1.send t.part (sliceCore t.slice) (.retire t.val)

/-- A tombstone of the same value goes; one whose fetch is still under way is acknowledged as it goes (R111). DEDUCED, log entry 30. -/
def State.replaceTombstone (s : State) (slice : Nat) (v : Word) : State :=
  let old := s.tickets.filter (fun t => t.slice == slice && t.val == v && (t.state == .spent || t.state == .expired))
  let s1 := { s with tickets := s.tickets.filter (fun t => !(t.slice == slice && t.val == v
                && (t.state == .spent || t.state == .expired))) }
  (old.filter (·.discard)).foldl State.ackFetch s1

/-- The slice's entries after the oldest tombstone is reused when all 2,048 are in use. -/
def State.entryRoom (s : State) (slice : Nat) : Option State :=
  if (s.tickets.filter (fun t => t.slice == slice)).length < 2048 then some s
  else match s.tickets.find? (fun t => t.slice == slice && t.tombstone) with
    | some t => some { s with tickets := s.tickets.filter (fun (x : Ticket) => x.n != t.n) }
    | none => none

/-- Earlier requests of a thread to a slice come first (R111). DEDUCED, log entry 30. -/
def State.behind (s : State) (n : Nat) (tid : Tid) (slice : Nat) : Bool :=
  s.net.any (fun k => k.seq < n && (match k.body with
    | .slice q => q.dst == slice && q.tid == tid
    | .tkFetch q => q.slice == slice && q.tid == tid
    | .redeem q => q.slice == slice && q.tid == tid
    | _ => false))

/-- The arrival of a fetch at its slice: a read (R103, R111). -/
def TkReq.met (r : TkReq) : Met := { home := r.slice, place := sectorNo r.va, rank := readRank }

/-- What concerns a ticket at its slice, as the places of `Met` number it. -/
def ticketPlace (v : Word) : Nat := 2 ^ 46 + v.toNat
/-- The arrival of a redemption at its slice (R114). -/
def Redeem.met (r : Redeem) : Met := { home := r.slice, place := ticketPlace r.ticket, rank := slotRank r.core r.slot }

/-- TICKET_FETCH: the slice accepts the fetch, or refuses it for want of room and the core resends it (R111). -/
def execTicketFetch (n : Nat) (s : State) : Next :=
  .next (match s.packet? n with
  | some { body := .tkFetch r, .. } =>
    if s.behind n r.tid r.slice then s
    else
      let s1 := s.replaceTombstone r.slice r.ticket
      let used := (s1.tickets.filter (fun t => t.slice == r.slice)).foldl (fun u t => u + t.units) 0
      match (if used + tkUnits r.kind ≤ 2048 then s1.entryRoom r.slice else none) with
      | some s2 =>
        let t : Ticket := { n := n, slice := r.slice, val := r.ticket, part := r.part, lid := r.tid.lid, core := r.core
                            slot := r.slot, tid := r.tid, kind := r.kind, cw := r.cw, va := r.va, state := .pending
                            units := tkUnits r.kind, since := s.now }
        let s3 := (s2.dropPacket n).meet r.met
        { s3 with tickets := s3.tickets ++ [t] }
      | none =>
        { s with net := s.net.map (fun k => if k.seq == n then { k with body := .tkFetch { r with refused := true } } else k) }
  | _ => s)

/-- The reads of a fetch: addresses and operations, line by line. -/
def Ticket.reads (t : Ticket) : List (Nat × MemOp) :=
  match t.kind with
  | 3 => [(t.va, .read (.col t.cw) 32)]
  | _ => (List.range (tkUnits t.kind)).map (fun i => (t.va + 32 * i, .read .row 32))

/-- How a fetch's reads end. -/
inductive Fetching where
  | data (s : State) (ls : List Line) (pois : Bool)
  | wait (s : State)
  | fault (s : State) (rid : Nat)
  | fail (s : State) (cause : Nat)

/-- The reads of a fetch, one after the other. -/
def State.readLines (s : State) (t : Ticket) (rs : List (Nat × MemOp)) (ls : List Line) (pois : Bool) : Fetching :=
  match rs with
  | [] => .data s ls pois
  | (va, op) :: rest =>
    match s.agentOp (.ticket t.n) (Who.of t.core t.slot 5) .clear t.part t.core va op with
    | .ok s1 a => State.readLines s1 t rest (ls ++ [a.data]) (pois || a.verdict != .ok)
    | .wait s1 => .wait s1
    | .fault s1 rid => .fault s1 rid
    | .fail s1 c => .fail s1 c

/-- A redemption is answered with a cause. -/
def State.refuseRedeem (s : State) (r : Redeem) (seq cause addr : Nat) : State :=
  { s with net := s.net ++ [{ seq := seq, part := r.part, src := sliceCore r.slice
                              body := .wake r.tid seq { verdict := .trap cause addr } }] }

/-- A claimed entry whose fetch has ended: steps 8 to 10 of R113. A failure consumes the ticket at once; a delivery leaves it
claimed, with its units, until the bytes have reached the core (R110, R114). -/
def State.settleClaim (s : State) (t : Ticket) (r : Redeem) (seq : Nat) : State :=
  match t.fail with
  | some c => (s.bury t .spent).refuseRedeem r seq c t.va
  | none =>
    if t.pois then (s.bury t .spent).refuseRedeem r seq 0x06 t.va
    else
      let s1 := s.modTicket t.n (fun _ => { t with delivering := true })
      let wake (a : Answer) : Packet := { seq := seq, part := r.part, src := sliceCore r.slice, body := .wake r.tid seq a }
      match r.kind with
      | .rdms dst _ =>
        let due := s1.modThread r.tid (fun t => { t with rdmsDue := t.rdmsDue + 1 })
        ({ due with net := due.net ++ [wake {}] }).send r.part (sliceCore r.slice) (.rdms r.tid r.core (dst % 2 ^ 16) t.data t.n)
      | _ => { s1 with net := s1.net ++ [wake { data := t.data.headD 0 }] }

/-- The bytes of a claimed entry have reached the redeemer's core: the entry is spent (R114). -/
def State.delivered (s : State) (f : Ticket → Bool) : State :=
  match s.tickets.find? (fun t => t.delivering && f t) with
  | some t => s.bury t .spent
  | none => s

/-- The entry whose RDMV delivery a wake is. -/
def Ticket.wakes (t : Ticket) (tid : Tid) (seq : Nat) : Bool :=
  match t.claim with
  | some (r, n) => r.kind == .rdmv && r.tid == tid && n == seq
  | none => false

/-- The end of a fetch (R112): discarded, given to the redemption that claimed it, or kept. -/
def State.endTicket (s : State) (t : Ticket) : State :=
  let s0 := (s.ackFetch t).forget (.ticket t.n)
  let u := { t with pf := .clear }
  if t.discard then s0.modTicket t.n (fun _ => { u with discard := false, data := [], units := 0 })
  else match t.claim with
    | some (r, seq) => s0.settleClaim u r seq
    | none => s0.modTicket t.n (fun _ => { u with state := .ready })

/-- TICKET_FETCH_END: the fetch is served, in its order among the requests to its sector (R103, R111), or it fails, or its
page fault holds it (R90, R112). -/
def execTicketFetchEnd (n : Nat) (s : State) : Next :=
  .next (match s.tickets.find? (fun t => t.n == n) with
  | some t =>
    if !t.fetching || !s.slicesRun t.part then s
    else match t.pf with
      | .waiting _ => s
      | .failed .. => s.endTicket { t with fail := some 0x04, units := 0 }
      | .clear =>
        if s.heldAt t.slice t.part (sectorNo t.va) then s
        else match s.readLines t t.reads [] false with
          | .data s1 ls pois => s1.endTicket { t with data := ls, pois := pois }
          | .wait s1 => s.blocked s1 (.ticket n)
          | .fault s1 rid => (s.blocked s1 (.ticket n)).modTicket n (fun t => { t with pf := .waiting rid })
          | .fail s1 c => s1.endTicket { t with fail := some c, units := 0 }
  | none => s)

/-- The bytes that a fetch delivers. -/
def Ticket.size (t : Ticket) : Nat := 32 * tkUnits t.kind

/-- The first outcome of R113 that a redemption meets at its slice. Where a restore has put two entries of its value there, it meets
the first of the table. DESIGN CHOICE, log entry 129. -/
def State.serveRedeem (s : State) (n : Nat) (r : Redeem) : State :=
  let s0 := s.dropPacket n
  let z := r.ticket.toNat
  match s.tickets.find? (fun t => t.slice == r.slice && t.val == r.ticket) with
  | none => if r.kind == .drop then s0 else s0.refuseRedeem r n 0x08 z
  | some t =>
    match r.kind with
    | .drop => if t.part == r.part && (t.state == .pending || t.state == .ready) then s0.bury t .spent else s0
    | k =>
      if t.part != r.part then s0.refuseRedeem r n 0x09 z
      else match t.state with
        | .expired => s0.refuseRedeem r n 0x08 z
        | .spent | .claimed => s0.refuseRedeem r n 0x07 z
        | st =>
          let claimed := { t with state := .claimed, claim := some (r, n) }
          let claim : State :=
            if st == .pending then s0.modTicket t.n (fun _ => claimed)
            else s0.settleClaim claimed r n
          match k with
          | .test =>
            { s0 with net := s0.net ++ [{ seq := n, part := r.part, src := sliceCore r.slice
                                          body := .wake r.tid n { val := if st == .ready then 1 else 0 } }] }
          | .rdmv => if t.kind == 1 || t.kind == 2 then s0.refuseRedeem r n 0x03 t.va else claim
          | .rdms dst room => if room < t.size then s0.refuseRedeem r n 0x05 dst else claim
          | .drop => s0

/-- REDEMPTION: a redemption reaches its slice, in arrival order, and in the order of R103 among those of one fabric cycle (R113,
R114). -/
def execRedemption (n : Nat) (s : State) : Next :=
  .next (match s.packet? n with
  | some { body := .redeem r, .. } =>
    if s.behind n r.tid r.slice || s.overtaken r.met then s else (s.meet r.met).serveRedeem n r
  | _ => s)

/-- The bytes of an RDMS reach its redeemer's scratchpad, and their entry is spent (R114, R119). -/
def State.landRdms (s : State) (k : Packet) : State :=
  match k.body with
  | .rdms tid core dst ls entry =>
    let bs := ls.flatMap lineBytes
    let s1 := (s.dropPacket k.seq).scratchWrite tid.part core ((span dst bs.length).zip bs)
    (s1.modThread tid (fun t => { t with rdmsDue := t.rdmsDue - 1 })).delivered (fun t => t.n == entry)
  | _ => s

/-- RDMS_DELIVERY: redeemed bytes are written into the redeemer's scratchpad, all in one step, and their entry is spent (R114, R119);
a parked write of L1CFG there holds them (R146). DESIGN CHOICE, log entry 127. -/
def execRdmsDelivery (n : Nat) (s : State) : Next :=
  .next (match s.packet? n with
  | some { seq := n, body := .rdms tid core dst ls entry, part := p, src := r } =>
    if s.l1cfgWaits tid.part core then s
    else s.landRdms { seq := n, part := p, src := r, body := .rdms tid core dst ls entry }
  | _ => s)

/-- WAKE_REACHES_CORE: an answer that is no slice's load answer reaches the thread's core (R162), and a delivered entry is
spent (R114); a service acknowledgement ends a release's wait for that fetch (R298). -/
def execWakeReachesCore (n : Nat) (s : State) : Next :=
  .next (match s.packet? n with
  | some { body := .wake tid seq a, .. } => ((s.dropPacket n).deliver tid seq a).delivered (fun t => t.wakes tid seq)
  | some { body := .served tid, .. } =>
    (s.dropPacket n).modThread tid (fun t => { t with unserved := t.unserved - 1 })
  | _ => s)

/-- RETIRE_NOTICE: the issuing core clears the ticket's charge (R115). -/
def execRetireNotice (n : Nat) (s : State) : Next :=
  .next (match s.packet? n with
  | some { body := .retire v, part := p, .. } =>
    let s1 := s.dropPacket n
    { s1 with live := s1.live.filter (fun l => !(l.ticket == v && l.part == p)) }
  | _ => s)

/-- The fabric cycles after which an entry is reclaimed (R115). -/
def reclaimCycles : Nat := 2 ^ 20

/-- TICKET_RECLAIM: an entry that has stayed PENDING or READY for 2^20 fabric cycles expires, after every redemption that arrives in
that cycle (R115). -/
def execTicketReclaim (n : Nat) (s : State) : Next :=
  .next (match s.tickets.find? (fun t => t.n == n) with
  | some t =>
    if (t.state == .pending || t.state == .ready) && reclaimCycles ≤ s.now / 28 - t.since / 28 && (s.part t.part).state == .running
    then (s.bury t .expired).meet { home := t.slice, place := ticketPlace t.val, rank := readRank + 1 } else s
  | none => s)

end Sys2Proof.Machine
end

