-- ==== Sys2Proof/Machine/Sequencer.lean ====
section
/-! DEFINITION. The launch sequencers (R309–R316, R371): ring memory, dependences, ageing, group tables, dispatch, retirement;
and the watchdog (R343). -/

namespace Sys2Proof.Machine

/-- The die whose sequencer serves a partition: that of its north-west quad (R309). -/
def State.seqDie (s : State) (p : Nat) : Nat := quadDie (shQx (s.shape p) + 20 * shQy (s.shape p))

/-- A sequencer as an accessing agent, for a ring (R91). -/
def State.seqEngine (s : State) (p ring : Nat) (ag : Agent) (pf : Pf) : Engine :=
  { ag := ag, who := { die := s.seqDie p, core := 0x7FFF, slot := ring, agent := 6 }, p := p, core := coreAt 0 640
    pf := pf }

/-- DEDUCED, log entry 53. -/
def Launch.engine (l : Launch) (s : State) : Engine := s.seqEngine l.part l.ring (.launch l.part l.lid 0) l.pf

/-- A launch that is not to be dispatched goes on to its completion (R316); its pairs are free. -/
def State.retireEarly (s : State) (l : Launch) (status : Nat) : State :=
  (s.modLaunch l.part l.lid (fun l => { l with phase := .doneDue, status := status, pf := .clear, pf1 := .clear })).admitPass l.part

/-! ## Ring memory (R371) -/

/-- Ring r can give an entry. -/
def State.ringReady (s : State) (p r : Nat) : Bool :=
  match ((s.part p).rings.toList)[r]? with
  | some x =>
    s.partRuns p && x.base != 0 && decide (4 ≤ x.log) && decide (x.log ≤ 8) && !x.overrun && x.head != x.tail
      && !x.pf.waits && !s.ringFull p r
  | none => false

def State.modRing (s : State) (p r : Nat) (f : Ring → Ring) : State :=
  s.modPart p (fun x => { x with rings := if h : r < 4 then x.rings.set r (f x.rings[r]) h else x.rings })

/-- RING_ENTRY_READ: the sequencer reads entry HEAD and enters its launch; one that fails R308, or cannot be read, retires at
once (R308, R371). -/
def execRingEntryRead (p r : Nat) (s : State) : Next :=
  .next (if !s.ringReady p r then s
  else match ((s.part p).rings.toList)[r]? with
  | none => s
  | some x =>
    let e := s.seqEngine p r (.ring p r) x.pf
    let up (s : State) : State :=
      (s.forget e.ag).modRing p r (fun x => { x with head := (x.head + 1) % 2 ^ 16, pf := .clear })
    match s.codedRead e (x.base.toNat + 128 * (x.head % 2 ^ x.log)) 128 with
    | .ok s1 (.ok v) =>
      let desc := BitVec.ofNat 1024 v
      let code := s1.descCheck p desc true true
      up (s1.enter p r desc (some x.head) (if code = 0 then 0 else 5) code)
    | .ok s1 (.error _) => up (s1.enter p r 0 (some x.head) 4 0)
    | .block t none => s.blocked t e.ag
    | .block t (some rid) => (s.blocked t e.ag).modRing p r (fun x => { x with pf := .waiting rid }))

/-! ## Dependences and ageing (R310, R312) -/

/-- The sequencer reads the dependences of the waiting launches of a partition again (R310). -/
def State.rereadAll (s : State) (p : Nat) : State :=
  { s with launches := s.launches.map (fun l =>
      if l.part == p && l.phase == .waiting then { l with read0 := l.dep 0 != 0, read1 := l.dep 1 != 0 } else l) }

/-- The outcome of a read of dependence k. -/
def Launch.readDone (l : Launch) (now k : Nat) (met : Bool) : Launch :=
  let l1 := l.settle now
  if k = 0 then { l1 with met0 := met, read0 := false, pf := .clear } else { l1 with met1 := met, read1 := false, pf1 := .clear }

/-- What the page request of a read of dependence k has come to. -/
def Launch.depPf (l : Launch) (k : Nat) : Pf := if k = 0 then l.pf else l.pf1

/-- DEPENDENCE_READ: a read of dependence k completes, and the sequencer makes a pass (R310, R311). One that waits for a page answer,
or for a fault entry to ask for it, is unmet. -/
def execDependenceRead (p lid k : Nat) (s : State) : Next :=
  .next (match s.launch? p lid with
  | some l =>
    if !(l.phase == .waiting && (if k = 0 then l.read0 else l.read1) && s.partRuns p && !(l.depPf k).waits) then s
    else
      let e := s.seqEngine p l.ring (.launch p lid k) (l.depPf k)
      let unmet (f : Pf) (s : State) : State := s.modLaunch p lid (fun l =>
        let l1 := l.settle s.gtime
        if k = 0 then { l1 with met0 := false, pf := f } else { l1 with met1 := false, pf1 := f })
      match s.codedRead e (l.dep k) 8 with
      | .ok s1 (.ok v) =>
        ((s1.forget e.ag).modLaunch p lid (fun l => l.readDone s.gtime k (decide (l.depValue k ≤ v)))).admitPass p
      | .ok s1 (.error _) => (s1.forget e.ag).retireEarly l 4
      | .block t none =>
        let s1 := s.blocked t e.ag
        if s1.pageHeld e.ag then unmet .clear s1 else s1
      | .block t (some rid) => unmet (.waiting rid) (s.blocked t e.ag)
  | none => s)

/-- DEPENDENCE_REREAD: every 100 ticks of GTIME (R310). -/
def execDependenceReread (p : Nat) (s : State) : Next :=
  .next (if s.partRuns p && (s.part p).reread / 100 < s.gtime / 100 then
    (s.rereadAll p).modPart p (fun x => { x with reread := s.gtime })
  else s)

/-- LAUNCH_AGEING: a launch that has waited 6,400 ticks rises one level (R312). -/
def execLaunchAgeing (p lid : Nat) (s : State) : Next :=
  .next (match s.launch? p lid with
  | some l =>
    if s.partRuns p && l.phase == .waiting && l.met && l.level < 3 && 6400 ≤ (l.settle s.gtime).waited then
      (s.modLaunch p lid (fun l => { l with level := l.level + 1, waited := 0, mark := s.gtime })).admitPass p
    else s
  | none => s)

/-! ## Group tables (R43, R313) -/

/-- n doublewords from an address. -/
def State.readDwords (s : State) (e : Engine) (a n : Nat) (ws : List DWord) : Res (Except Fail (List DWord)) :=
  match n with
  | 0 => .ok s (.ok ws)
  | k + 1 => (s.codedRead e a 8).andThen (fun s v => State.readDwords s e (a + 8) k (ws ++ [BitVec.ofNat 64 v]))

/-- The threads of a launch on each core, and in all (R314). -/
def Launch.perCore (l : Launch) : Nat := ((List.range l.step).filter (fun j => natBit l.slots j)).length
def Launch.count (l : Launch) : Nat := l.rw * l.rh * l.perCore

/-- The ids of a membership entry. -/
def memberIds (m : DWord) : List Nat := [bitsOf m 0 16, bitsOf m 16 16, bitsOf m 32 16, bitsOf m 48 16]

/-- A membership entry names only groups of the launch, none twice. -/
def memberOk (ngrp : Nat) (m : DWord) : Bool :=
  let ids := (memberIds m).filter (· != 0xFFFF)
  ids.all (fun g => g < ngrp) && ids.eraseDups.length == ids.length

/-- The group table and the memberships agree (R313). -/
def groupsOk (ngrp : Nat) (counts : List Nat) (ms : List DWord) : Bool :=
  ms.all (memberOk ngrp) &&
  (List.range ngrp).all (fun g => (ms.filter (fun m => (memberIds m).contains g)).length == counts.getD g 0)

/-- GROUP_TABLE_READ (R313 step 1); a group entry's bits [63:32] are not looked at (R43). DESIGN CHOICE, log entry 120. -/
def execGroupTableRead (p lid : Nat) (s : State) : Next :=
  .next (match s.launch? p lid with
  | some l =>
    if !(l.phase == .admitted && s.partRuns p && !l.pf.waits) then s
    else
      let e := l.engine s
      let r := (s.readDwords e (l.f 895 832) l.ngrp []).andThen (fun s gs =>
        (s.readDwords e (l.f 831 768) l.count []).andThen (fun s ms => .ok s (.ok (gs, ms))))
      match r with
      | .ok s1 (.ok (gs, ms)) =>
        let counts := gs.map (fun g => bitsOf g 0 32)
        if groupsOk l.ngrp counts ms then
          (s1.forget e.ag).modLaunch p lid (fun l =>
            if l.phase == .admitted then { l with phase := .ready, groups := counts, members := ms, pf := .clear } else l)
        else (s1.forget e.ag).retireEarly l 3
      | .ok s1 (.error _) => (s1.forget e.ag).retireEarly l 4
      | .block t none => s.blocked t e.ag
      | .block t (some rid) => (s.blocked t e.ag).modLaunch p lid (fun l => { l with pf := .waiting rid })
  | none => s)

/-! ## Dispatch (R313, R314) -/

/-- The scalar registers at dispatch (R165). -/
def dispatchRegs (idx count : Nat) (args : DWord) (x y : Nat) : Vector Word 16 :=
  Vector.ofFn (fun (i : Fin 16) =>
    match i.val with
    | 0 => BitVec.ofNat 32 idx
    | 1 => BitVec.ofNat 32 count
    | 2 => loWord args
    | 3 => hiWord args
    | 4 => BitVec.ofNat 32 x
    | 5 => BitVec.ofNat 32 y
    | _ => 0)

/-- A thread of a launch as it begins (R165, R168, R314). Its accumulator, zero at dispatch (R294), has taken the all ones of
the dispatch's acquire (R295, R298, R313). DESIGN CHOICE, log entry 5. -/
def State.newThread (s : State) (l : Launch) (core slot idx : Nat) : Thread :=
  let m := l.members.getD idx 0xFFFFFFFFFFFFFFFF#64
  { tid := { part := l.part, lid := l.lid, idx := idx }
    s := dispatchRegs idx l.count l.args (relX (s.shape l.part) core) (relY (s.shape l.part) core)
    pc := l.entryPoint, csr := l.csrs
    grp := Vector.ofFn (fun (i : Fin 4) => BitVec.ofNat 16 (bitsOf m (16 * i.val) 16))
    sigHL := l.sigHL, flog := l.flog, fix := l.fixed, det := l.desc.getLsbD 223, prv := l.desc.getLsbD 222
    lperm := l.desc.getLsbD 221, core := core, slot := slot, acc := sigOnes, phase := .run }

/-- The core at region-relative coordinates. -/
def State.launchCore (s : State) (l : Launch) (cx cy : Nat) : Nat := shCore (s.shape l.part) (l.rx + cx) (l.ry + cy)

/-- The threads of a launch on its core number c, in row order. -/
def State.coreThreads (s : State) (l : Launch) (c : Nat) : List Thread :=
  let core := s.launchCore l (c % l.rw) (c / l.rw)
  let homes := (List.range l.step).filter (fun j => natBit l.slots j)
  (homes.zip (List.range homes.length)).map (fun jr => s.newThread l core jr.1 (c * l.perCore + jr.2))

/-- Every core of a launch's region is prepared: its slots start empty, and its L1 lines go (R313 step 4). -/
def State.prepareCores (s : State) (l : Launch) (n : Nat) : State :=
  match n with
  | 0 => s
  | c + 1 =>
    let s1 := State.prepareCores s l c
    let core := s1.launchCore l (c % l.rw) (c / l.rw)
    let homes := (List.range l.step).filter (fun j => natBit l.slots j)
    (homes.foldl (fun s j => s.freshSlots core j l.step) s1).applySig core l.part sigOnes

/-- A tick begins; for a FIXED launch it is an epoch tick, and every quad of the launch is pinned (R313, R328). -/
def State.mayDispatch (s : State) (l : Launch) : Bool :=
  s.frac == 0 && (!l.fixed || (s.epoch && (s.launchQuads l).all (fun q => (s.clock q).pinned)))

/-- LAUNCH_DISPATCH: every thread of a ready launch begins (R313, R314). DESIGN CHOICE, log entry 16. -/
def execLaunchDispatch (p lid : Nat) (s : State) : Next :=
  .next (match s.launch? p lid with
  | some l =>
    if l.phase == .ready && s.partRuns p && s.mayDispatch l then
      let s1 := s.prepareCores l (l.rw * l.rh)
      let ts := (List.range (l.rw * l.rh)).flatMap (s1.coreThreads l)
      let origin : Table Nat := (List.range 320).map (fun q => (q, s.cycles q))
      let bars : List Bar := (List.range l.ngrp).map (fun g => { part := p, lid := lid, gid := g, count := l.groups.getD g 0 })
      { s1.modLaunch p lid (fun l => if l.phase == .ready then { l with phase := .running, origin := origin } else l) with
        threads := s1.threads ++ ts, bars := s1.bars ++ bars }
    else s
  | none => s)

/-! ## Retirement (R315) -/

/-- The threads of a launch. -/
def Thread.ofLaunch (t : Thread) (p lid : Nat) : Bool := t.phase != .none && t.tid.part == p && t.tid.lid == lid
def State.launchThreads (s : State) (p lid : Nat) : List Thread := s.allThreads.filter (fun t => t.ofLaunch p lid)

/-- The copy and matrix queues of a thread's slots are empty. -/
def State.threadQuiet (s : State) (t : Thread) : Bool :=
  t.queues.all (fun cs => (s.slotAt cs.1 cs.2).copy.quiet && (s.slotAt cs.1 cs.2).mtx.quiet)

/-- The RDMS deliveries of a thread are done: none is in flight, nor a redemption that would make one. -/
def State.rdmsQuiet (s : State) (t : Thread) : Bool :=
  t.rdmsDue == 0 && s.net.all (fun k => match k.body with
    | .redeem r => r.tid != t.tid
    | _ => true) &&
  s.tickets.all (fun k => match k.claim with
    | some (r, _) => r.tid != t.tid
    | none => true)

/-- The page fault of a held request is open, or waits for an entry. -/
def HeldStage.onFault (h : HeldStage) : Bool :=
  match h with
  | .faulted | .noEntry .. => true
  | _ => false

/-- The agents of a launch leave their fault entries: the accesses that wait there are not made (R92). -/
def State.leaveFaults (s : State) (p lid : Nat) : State :=
  let of (t : Tid) : Bool := t.part == p && t.lid == lid
  { s with
    held := s.held.filter (fun h => !(of h.req.tid && h.stage.onFault))
    comb := s.comb.filter (fun o => !(of o.tid && o.pf.waits && !o.linearised))
    stackOps := s.stackOps.filter (fun o => !(of o.tid && o.pf.waits)) }

/-- A launch may retire: its threads have ended, their queues are empty and their deliveries done (R315), and every access of theirs
is acknowledged (R298); an access on a page fault leaves (R92), and a fetch that is not served holds nothing up (R115). -/
def State.mayRetire (s : State) (l : Launch) : Bool :=
  (s.launchThreads l.part l.lid).all (fun t =>
    !t.isLive && s.threadQuiet t && s.rdmsQuiet t && !(s.leaveFaults l.part l.lid).unacknowledged t.tid)

/-- The fetches of a launch that a page fault holds leave it, and are not made (R92). -/
def State.leaveFetches (s : State) (p lid : Nat) : State :=
  { s with tickets := s.tickets.map (fun t =>
      if t.part == p && t.lid == lid && t.discard && s.pageHeld (.ticket t.n) then { t with discard := false, pf := .clear } else t) }

/-- The launch's threads are gone, with their bindings and queues; its groups and tickets too (R315 steps 1 and 2), and
its accesses that wait on page faults (R92). -/
def State.clearLaunch (s : State) (p lid : Nat) : State :=
  let ts := s.launchThreads p lid
  let s1 := ts.foldl (fun s t => ((s.unbindHere t).unbindHome t).dropQueues t) (s.leaveFaults p lid)
  let s2 := ((s1.tickets.filter (fun t => t.part == p && t.lid == lid && (t.state == .pending || t.state == .ready))).foldl
    (fun s t => s.bury t .expired) s1).leaveFetches p lid
  { s2 with
    thr := if s2.thr.ofLaunch p lid then {} else s2.thr
    threads := s2.threads.filter (fun t => !t.ofLaunch p lid)
    bars := s2.bars.filter (fun b => !(b.part == p && b.lid == lid)) }

/-- LAUNCH_RETIREMENT: steps 1 to 3 of R315; the status is OK or STOPPED, or RESIZED as a resize set it (R316). -/
def execLaunchRetirement (p lid : Nat) (s : State) : Next :=
  .next (match s.launch? p lid with
  | some l =>
    if l.phase == .running && s.partRuns p && s.mayRetire l then
      let stopped := (s.launchThreads p lid).any (fun t => t.phase == .stopped)
      ((s.clearLaunch p lid).modLaunch p lid (fun l =>
        { l with phase := .doneDue, status := if l.status != 0 then l.status else if stopped then 2 else 0 })).admitPass p
    else s
  | none => s)

/-- SIG of the sector of an address takes a signature (R294); a page of a peer module has none at a slice. -/
def State.orSig (s : State) (p va : Nat) (g : Sig) : State :=
  if isWindow va then s
  else match s.sector? (s.sliceOf p va) p va with
    | some c => s.putSector { c with sig := c.sig ||| g }
    | none => s.losePeer (s.sliceOf p va) p g

/-- The completion message of a launch, or that it is skipped (R315 step 5, R318). DEDUCED, log entry 27. DEDUCED, log entry 53. -/
def State.completionMsg (s : State) (l : Launch) : Option MsgPkt :=
  match s.msgTarget l.part l.msgt with
  | some (core, c) =>
    if s.ownsSlot l.part core c then
      some { core := core, cls := c, sender := .sequencer
             msg := { w0 := BitVec.ofNat 32 l.lid, w1 := BitVec.ofNat 32 l.status, w2 := BitVec.ofNat 32 (l.f 383 352), w3 := 0
                      sig := sigOnes } }
    else none
  | none => none

/-- Steps 5 and 6 of R315: the message and the event; the launch is over, and the dependences are read again (R310).
DEDUCED, log entry 27. -/
def State.finishLaunch (s : State) (l : Launch) (skipped : Bool) : State :=
  let m := if l.msgen then s.completionMsg l else none
  let lost := l.msgen && m.isNone
  let arg := (if skipped then 1 else 0) + (if lost then 2 else 0) + (if l.status = 5 then l.why * 2 ^ 8 else 0)
    + (match l.ringEntry with
       | some i => if l.status = 4 || l.status = 5 then i * 2 ^ 16 else 0
       | none => 0)
  let s1 := match m with
    | some k => s.send l.part (dieCore (s.seqDie l.part)) (.msg k)
    | none => s
  let s2 := s1.postPart l.part 1 l.status arg l.lid 0 0
  ({ s2 with launches := s2.launches.filter (fun k => !(k.part == l.part && k.lid == l.lid)) }).rereadAll l.part

/-- DONE_INCREMENT: the completion counter is incremented at its slice, then the message and the event follow (R315). -/
def execDoneIncrement (p lid : Nat) (s : State) : Next :=
  .next (match s.launch? p lid with
  | some l =>
    if !(l.phase == .doneDue && s.partRuns p && !l.pf.waits) then s
    else
      let a := l.doneAddr
      if a = 0 then s.finishLaunch l false
      else if a % 8 != 0 then s.finishLaunch l true
      else
        let e := l.engine s
        match s.engOp e a (.alu .add 8 1 0) with
        | .ok s1 (.val _ _) => ((s1.orSig p a sigOnes).forget e.ag).finishLaunch l false
        | .ok s1 _ => (s1.forget e.ag).finishLaunch l true
        | .block t none => s.blocked t e.ag
        | .block t (some rid) => (s.blocked t e.ag).modLaunch p lid (fun l => { l with pf := .waiting rid })
  | none => s)

/-! ## The watchdog (R343) -/

/-- The address of a memory form that a thread is parked on, from its words. -/
def Thread.formAddr (t : Thread) : Nat :=
  match Table.get? t.latch t.pc.toNat with
  | none => 0
  | some w0 =>
    match decodeWords w0.toNat ((Table.getD t.latch (t.pc.toNat + 4) 0).toNat) with
    | .ok i =>
      (match i with
       | .ldtL _ _ bp _ off | .ldtQ _ _ bp _ off | .ldtS _ _ bp _ off | .ldtC _ _ bp _ _ off | .ldb _ _ bp _ off
       | .ldbu _ _ bp _ off | .ldh _ _ bp _ off | .ldhu _ _ bp _ off | .ldw _ _ bp _ off | .ldd _ _ bp _ off
       | .stb _ _ bp _ off | .sth _ _ bp _ off | .stw _ _ bp _ off | .std _ _ bp _ off | .ldv _ bp _ off | .ldvp _ bp _ off
       | .stv _ bp _ off | .stvp _ bp _ off | .str _ _ bp _ _ off => t.va bp off
       | _ => 0)
    | .error _ => 0

/-- The address of a parked thread's access, or 0. -/
def State.parkedAddr (s : State) (t : Thread) : Nat :=
  let mine (n : Nat) : Bool := t.expect == some n
  let inNet := s.net.findSome? (fun k => if mine k.seq then (match k.body with
      | .slice r | .scratch r => some r.va
      | .answer r _ _ => some r.va
      | _ => none) else none)
  let inHeld := s.held.findSome? (fun h => if mine h.seq then some h.req.va else none)
  ((inNet.or inHeld)).getD t.formAddr

/-- WATCHDOG: a thread that has stayed parked for the interval traps; its request is not withdrawn (R343). -/
def execWatchdog (p lid idx : Nat) (s : State) : Next :=
  let tid : Tid := { part := p, lid := lid, idx := idx }
  .next (match s.thread? tid with
  | some t =>
    let w := (s.part p).wdog.toNat
    let due : Bool := match t.phase with
      | .parked x => !x.exempt
      | _ => false
    if w != 0 && due && s.partRuns p && !t.travelling && w * 1024 ≤ t.waitedAt s.gtime then
      (s.focus tid).trapWith 0x18 (BitVec.ofNat 64 (s.parkedAddr t)) t.pc (repstOf t.rep) true
    else s
  | none => s)

end Sys2Proof.Machine
end

