-- ==== Sys2Proof/Machine/Timing.lean ====
section
/-! DEFINITION. What happens at ticks of GTIME outside the threads: occupancy counts (R101), power and temperature (R380),
droop and the power limit (R327, R329), pinning (R328). -/

namespace Sys2Proof.Machine

/-- The valid sectors of a partition (R101). -/
def State.occupancy (s : State) (p : Nat) : Nat := (s.sectors.filter (fun c => c.asn == p)).length

/-- A partition with OCCCNT and OVER as they are now. -/
def State.recount (s : State) (p : Nat) : State :=
  let n := s.occupancy p
  s.modPart p (fun x => { x with occcnt := n, overrun := x.occlim != 0 && decide (x.occlim < n) })

/-- The partitions that are not FREE. -/
def State.liveParts (s : State) : List Nat := (s.parts.filter (fun x => x.2.state != .free)).map (·.1)
/-- Every partition that has a record, a FREE one too. -/
def State.allParts (s : State) : List Nat := s.parts.map (·.1)

/-- OCCUPANCY_RECOMPUTE: every 1,024 fabric cycles, 128 ticks (R101). -/
def execOccupancyRecompute (s : State) : Next :=
  .next (if s.gtime % 128 == 0 then s.allParts.foldl State.recount s else s)

/-- The power that the module draws at most, in W (R16). -/
def powerLimit : Nat := 7500

/-- PWR: every 1,000 ticks; the module draws no more than its limit (R16, R380). -/
def execPwr (watts temp : Nat) (s : State) : Next :=
  .next (if s.gtime % 1000 == 0 && watts ≤ powerLimit then
    { s with mgmt := { s.mgmt with pwr := BitVec.ofNat 32 watts, tmax := BitVec.ofNat 8 temp } }
  else s)

/-- A stop's tick has come and its halt has not been made: the halt comes first, and takes the cycle counts of the quads at that
tick, of every quad that the partition may hold when it resumes (R189, R361). -/
def State.haltDue (s : State) : Bool :=
  s.parts.any (fun x => match x.2.stop with
    | some a => !a.halted && a.g ≤ s.gtime
    | none => false)

/-- A quad's clock changes from now on. -/
def State.retime (s : State) (q : Nat) (f : Clock → Clock) : State := if s.haltDue then s else s.modClock q f

/-- DROOP_TRIP: the next cycles of an elastic quad are stretched by 1 to 4 eighths (R327). -/
def execDroopTrip (q eighths : Nat) (s : State) : Next :=
  .next (if q < 320 && !(s.clock q).pinned && 1 ≤ eighths && eighths ≤ 4 then
    s.retime q (fun c => { c with stretch := eighths })
  else s)

/-- DROOP_RECOVERY: the stretch ends (R327). -/
def execDroopRecovery (q : Nat) (s : State) : Next :=
  .next (if (s.clock q).stretch != 0 then s.retime q (fun c => { c with stretch := 0 }) else s)

/-- The power limit stretches every elastic quad by some eighths, or lets them go (R16, R327). -/
def State.limitAll (s : State) (eighths : Nat) : State :=
  (List.range 320).foldl (fun s q => if (s.clock q).pinned then s else s.modClock q (fun c => { c with limit := eighths })) s

/-- The eighths of the power limit's stretch: 1 to 4 near the limit, 0 to 4 away from it. DESIGN CHOICE, log entry 118. -/
def State.limitEighths (s : State) (near : Bool) : Nat :=
  if near then 1 + Config.powerStretch s.fresh % 4 else Config.powerStretch s.fresh % 5

/-- POWER_LIMIT: the hive controller stretches the elastic quads first, through the mechanism of a droop trip, and near the limit
it closes the fixed-admission gate too; it never unpins a quad (R16, R327, R329). DEDUCED, log entry 110. -/
def execPowerLimit (near : Bool) (s : State) : Next :=
  .next (if s.haltDue then s
  else { s.tick.limitAll (s.limitEighths near) with gate := near })

/-- A FIXED launch that holds slots in a quad (R328). -/
def State.fixedIn (s : State) (q : Nat) : Bool := s.launches.any (fun l => l.holds && l.fixed && (s.launchQuads l).contains q)

/-- GEN of the capability table moves on with every change of it (R360). -/
def State.tableChange (s : State) : State := { s with capgen := s.capgen + 1 }

/-- PIN: a quad is pinned at an epoch tick for an admitted FIXED launch: its cycle 4m begins with fabric cycle 5m, so a core
cycle begins at the tick, and an elastic cycle that is under way is cut off (R328). DESIGN CHOICE, log entry 111. -/
def execPin (q : Nat) (s : State) : Next :=
  .next (if !(s.clock q).pinned && s.epoch && s.fixedIn q && !s.haltDue then
    ({ s with clocks := Table.set s.clocks q { cycles := s.cycles q, since := s.now, pinned := true } }).tableChange
  else s)

/-- UNPIN: at the next epoch tick after the last FIXED launch in the quad has retired (R328). -/
def execUnpin (q : Nat) (s : State) : Next :=
  .next (if (s.clock q).pinned && s.epoch && !s.fixedIn q && !s.haltDue then
    (s.modClock q (fun c => { c with pinned := false })).tableChange
  else s)

end Sys2Proof.Machine
end

