-- ==== Sys2Proof/Machine/Translate.lean ====
section
/-! DEFINITION. Translation as the host drives it: page answers (R92, R93), generation raises (R87–R89) and the page-request
ring (R85). -/

namespace Sys2Proof.Machine

/-! ## Page answers (R92, R93) -/

/-- A page answer as an access takes it: its request, with the page and the access class, and whether it retries. -/
structure PageReply where
  rid : Nat
  page : Nat
  acc : Nat
  retry : Bool

/-- The reply to an open entry. -/
def FaultEntry.reply (f : FaultEntry) (retry : Bool) : PageReply := { rid := f.rid, page := f.page, acc := f.acc, retry := retry }

/-- An access that waits for a request has its answer. -/
def Pf.answered (f : Pf) (a : PageReply) : Pf :=
  match f with
  | .waiting r => if r = a.rid then (if a.retry then .clear else .failed a.page a.acc) else f
  | _ => f

def Queue.answered (q : Queue) (a : PageReply) : Queue :=
  { q with cmds := q.cmds.map (fun c => { c with pf := c.pf.answered a }) }
def Slot.answered (k : Slot) (a : PageReply) : Slot := { k with copy := k.copy.answered a, mtx := k.mtx.answered a }
def Slots.answered (t : Table Slot) (a : PageReply) : Table Slot := t.map (fun k => (k.1, k.2.answered a))
def Launch.answered (l : Launch) (a : PageReply) : Launch := { l with pf := l.pf.answered a, pf1 := l.pf1.answered a }
def TjOp.answered (o : TjOp) (a : PageReply) : TjOp := { o with pf := o.pf.answered a }
def StackOp.answered (o : StackOp) (a : PageReply) : StackOp := { o with pf := o.pf.answered a }
def Ticket.answered (t : Ticket) (a : PageReply) : Ticket := { t with pf := t.pf.answered a }
def StackJob.answered (j : StackJob) (a : PageReply) : StackJob := { j with pf := j.pf.answered a }
def Stack.answered (k : Stack) (a : PageReply) : Stack := { k with job := k.job.map (·.answered a) }
def AxLoad.answered (k : AxLoad) (a : PageReply) : AxLoad :=
  { k with job := k.job.map (·.answered a), pf := k.pf.answered a }
def Part.answered (x : Part) (a : PageReply) : Part :=
  { x with rings := x.rings.map (fun r => { r with pf := r.pf.answered a })
           axReload := x.axReload.map (fun k => k.answered a) }

/-- The answer reaches every joined agent that is not a thread. -/
def State.answerAgents (s : State) (p : Nat) (a : PageReply) : State :=
  { s with
    slots := Slots.answered s.slots a
    launches := s.launches.map (fun l => l.answered a)
    comb := s.comb.map (fun o => o.answered a)
    stackOps := s.stackOps.map (fun o => o.answered a)
    stackTab := s.stackTab.map (fun k => (k.1, k.2.answered a))
    tickets := s.tickets.map (fun t => t.answered a)
    parts := Table.set s.parts p ((s.part p).answered a) }

/-- A request that began under no walk of its own: it walks from the root, under the current GEN. -/
def State.rewalk (s : State) (h : Held) : State :=
  s.holdReq h.seq h.req (.walk 3 (s.part h.req.part).root (s.genAt h.req.part h.req.dst)) .clear

/-- The answer reaches a joined request of a thread: it walks again, or it is answered with XLATE. A stopped partition's
request walks at its resume, and its answer waits with the swept packets. -/
def State.answerHeld (s : State) (h : Held) (retry : Bool) : State :=
  let p := h.req.part
  if retry then
    if s.slicesRun p then s.rewalk h
    else { s with held := s.held.map (fun (x : Held) => if x.seq == h.seq then { x with pf := .clear } else x) }
  else
    let s1 := s.answerReq h.seq h.req (s.genAt p h.req.dst) { verdict := .trap 0x04 h.req.va }
    if s.slicesRun p then s1
    else { s1.dropPacket h.seq with swept := s1.swept ++ s1.net.filter (fun k => k.seq == h.seq) }

/-- The cached leaves of a page leave the translation cache of a slice, so that every joined access walks again (R92). -/
def State.forgetPage (s : State) (f : FaultEntry) : State :=
  { s with tc := s.tc.filter (fun e => !(e.slice == f.slice && e.asn == f.asn && f.page * 4096 / 2 ^ e.leaf.size == e.page)) }

/-- The answer is applied to an open fault entry, which is freed; records that waited for the ring may be written. DEDUCED, log entry 76. -/
def State.answerPage (s : State) (p : Nat) (f : FaultEntry) (retry : Bool) : State :=
  let s1 := { s.forgetPage f with faults := s.faults.filter (fun g => g.rid != f.rid) }
  let joined := s1.held.filter (fun h => h.pf == .waiting f.rid)
  ((joined.foldl (fun s h => s.answerHeld h retry) s1).answerAgents p (f.reply retry)).flushRecords p

/-- The answer is applied to the entries of a saved image (R93). DEDUCED, log entry 76. -/
def Image.answerPage (m : Image) (f : FaultEntry) (retry : Bool) : Image :=
  let a := f.reply retry
  let failed := m.held.filter (fun h => h.pf == .waiting f.rid && !retry)
  { m with
    faults := m.faults.filter (fun g => g.rid != f.rid)
    held := (m.held.filter (fun h => !(h.pf == .waiting f.rid && !retry))).map (fun h => { h with pf := h.pf.answered a })
    packets := m.packets ++ failed.map (fun h =>
      { seq := h.seq, part := m.part, src := sliceCore h.req.dst
        body := .answer h.req { verdict := .trap 0x04 h.req.va } h.gen })
    slots := Slots.answered m.slots a
    launches := m.launches.map (fun l => l.answered a)
    comb := m.comb.map (fun o => o.answered a)
    stackOps := m.stackOps.map (fun o => o.answered a)
    stackTab := m.stackTab.map (fun k => k.answered a)
    tickets := m.tickets.map (fun t => t.answered a) }

/-- The saved image of a partition: the newest written of it. -/
def State.savedFaults (s : State) (p : Nat) : List FaultEntry :=
  match s.images.find? (fun m => m.part == p) with
  | some m => m.faults
  | none => []

/-- The open entry of a partition, in its slices or its image, that a request id names. -/
def State.openEntry (s : State) (p rid : Nat) : Option FaultEntry :=
  (if (s.part p).state == .saved then s.savedFaults p else s.faults).find? (fun f => f.asn == p && f.rid == rid)

/-- An answer that the hive controller discards (R92): it matches no open entry, or its form is wrong. -/
def State.answerBad (s : State) (p : Nat) (v : BitVec 64) : Bool :=
  let rid := bitsOf v 0 32
  v.extractLsb' 32 16 != (s.part p).ctxgen || v.getLsbD 49 || bitsOf v 50 14 != 0 || (s.openEntry p rid).isNone

/-- PAGE_ANSWER: a write of PANS (R92, R93). A discarded answer is logged and leaves its entry open. -/
def execPageAnswer (p : Nat) (v : BitVec 64) (s : State) : Next :=
  .next (if 64 ≤ p then s
  else if s.answerBad p v then s.logEntry 4 p v.toNat
  else match s.openEntry p (bitsOf v 0 32) with
    | none => s
    | some f =>
      let retry := !v.getLsbD 48
      if (s.part p).state == .saved then
        match s.images.find? (fun m => m.part == p) with
        | some m =>
          { s with images := m.answerPage f retry :: s.images.erase m
                   parts := Table.set s.parts p ((s.part p).answered (f.reply retry)) }
        | none => s
      else s.answerPage p f retry)

/-! ## Raising the generation (R87–R89) -/

/-- The slices and cores that a partition holds, as a raise numbers them: none while it is FREE or SAVED. -/
def State.targets (s : State) (p : Nat) : List Nat :=
  match (s.part p).state with
  | .running | .stopped => s.slicesOf p ++ (shCores (s.shape p)).map coreTarget
  | .free | .saved => []

/-- The root that XROOT holds (R85). -/
def rootOf (xroot : DWord) : Nat := bitsOf xroot 20 22 * 2 ^ 20

/-- A raise starts (R87 step 2): XROOT is latched for every walk from then on. DEDUCED, log entry 76. DESIGN CHOICE, log entry 98. -/
def State.startRaise (s : State) (p : Nat) : State :=
  s.modPart p (fun x =>
    { x with gen := x.gen + 1, root := rootOf x.xroot, pend := false, inv := true
             raise := some { old := x.gen, before := s.seqno } })

/-- RAISE: a write of XCTL (R87 step 1). DESIGN CHOICE, log entry 16. -/
def execRaise (p : Nat) (v : BitVec 64) (s : State) : Next :=
  .next (if 64 ≤ p || !v.getLsbD 0 then s
  else if (s.part p).inv || (s.part p).swp then s.modPart p (fun x => { x with pend := true })
  else s.startRaise p)

/-- ADOPT_NEW_GEN: the new GEN reaches target n / 64 of partition n mod 64; a slice writes its old-generation dirty lines back
(R87 steps 2 and 3), and what it is writing back already counts with them (R88). -/
def execAdoptNewGen (n : Nat) (s : State) : Next :=
  .next (
    let p := n % 64
    let target := n / 64
    match (s.part p).raise with
    | some r =>
      if r.adopted.contains target || !(s.targets p).contains target then s
      else
        let old := s.sectors.filter (fun c => c.asn == p && c.slice == target && c.gen == gen2 r.old && c.dirtyRows != 0)
        let s1 := (s.cleanAll old).1
        let ns := (s1.wbs.filter (fun w => w.part == p && w.slice == target && w.gen == gen2 r.old)).map (·.n)
        s1.modRaise p (fun x => { x with adopted := target :: x.adopted, wbs := x.wbs ++ ns })
    | none => s)

/-- A packet is an access, or a fetch that no slice has refused, sent before the raise, or an answer made under the old
GEN. -/
def Packet.old (k : Packet) (p : Nat) (r : Raise) : Bool :=
  k.part == p && (match k.body with
    | .slice _ => k.seq < r.before
    | .tkFetch t => k.seq < r.before && !t.refused
    | .answer _ _ gen => gen == r.old || k.seq < r.before
    | _ => false)

/-- A request to a peer that was sent before the raise is still out, or the agent's access that it serves has not ended (R87
step 4). -/
def Swarm.old (w : Swarm) (s : State) (p : Nat) (r : Raise) : Bool :=
  w.part == p && w.n < r.before && (w.done.isNone || (s.present w.agent && !s.pageHeld w.agent))

/-- Every access and ticket fetch begun under the old GEN has finished (R87 step 4), those that were on their way when the raise
began among them; one that waits for a page answer is not in flight, and walks again under the current GEN (R88). -/
def State.oldDone (s : State) (p : Nat) (r : Raise) : Bool :=
  s.net.all (fun k => !k.old p r) &&
  s.held.all (fun h => h.req.part != p || (h.gen != r.old && (r.before ≤ h.seq || h.again)) || (match h.stage with
    | .faulted | .noEntry .. => true
    | _ => false)) &&
  s.tickets.all (fun t => !(t.part == p && t.fetching && t.n < r.before && !t.pf.waits)) &&
  s.swarms.all (fun w => !w.old s p r)

/-- Everything that step 4 of R87 waits for. -/
def State.invalidated (s : State) (p : Nat) (r : Raise) : Bool :=
  (s.targets p).all (fun t => r.adopted.contains t) && s.landed r.wbs && s.oldDone p r

/-- INVALIDATION_COMPLETE (R87 step 4, R88); the partition's lost flags clear (R296). -/
def execInvalidationComplete (p : Nat) (s : State) : Next :=
  .next (match (s.part p).raise with
  | some r =>
    if s.invalidated p r then
      let s1 := s.modPart p (fun x => { x with done := x.gen, inv := false, swp := true, raise := none })
      ({ s1 with lost := s1.lost.filter (fun k => k % 64 != p) }).postEvent 0 0x11 0 p 0 ((s1.part p).done.setWidth 64) 0
    else s
  | none => s)

/-- SWEEP_COMPLETE: lines of other generations are gone, and a raise that waits starts (R87 steps 5 and 1). -/
def execSweepComplete (p : Nat) (s : State) : Next :=
  .next (if (s.part p).swp then
    let g := gen2 (s.part p).gen
    let s1 := (s.sectors.filter (fun c => c.asn == p && c.gen != g)).foldl State.removeSector s
    let s2 := { s1 with l1 := s1.l1.filter (fun l => !(l.part == p && l.gen != g)) }
    let s3 := s2.modPart p (fun x => { x with swp := false })
    if (s3.part p).pend then s3.startRaise p else s3
  else s)

/-! ## The page-request ring (R85) -/

/-- PRQCFG: HEAD and the size; records that wait are written while the ring has room. -/
def execPrqcfg (p : Nat) (v : BitVec 64) (s : State) : Next :=
  .next (if 64 ≤ p then s
  else (s.modPart p (fun x => { x with prqhead := bitsOf v 32 12, prqlog := bitsOf v 0 4 })).flushRecords p)

end Sys2Proof.Machine
end

