-- ==== Sys2Proof/Machine/Partition.lean ====
section
/-! DEFINITION. Partitions (R350–R368): shapes and claims, the commands of the partition block, the synchronised stop, reshapes,
and context images. -/

namespace Sys2Proof.Machine

/-! ## Shapes and claims (R350, R351, R354) -/

/-- A shape obeys R350. -/
def shapeOk (sh : DWord) : Bool :=
  1 ≤ shQw sh && shQw sh ≤ 20 && 1 ≤ shQh sh && shQh sh ≤ 16 && shQx sh + shQw sh ≤ 20 && shQy sh + shQh sh ≤ 16 &&
  shSlots sh != 0 &&
  (List.range 16).all (fun j => !natBit (shSlots sh) j || natBit (shSlots sh) ((j + 16 / 2 ^ shFlog sh) % 16))

/-- Two shapes need a slot of one quad in common (R351). -/
def shapesMeet (a b : DWord) : Bool :=
  Nat.land (shSlots a) (shSlots b) != 0 && (shQuads a).any (shHasQuad b)

/-- Bits in common. -/
def bitsMeet (a b : DWord) : Bool := a &&& b != 0

/-- The shape whose slots a partition holds; a saved one holds none (R366). -/
def Part.heldShape (x : Part) : List DWord :=
  match x.state with
  | .running | .stopped => [x.pcur]
  | .free | .saved => []

/-- The store grants that a partition holds; a saved one keeps its own (R366). -/
def Part.heldGrant (x : Part) : List DWord := if x.state == .free then [] else [x.grant]

/-- The shapes, and the grants, that a partition holds or that its command in progress claims. -/
def Part.shapes (x : Part) : List DWord := x.heldShape ++ (x.claim.map (·.shape)).toList
def Part.grants (x : Part) : List DWord := x.heldGrant ++ (x.claim.map (·.grant)).toList

/-- The slots of a quad's cores that no partition holds. -/
def State.freeSlots (s : State) (q : Nat) : Nat :=
  ((List.range 16).filter (fun k => !s.parts.any (fun x =>
    x.2.heldShape.any (fun sh => natBit (shSlots sh) k && shHasQuad sh q)))).foldl (fun m k => m + 2 ^ k) 0

/-- The stores of a die's comb unit that no partition holds. -/
def State.freeStores (s : State) (die : Nat) : Nat :=
  ((List.range 4).filter (fun k => !s.parts.any (fun x =>
    x.2.heldGrant.any (fun g => g.getLsbD (4 * die + k))))).foldl (fun m k => m + 2 ^ k) 0

/-- What the capability table shows of the partitions (R360). -/
def State.tableParts (s : State) : List Nat := (List.range 320).map s.freeSlots ++ (List.range 16).map s.freeStores

/-- GEN moves on when the table shows other partitions than before (R360). -/
def State.tableSince (s old : State) : State := if s.tableParts == old.tableParts then s else s.tableChange

/-- Another partition holds a requested slot or a granted store. -/
def State.overlaps (s : State) (p : Nat) (c : Claim) : Bool :=
  s.parts.any (fun qx => qx.1 != p && (qx.2.shapes.any (shapesMeet c.shape) || qx.2.grants.any (bitsMeet c.grant)))

/-- A quad is ready (R378). -/
def State.quadReady (s : State) (q : Nat) : Bool :=
  s.mgmt.dready.getLsbD (quadDie q) && !s.mgmt.dfail.getLsbD (quadDie q)

/-- The code of a claim (R354), its checks in the order of their codes. DESIGN CHOICE, log entry 62. -/
def State.claimCode (s : State) (p : Nat) (c : Claim) : Nat :=
  if !shapeOk c.shape then 2
  else if s.overlaps p c then 3
  else if (shQuads c.shape).any (fun q => !s.quadReady q) then 4
  else 0

/-- What CREATE and RESHAPE read (R352). DEDUCED, log entry 66. -/
def Part.request (x : Part) : Claim :=
  { shape := x.pshape, ctl := x.pctl, memr := x.pmem, linkr := x.plink, grant := x.pgrant, area := x.pctx }

/-! ## Commands (R353) -/

/-- A command ends: CODE and STATE are written and a management event is posted. -/
def State.endCommand (s : State) (p code : Nat) : State :=
  let s1 := s.modPart p (fun x => { x with code := code, busy := false, claim := none, working := none, back := false })
  s1.postEvent 0 0x10 code p 0 (s1.part p).pcur 0

/-- A command starts, unless BUSY is set or STATE does not allow it; every command is logged (R353, R354, R380).
DESIGN CHOICE, log entry 62. DEDUCED, log entry 63. -/
def State.command (s : State) (p op : Nat) (allowed : List PState) (k : State → State) : State :=
  if 64 ≤ p then s
  else
    let s1 := s.logEntry 1 p op
    let x := s1.part p
    if x.busy then s1.modPart p (fun x => { x with code := 1 })
    else if !allowed.contains x.state then s1.endCommand p 5
    else k (s1.modPart p (fun x => { x with busy := true }))

/-- OP_UNDEFINED: no effect but CODE (R353). DEDUCED, log entry 63. -/
def execOpUndefined (p op : Nat) (s : State) : Next :=
  .next (if 64 ≤ p || (1 ≤ op && op ≤ 7) then s
  else s.modPart p (fun x => { x with code := if x.busy then 1 else 5 }))

/-! ## CREATE (R355) -/

/-- Owner tags of a partition outside a shape it holds are forgotten, so that its new banks read as zero (R144, R355).
DEDUCED, log entry 65. -/
def State.clearTags (s : State) (p : Nat) (held : Option DWord) : State :=
  let own (b : Nat) : Bool := match held with
    | some sh => natBit (shSlots sh) (b % 16) && shHasQuad sh (quadOf (b / 16))
    | none => false
  { s with tags := s.tags.filter (fun t => t.2 != p || own t.1) }

/-- Store positions that a partition does not hold any more, or that it takes over from another, are cleared (R268). -/
def State.clearStores (s : State) (p : Nat) (grant : DWord) : State :=
  { s with stores := s.stores.filter (fun k => if k.2.part = p then grant.getLsbD k.1 else !grant.getLsbD k.1) }

/-- A partition as it is created. -/
def Part.created (x : Part) (c : Claim) (key now : Nat) : Part :=
  { x with
    state := .running, pcur := c.shape, ctl := c.ctl, memr := c.memr, linkr := c.linkr, grant := c.grant
    ctxlen := Config.contextLength c.shape, gen := 0, ctxgen := x.ctxgen + 1, root := rootOf x.xroot, done := 0
    pend := false, inv := false, swp := false, raise := none, prqhead := 0, prqtail := 0, occlim := 0, occcnt := 0
    overrun := false, key := some key, rings := Vector.replicate 4 {}, axtbl := 0, tjtbl := 0, tjReload := []
    axReload := [], wdog := 0, nextLid := 1, nextEntry := 0, reread := now, haltTime := now, haltCycles := [] }

/-- DEDUCED, log entry 65. -/
def State.createPart (s : State) (p : Nat) (c : Claim) : State :=
  let s1 := (s.clearTags p none).clearStores p c.grant
  let s2 := s1.setPart p ((s1.part p).created c s1.nextKey s1.gtime)
  ({ s2.setFn (p + 1) {} with
     nextKey := s2.nextKey + 1
     l1cfg := s2.l1cfg.filter (fun k => k.1 % 64 != p) }).tableChange

/-- CREATE (R355). -/
def execCreate (p : Nat) (s : State) : Next :=
  .next (s.command p 1 [.free] (fun s =>
    let c := (s.part p).request
    let code := s.claimCode p c
    if code != 0 then s.endCommand p code else (s.createPart p c).endCommand p 0))

/-! ## The synchronised stop (R361–R364) -/

/-- A stop is agreed: G is the first multiple of 5 at least 150 ticks away. -/
def State.startStop (s : State) (p : Nat) (why : StopFor) : State :=
  s.modPart p (fun x => { x with stop := some { g := (s.gtime + 154) / 5 * 5, why := why } })

/-- STOP (R361). -/
def execStop (p : Nat) (s : State) : Next := .next (s.command p 4 [.running] (fun s => s.startStop p .stop))

/-- STOP_HALT: at tick G the partition's slots stop issuing (R361 step 2). DESIGN CHOICE, log entry 85. -/
def execStopHalt (p : Nat) (s : State) : Next :=
  .next (match (s.part p).stop with
  | some x =>
    if !x.halted && x.g ≤ s.gtime then
      s.modPart p (fun y => { y with
        stop := some { x with halted := true }, haltTime := x.g
        haltCycles := (List.range 320).map (fun q => (q, (s.clock q).at (224 * x.g))) })
    else s
  | none => s)

/-- A matrix queue's head has started and not finished (R266); one that posts its message waits for its class only. -/
def Queue.finishing (q : Queue) : Bool :=
  !q.posting && (match q.cmds with
    | c :: _ => c.state == .running || c.state == .ending
    | [] => false)

/-- Step 3 of R361 has ended: requests at slices, accepted ticket fetches and started matrix commands have finished, but for
those that wait for a page answer. DEDUCED, log entry 67. -/
def State.settled (s : State) (p : Nat) : Bool :=
  s.held.all (fun h => h.req.part != p || (match h.stage with
    | .faulted | .noEntry .. => true
    | _ => false)) &&
  s.tickets.all (fun t => !(t.part == p && t.fetching && (match t.pf with
    | .waiting _ => false
    | .failed .. => true
    | .clear => (s.freeFault t.slice).isSome))) &&
  s.swarms.all (fun w => w.part != p || w.done.isSome) &&
  s.slots.all (fun k => !(k.2.mtx.finishing && s.queuePart (k.1 / 16) (k.1 % 16) == p))

/-- A redemption that has not reached its slice is dropped, and its instruction is issued again (R116). DEDUCED, log entry 69. -/
def State.unsend (s : State) (k : Packet) : State :=
  match k.body with
  | .redeem r =>
    s.modThread r.tid (fun t =>
      if t.expect == some k.seq then { t with expect := none, stage := { t.stage with sent := false } } else t)
  | _ => s

/-- The packet is a redemption whose thread waits. DEDUCED, log entry 69. -/
def Packet.dropped (k : Packet) : Bool :=
  match k.body with
  | .redeem r => r.kind != .drop
  | _ => false

/-- The packets of a partition at some routers go to the save buffers (R361 step 4); one that has no credits yet stays at its
source (R362), but for a redemption that its thread issues again. DEDUCED, log entry 69. -/
def State.sweep (s : State) (p : Nat) (here : Nat → Bool) : State :=
  let mine (k : Packet) : Bool := k.part == p && here k.src && (k.dropped || s.granted k)
  let ks := s.net.filter mine
  let s1 := (ks.filter Packet.dropped).foldl State.unsend s
  { s1 with net := s1.net.filter (fun k => !mine k), swept := s1.swept ++ ks.filter (fun k => !k.dropped) }

/-- An access that a stop makes to write state back; one that faults writes nothing. DEDUCED, log entry 70. -/
def State.stopWrite (s : State) (e : Engine) (va n v : Nat) : State :=
  match s.codedWrite e va n v with
  | .ok s1 _ => s1
  | .block .. => s

/-- The RO fields of loaded stores and stacks are written back (R270, R71). DEDUCED, log entry 70. -/
def State.writeBackRo (s : State) (p : Nat) : State :=
  let eng (d st : Nat) : Engine :=
    { ag := .sluice p st, who := { die := d, core := 0x7FFF, slot := 0, agent := 4 }, p := p, core := coreAt 0 640 }
  let s0 := s.wbs.foldl State.landWb s
  let s1 := (s0.stores.filter (fun k => k.2.part == p && k.2.daddr != 0)).foldl
    (fun s k => s.stopWrite (eng (k.1 / 4) 0) (k.2.daddr + 64) 24 (k.2.image.toNat / 2 ^ 512 % 2 ^ 192)) s0
  (s1.stackTab.filter (fun k => k.1 / 16 == p && k.2.valid)).foldl
    (fun s k =>
      s.stopWrite (eng k.2.home (k.1 % 16)) (k.2.eaddr + 16) 16 { k.2 with wtop := s.wtopOf p (k.1 % 16) k.2 }.ro) s1

/-! ## Releasing resources (R358, R366) -/

/-- A partition's write-backs reach their targets. -/
def State.landPart (s : State) (p : Nat) : State := (s.wbs.filter (fun w => w.part == p)).foldl State.landWb s

/-- Everything that the machine holds for a partition beside its own record and the bytes of its banks is dropped. A saved
partition holds no slot (R366), whatever shape PCUR still names. -/
def State.dropPart (s : State) (p : Nat) : State :=
  let own (k : Nat) : Bool := (s.part p).state != .saved && s.ownsSlot p (k / 16) (k % 16)
  { s with
    thr := if s.thr.tid.part == p && s.thr.phase != .none then {} else s.thr
    threads := s.threads.filter (fun t => t.tid.part != p)
    slots := s.slots.filter (fun k => !own k.1), classes := s.classes.filter (fun k => !own k.1)
    live := s.live.filter (fun l => l.part != p)
    net := s.net.filter (fun k => k.part != p), swept := s.swept.filter (fun k => k.part != p)
    sectors := s.sectors.filter (fun c => c.asn != p), tc := s.tc.filter (fun e => e.asn != p)
    held := s.held.filter (fun h => h.req.part != p), faults := s.faults.filter (fun f => f.asn != p)
    faultWaits := s.faultWaits.filter (fun w => w.part != p), wayWaits := s.wayWaits.filter (fun w => w.part != p)
    tickets := s.tickets.filter (fun t => t.part != p), lost := s.lost.filter (fun k => k % 64 != p)
    bars := s.bars.filter (fun b => b.part != p), swarms := s.swarms.filter (fun w => w.part != p)
    launches := s.launches.filter (fun l => l.part != p)
    stores := s.stores.filter (fun k => k.2.part != p), comb := s.comb.filter (fun o => o.part != p)
    stackTab := s.stackTab.filter (fun k => k.1 / 16 != p), stackOps := s.stackOps.filter (fun o => o.part != p)
    l1 := s.l1.filter (fun l => l.part != p), l1cfg := s.l1cfg.filter (fun k => k.1 % 64 != p)
    ibuf := s.ibuf.filter (fun w => w.1 / 2 ^ 64 % 64 != p) }

/-! ## DESTROY (R358) -/

/-- The partition is gone: its key is destroyed, CTXGEN rises, and its function ends. DEDUCED, log entry 64. -/
def State.destroyPart (s : State) (p : Nat) : State :=
  let s1 := (s.landPart p).dropPart p
  let s2 := s1.modPart p (fun x => { x with
    state := .free, pcur := 0, grant := 0, ctxlen := 0, key := none, ctxgen := x.ctxgen + 1 })
  (s2.setFn (p + 1) {}).tableSince s

/-- DESTROY (R358). -/
def execDestroy (p : Nat) (s : State) : Next :=
  .next (s.command p 3 [.running, .stopped, .saved] (fun s =>
    if (s.part p).state == .running then s.startStop p .destroy else (s.destroyPart p).endCommand p 0))

/-! ## RESUME (R365) -/

/-- The FENCE at partition scope that a stopped thread is given (R298): its accumulator is attached and its seen signature
acquired. -/
def Thread.refence (t : Thread) : Thread :=
  { t with attach := t.acc ||| t.told, told := t.acc ||| t.told, acc := t.seen, seen := 0 }

def State.refence (s : State) (t : Thread) : State := (s.applySig t.core t.tid.part t.seen).modThread t.tid Thread.refence

/-- A launch whose counts leave out the stopped interval (R189, R312). -/
def Launch.resume (l : Launch) (halted : Table Nat) (cycles : Nat → Nat) (now : Nat) : Launch :=
  { l with mark := now
           origin := l.origin.map (fun qc => (qc.1, qc.2 + (cycles qc.1 - Table.getD halted qc.1 (cycles qc.1)))) }

/-- The partition goes on at this tick. DEDUCED, log entry 68. -/
def State.resumePart (s : State) (p : Nat) : State :=
  let x := s.part p
  let gap := s.gtime - x.haltTime
  let cyc (q : Nat) : Nat := s.cycles q
  let s1 : State := { s with
    net := s.net ++ s.swept.filter (fun k => k.part == p), swept := s.swept.filter (fun k => k.part != p)
    launches := s.launches.map (fun l => if l.part == p then l.resume x.haltCycles cyc s.gtime else l)
    tickets := s.tickets.map (fun (t : Ticket) => if t.part == p then { t with since := t.since + 224 * gap } else t) }
  let s2 := s1.mapThreads (fun t => if t.tid.part == p then { t with parkTime := t.parkTime + gap } else t)
  let s3 := (s2.allThreads.filter (fun t => t.tid.part == p && t.isLive && !t.travelling)).foldl State.refence s2
  let s4 := s3.modPart p (fun x => { x with state := .running, stop := none, reread := s.gtime })
  let s5 := (s4.held.filter (fun h => h.req.part == p && h.stage == .faulted && h.pf == .clear)).foldl State.rewalk s4
  (s5.flushRecords p).admitPass p

/-- RESUME: the cores resume together at an epoch tick, when PARTITION_COMMAND_ENDED ends the command (R365). -/
def execResume (p : Nat) (s : State) : Next :=
  .next (s.command p 5 [.stopped] (fun s => s.modPart p (fun x => { x with working := some 5, back := true })))

/-! ## RESHAPE (R356, R357) -/

/-- The region of a shape contains that of another. -/
def regionIn (a b : DWord) : Bool :=
  shQx b ≤ shQx a && shQx a + shQw a ≤ shQx b + shQw b && shQy b ≤ shQy a && shQy a + shQh a ≤ shQy b + shQh b

/-- A change from a to b only grows. -/
def grows (a b : DWord) : Bool :=
  regionIn a b && Nat.land (shSlots a) (shSlots b) == shSlots a && shFlog a ≤ shFlog b

/-- Two shapes have the same region. -/
def sameRegion (a b : DWord) : Bool := regionIn a b && regionIn b a

/-- A launch's pairs, on the cores where they are under shape a, all lie in shape b. -/
def Launch.stays (l : Launch) (a b : DWord) : Bool :=
  let x := 32 * shQx a + l.rx
  let y := 40 * shQy a + l.ry
  Nat.land l.slots (shSlots b) == l.slots && 32 * shQx b ≤ x && x + l.rw ≤ 32 * (shQx b + shQw b) && 40 * shQy b ≤ y
    && y + l.rh ≤ 40 * (shQy b + shQh b)

/-- A waiting launch fits a partition of a shape. -/
def Launch.fits (l : Launch) (b : DWord) : Bool :=
  Nat.land l.slots (shSlots b) == l.slots && l.rx + l.rw ≤ 32 * shQw b && l.ry + l.rh ≤ 40 * shQh b

/-- A visitor holds a pair that shape b does not. DEDUCED, log entry 73. -/
def Thread.visitsRemoved (t : Thread) (b : DWord) : Bool :=
  t.phase != .none && t.home.isSome && !t.travelling &&
  (List.range 16).any (fun k => t.ownsHere k && !(natBit (shSlots b) k && shHasQuad b (quadOf t.core)))

/-- A travelling thread goes to a core that is not in shape b. -/
def State.travelsOut (s : State) (p lid : Nat) (b : DWord) : Bool :=
  (s.net ++ s.swept).any (fun k => match k.body with
    | .travel v => v.tid.part == p && v.tid.lid == lid && !shHasQuad b (quadOf v.core)
    | _ => false)

/-- A launch that a shrink from a to b retires (R357). -/
def State.resized (s : State) (l : Launch) (a b : DWord) : Bool :=
  if l.holds then
    !l.stays a b || (s.launchThreads l.part l.lid).any (fun t => t.visitsRemoved b) || s.travelsOut l.part l.lid b
  else l.phase == .waiting && !l.fits b

/-- The message that an engine's queue has on its way is no longer awaited by it. -/
def State.disown (s : State) (core slot : Nat) (mtx : Bool) : State :=
  let f (m : MsgPkt) : MsgPkt := if m.sender == .engine core slot mtx then { m with sender := .sequencer } else m
  let g (k : Packet) : Packet := match k.body with
    | .msg m => { k with body := .msg (f m) }
    | _ => k
  { s with net := s.net.map g, swept := s.swept.map g
           classes := s.classes.map (fun k => (k.1, { k.2 with waiting := k.2.waiting.map f })) }

/-- The command at the head of a queue completes with a code, at once: its writes, its release and its message (R127). -/
def State.abortHead (s : State) (p core slot : Nat) (mtx : Bool) (code : Nat) : State :=
  match (s.queueAt core slot mtx).cmds with
  | [] => s
  | c0 :: _ =>
    let posted := (s.queueAt core slot mtx).posting
    let c : Cmd := { c0 with code := code }
    let s0 := ((s.disown core slot mtx).writeTile p core c0).modHead core slot mtx (fun _ => c)
    let (s1, ns) := if c.release && c.wbs.isNone then s0.writeOut p (if c.sc < 7 then s0.scope p c.sc else 0) c.sig
      else (s0, c.wbs.getD [])
    let s2 := (s1.wbs.filter (fun w => ns.contains w.n)).foldl State.landWb s1
    let m : Msg := { w0 := c.word0 slot, w1 := statusWord 2 c.code c.flags c.first
                     w2 := match c.first with
                       | some i => BitVec.ofNat 32 i
                       | none => 0xFFFFFFFF
                     sig := c.sig }
    let s3 := if c.notify && !posted && s2.ownsSlot p core c.cls then
        s2.send p core (.msg { core := core, cls := c.cls, msg := m, sender := .sequencer })
      else s2
    s3.finishCmd core slot mtx

/-- Commands of a queue complete with ABORTED one after the other. -/
def State.abortAll (s : State) (p core slot : Nat) (mtx : Bool) (n : Nat) : State :=
  match n with
  | 0 => s
  | k + 1 => State.abortAll (s.abortHead p core slot mtx 7) p core slot mtx k

/-- A queue of a thread whose launch retires with RESIZED: a command that has ended completes as it is, a running copy command
completes with ABORTED and queued ones are discarded, and queued matrix commands complete with ABORTED (R129, R266, R357).
DEDUCED, log entry 73. -/
def State.abortQueue (s : State) (p core slot : Nat) (mtx : Bool) : State :=
  let s := s.dropWaits (.engine core slot mtx)
  let s1 := match (s.queueAt core slot mtx).cmds with
    | (c : Cmd) :: _ =>
      if c.state == CmdState.ending then s.abortHead p core slot mtx c.code
      else if c.state == CmdState.running && !mtx then s.abortHead p core slot mtx 7 else s
    | [] => s
  if mtx then s1.abortAll p core slot true (s1.queueAt core slot true).cmds.length
  else s1.setQueueAt core slot false { s1.queueAt core slot false with cmds := [] }

/-- The queues of a thread are aborted, and their errors posted (R347). DEDUCED, log entry 73. -/
def State.abortThread (s : State) (t : Thread) : State :=
  let s1 := t.queues.foldl (fun s cs =>
    (s.abortQueue t.tid.part cs.1 cs.2 false).abortQueue t.tid.part cs.1 cs.2 true) s
  t.queues.foldl (fun s cs => s.undelivered { t with core := cs.1, slot := cs.2 }) s1

/-- The requests and operations of ended threads leave; linearised ones go on (R92). -/
def State.leave (s : State) (p lid : Nat) : State :=
  let of (t : Tid) : Bool := t.part == p && t.lid == lid
  { s with
    held := s.held.filter (fun h => !of h.req.tid)
    comb := s.comb.filter (fun o => !(of o.tid && !o.linearised)), stackOps := s.stackOps.filter (fun o => !of o.tid)
    swept := s.swept.filter (fun k => match k.body with
      | .travel v => !of v.tid
      | _ => true) }

/-- The RDMS bytes of a launch that are under way reach their cores: it does not retire before (R115). -/
def State.deliverRdms (s : State) (p lid : Nat) : State :=
  let mine (k : Packet) : Bool := match k.body with
    | .rdms t .. => t.part == p && t.lid == lid
    | _ => false
  ((s.net ++ s.swept).filter mine).foldl State.landRdms { s with swept := s.swept.filter (fun k => !mine k) }

/-- The redemptions of a launch's threads that wait for a fetch end with the launch: their entries expire (R117, R357).
DEDUCED, log entry 73. -/
def State.dropClaims (s : State) (p lid : Nat) : State :=
  (s.tickets.filter (fun t => !t.delivering && (match t.claim with
    | some (r, _) => r.tid.part == p && r.tid.lid == lid
    | none => false))).foldl (fun s t => s.bury t .expired) s

/-- A launch retires with status RESIZED (R315, R357), after its RDMS deliveries (R115). -/
def State.retireResized (s : State) (l : Launch) : State :=
  let s0 := (s.deliverRdms l.part l.lid).dropClaims l.part l.lid
  let s1 := (s0.launchThreads l.part l.lid).foldl State.abortThread s0
  ((s1.clearLaunch l.part l.lid).leave l.part l.lid).modLaunch l.part l.lid (fun l =>
    { l with phase := .doneDue, status := 1, pf := .clear, pf1 := .clear })

/-- A launch that keeps its cores while the region's origin moves from shape a's to shape b's. DEDUCED, log entry 73. -/
def Launch.shift (l : Launch) (a b : DWord) : Launch :=
  let rx := 32 * shQx a + l.rx - 32 * shQx b
  let ry := 40 * shQy a + l.ry - 40 * shQy b
  let d := l.desc.toNat
  if l.holds then
    { l with desc := BitVec.ofNat 1024 (d % 2 ^ 300 + ry % 2 ^ 10 * 2 ^ 300 + rx % 2 ^ 10 * 2 ^ 310 + d / 2 ^ 320 * 2 ^ 320) }
  else l

/-- What removed slots held is discarded, and the bits of their banks in L1CFG read as zero (R145); messages that waited for a
class there are on their way again. -/
def State.dropSlots (s : State) (p : Nat) (a b : DWord) : State :=
  let gone (k : Nat) : Bool := natBit (shSlots a) (k % 16) && shHasQuad a (quadOf (k / 16)) &&
    !(natBit (shSlots b) (k % 16) && shHasQuad b (quadOf (k / 16)))
  let again := (s.classes.filter (fun k => gone k.1)).flatMap (fun k => k.2.waiting.map (fun m => (k.1 / 16, m)))
  let s1 := again.foldl (fun s m => s.send p m.1 (.msg m.2)) s
  { s1 with
    slots := s1.slots.filter (fun k => !gone k.1), classes := s1.classes.filter (fun k => !gone k.1)
    l1 := s1.l1.filter (fun l => l.part != p || (shHasQuad b (quadOf l.core) && shSlots a == shSlots b))
    l1cfg := (s1.l1cfg.filter (fun k => k.1 % 64 != p || shHasQuad b (quadOf (k.1 / 64)))).map (fun k =>
      if k.1 % 64 == p then (k.1, k.2 &&& BitVec.ofNat 16 (shSlots b)) else k)
    ibuf := s1.ibuf.filter (fun w => w.1 / 2 ^ 64 % 64 != p || shHasQuad b (quadOf (w.1 / 2 ^ 70))) }

/-- The partition's sectors are written back and invalidated (R95); whether any held a signature. DEDUCED, log entry 71. -/
def State.flushSectors (s : State) (p : Nat) : State × Bool :=
  let cs := s.sectors.filter (fun c => c.asn == p)
  (cs.foldl (fun s c => (s.cleanNow c).removeSector c) (s.landPart p),
   cs.any (fun c => c.sig != 0) || s.lost.any (fun k => k % 64 == p))

/-- The packet's slice under the present slice set. DEDUCED, log entry 71. -/
def State.rehome (s : State) (k : Packet) : Packet :=
  match k.body with
  | .slice r => { k with body := .slice { r with dst := s.sliceOf r.part r.va } }
  | .tkFetch r => { k with body := .tkFetch { r with slice := shSlice (s.shape r.part) (tkIndex r.ticket), refused := false } }
  | .redeem r => { k with body := .redeem { r with slice := shSlice (s.shape r.part) (tkIndex r.ticket) } }
  | _ => k

/-- A fetch or a drop whose ticket has no slice any more. DEDUCED, log entry 72. -/
def State.homeless (s : State) (k : Packet) : Bool :=
  match k.body with
  | .tkFetch r => shSlices (s.shape r.part) ≤ tkIndex r.ticket
  | .redeem r => shSlices (s.shape r.part) ≤ tkIndex r.ticket
  | _ => false

/-- A ticket fetch that has no slice any more expires as it is: its core is told of its service and of its end. DEDUCED, log entry 72. -/
def State.expireFetch (s : State) (k : Packet) : State :=
  match k.body with
  | .tkFetch r => (s.send r.part k.src (.served r.tid)).send r.part k.src (.retire r.ticket)
  | _ => s

/-- A ticket entry moves to the slice of its index, whatever stands there, or expires and stays at that of index 0 (R117); a redemption
that waits for it then traps. DEDUCED, log entry 72. DESIGN CHOICE, log entry 128. -/
def State.moveTicket (s : State) (t : Ticket) : State :=
  let sh := s.shape t.part
  if tkIndex t.val < shSlices sh then s.modTicket t.n (fun x => { x with slice := shSlice sh (tkIndex t.val) })
  else
    let u := { t with slice := shSlice sh 0 }
    let s1 := if t.state == .spent || t.state == .expired then s.modTicket t.n (fun _ => { u with state := .expired })
      else s.bury u .expired
    match t.claim with
    | some (r, seq) => if t.delivering then s1 else s1.refuseRedeem r seq 0x08 t.val.toNat
    | none => s1

/-- The slice set has changed: tickets, requests and packets go to the slices of the new set (R95, R117). DEDUCED, log entry 71. -/
def State.moveSlices (s : State) (p : Nat) (sig : Bool) : State :=
  let s1 := (s.tickets.filter (fun t => t.part == p)).foldl State.moveTicket s
  let s2 := ((s1.net ++ s1.swept).filter (fun k => k.part == p && s1.homeless k)).foldl State.expireFetch s1
  let moved (ks : List Packet) : List Packet :=
    (ks.filter (fun k => !(k.part == p && s2.homeless k))).map (fun k => if k.part == p then s2.rehome k else k)
  { s2 with
    net := moved s2.net, swept := moved s2.swept
    held := s2.held.map (fun (h : Held) =>
      if h.req.part == p then { h with req := { h.req with dst := s2.sliceOf p h.req.va }, evict := none } else h)
    faultWaits := s2.faultWaits.map (fun w => if w.part == p then { w with slice := s2.sliceOf p (4096 * w.page) } else w)
    wayWaits := s2.wayWaits.filter (fun w => w.part != p)
    tc := s2.tc.filter (fun e => e.asn != p)
    lost := s2.lost.filter (fun k => k % 64 != p) ++ (if sig then (s2.slicesOf p).map (fun j => 64 * j + p) else []) }

/-- The partition takes the shape and the limits that its command read. DEDUCED, log entry 66. -/
def Part.take (x : Part) (c : Claim) : Part :=
  { x with pcur := c.shape, ctl := c.ctl, memr := c.memr, linkr := c.linkr, grant := c.grant
           ctxlen := Config.contextLength c.shape }

/-- RESHAPE's work (R356, R357), of a stopped partition or of one whose region does not change. -/
def State.reshapePart (s : State) (p : Nat) (c : Claim) : State :=
  let a := s.shape p
  let b := c.shape
  let s1 := (s.launches.filter (fun l => l.part == p && s.resized l a b)).foldl State.retireResized s
  let s2 := s1.dropSlots p a b
  let moved := !sameRegion a b
  let (s3, sig) := if moved then s2.flushSectors p else (s2, false)
  let s4 := ((s3.clearTags p (some a)).clearStores p c.grant).modPart p (fun x => x.take c)
  let s5 : State := { s4 with launches := s4.launches.map (fun l => if l.part == p then l.shift a b else l) }
  (if moved then s5.moveSlices p sig else s5).tableSince s

/-- RESHAPE (R356). -/
def execReshape (p : Nat) (s : State) : Next :=
  .next (s.command p 2 [.running, .stopped] (fun s =>
    let x := s.part p
    let c := x.request
    let up := grows x.pcur c.shape
    let down := grows c.shape x.pcur
    let code := if !shapeOk c.shape || !(up || down) then 2 else s.claimCode p c
    if code != 0 then s.endCommand p code
    else if x.state == .running && !(up && sameRegion x.pcur c.shape) then
      (s.modPart p (fun x => { x with claim := some c })).startStop p .reshape
    else
      let s1 := (s.reshapePart p c).endCommand p 0
      if x.state == .running then s1.admitPass p else s1))

/-! ## SAVE (R366) -/

/-- The image area of a claim: in host memory or in device memory, its base, and its length. -/
def Claim.host (c : Claim) : Bool := c.area.getLsbD 63
def Claim.base (c : Claim) : Nat := bitsOf c.area 0 63

/-- The area's alignment, range and length are right (R354). -/
def Claim.areaOk (c : Claim) (len : Nat) : Bool :=
  c.base % 4096 == 0 && (c.host || (populated c.base && c.base % 2 ^ 37 + len ≤ tierLength (c.base / 2 ^ 37 % 2)))

/-- What SAVE writes: everything that a partition's shape holds (R366). DESIGN CHOICE, log entry 10. DEDUCED, log entry 75. -/
def State.imageOf (s : State) (p : Nat) : Image :=
  let x := s.part p
  let own (k : Nat) : Bool := s.ownsSlot p (k / 16) (k % 16)
  let banks := (s.tags.filter (fun t => t.2 == p && own t.1)).map (·.1)
  { n := s.fresh, units := (x.ctxlen.toNat + 31) / 32, part := p, ctxgen := x.ctxgen, shape := x.pcur
    launches := s.launches.filter (fun l => l.part == p), nextLid := x.nextLid, nextEntry := x.nextEntry
    threads := s.allThreads.filter (fun t => t.phase != .none && t.tid.part == p)
    slots := s.slots.filter (fun k => own k.1), classes := s.classes.filter (fun k => own k.1)
    banks := s.sram.filter (fun m => banks.contains (m.1 / 4096)), tags := banks
    sramPois := s.sramPois.filter (fun w => banks.contains (w / 4096))
    live := s.live.filter (fun l => l.part == p), packets := (s.swept ++ s.net).filter (fun k => k.part == p)
    held := (s.held.filter (fun h => h.req.part == p)).map (fun h => { h with evict := none })
    faults := s.faults.filter (fun f => f.asn == p), tickets := s.tickets.filter (fun t => t.part == p), bars := s.bars.filter (fun b => b.part == p)
    lost := s.lost.filter (fun k => k % 64 == p), comb := s.comb.filter (fun o => o.part == p)
    stackOps := s.stackOps.filter (fun o => o.part == p)
    stores := (s.stores.filter (fun k => k.2.part == p)).map (fun k => (k.1, k.2.broken)) ++ x.tjReload
    stackTab := (s.stackTab.filter (fun k => k.1 / 16 == p)).map
      (fun k => ({ stack := k.1 % 16, home := k.2.home, job := k.2.job } : AxLoad)) ++ x.axReload
    swarms := s.swarms.filter (fun w => w.part == p), l1cfg := s.l1cfg.filter (fun k => k.1 % 64 == p)
    savedAt := x.haltTime, savedCycles := x.haltCycles }

/-- The pages of an image area, which is written and read under the partition's key (R69, R366). -/
def Claim.leaf (c : Claim) : Leaf := { tgt := if c.host then 1 else 0, enc := true }

/-- Write the first n units of an image to the area. DESIGN CHOICE, log entry 10. -/
def State.writeImage (s : State) (p : Nat) (c : Claim) (image n : Nat) : State :=
  match n with
  | 0 => s
  | k + 1 => (State.writeImage s p c image k).targetWrite p c.leaf (c.base + 32 * k) (Config.imageUnit image k) false

/-- A host unit of the area answers a read or a write with an error completion (R354). -/
def State.areaError (s : State) (c : Claim) (write : Bool) (units : Nat) : Bool :=
  c.host && (List.range units).any (fun i => s.hostErr.contains (write, c.base / 32 + i))

/-- SAVE's image is written: the partition's sectors are written back first. DESIGN CHOICE, log entry 10. -/
def State.putImage (s : State) (p : Nat) (c : Claim) : State × Image :=
  let (s1, _) := s.flushSectors p
  let m := s1.imageOf p
  (s1.tick.writeImage p c m.n m.units, m)

/-- The partition is saved: its image has been written, and its resources are released. -/
def State.savePart (s : State) (p : Nat) (m : Image) : State :=
  let s1 := s.dropPart p
  ({ s1 with images := m :: s1.images }.modPart p (fun x => { x with state := .saved })).tableChange

/-- SAVE (R366). -/
def execSave (p : Nat) (s : State) : Next :=
  .next (s.command p 6 [.running, .stopped] (fun s =>
    let x := s.part p
    let c : Claim := { x.request with shape := x.pcur, grant := x.grant }
    if !c.areaOk x.ctxlen.toNat then s.endCommand p 7
    else
      let s1 := s.modPart p (fun x => { x with claim := some c })
      if x.state == .running then s1.startStop p .save else s1.modPart p (fun x => { x with working := some 6 })))

/-! ## RESTORE (R367, R368) -/

/-- RESTORE (R367): its area and its claim are checked before it starts. DEDUCED, log entry 75. -/
def execRestore (p : Nat) (s : State) : Next :=
  .next (s.command p 7 [.saved] (fun s =>
    let x := s.part p
    let c : Claim := { x.request with grant := x.grant }
    if !c.areaOk (Config.contextLength c.shape).toNat then s.endCommand p 7
    else
      let code := s.claimCode p c
      if code != 0 then s.endCommand p code
      else s.modPart p (fun x => { x with claim := some c, working := some 7 })))

/-- Unit i of an image stands in the area, without poison. -/
def State.unitKept (s : State) (p : Nat) (c : Claim) (m : Image) (i : Nat) : Bool :=
  s.targetRead p c.leaf (c.base + 32 * i) == (Config.imageUnit m.n i, false)

/-- The records of an image that a test names stand in the area whole: their digests do not fail (R366, R368). -/
def State.recordsKept (s : State) (p : Nat) (c : Claim) (m : Image) (which : Nat → Bool) : Bool :=
  (List.range m.units).all (fun i => !which (Config.imageRecord m.n i) || s.unitKept p c m i)

/-- The image at an area can be restored: its header stands there, and its partition, CTXGEN and shape are the right ones (R368). -/
def State.imageFits (s : State) (p : Nat) (c : Claim) (m : Image) : Bool :=
  m.part == p && m.ctxgen == (s.part p).ctxgen && m.shape == c.shape && s.recordsKept p c m (· == 0)

/-- The threads of an image whose slot record is damaged or poisoned (R344). -/
def State.lostThreads (s : State) (p : Nat) (c : Claim) (m : Image) : List Thread :=
  (m.threads.zip (List.range m.threads.length)).filterMap (fun x =>
    if s.recordsKept p c m (· == x.2 + 1) then none else some x.1)

/-- The fault entries of an image are open again (R93); an entry's place at its slice is free for it or another is taken. Where all 64
are in use it is a further one under its index. DESIGN CHOICE, log entry 126. -/
def State.rearm (s : State) (f : FaultEntry) : State :=
  let taken := s.faults.any (fun g => g.slice == f.slice && g.index == f.index)
  let i := if taken then (s.freeFault f.slice).getD f.index else f.index
  { s with faults := s.faults ++ [{ f with index := i }] }

/-- The restored requests that wait for a fault entry, in their order of arrival (R90, R93). -/
def Image.faultWaits (m : Image) : List FaultWait :=
  m.held.filterMap (fun h => match h.stage with
    | .noEntry .. => some { slice := h.req.dst, part := m.part, page := h.req.va / 4096, acc := h.req.op.accClass, agent := .held h.seq }
    | _ => none)

/-- The partition's state as its image holds it; its ticket entries stand at their slices whatever else is there (R116).
DESIGN CHOICE, log entry 10. DEDUCED, log entry 43. DEDUCED, log entry 49. DEDUCED, log entry 75. DESIGN CHOICE, log entry 128.
-/
def State.restorePart (s : State) (p : Nat) (c : Claim) (m : Image) : State :=
  let put {α : Type} (t u : Table α) : Table α := u.foldl (fun t k => Table.set t k.1 k.2) t
  let s0 := s.clearTags p none
  let sram := m.tags.foldl (fun r b => Memory.clear r (4096 * b) 4096) s0.sram
  let s1 := { s0 with
    launches := s0.launches ++ m.launches, threads := s0.threads ++ m.threads
    slots := put s0.slots m.slots, classes := put s0.classes m.classes
    tags := m.tags.foldl (fun t b => Table.set t b p) s0.tags
    sram := m.banks.foldl (fun r k => Memory.write r k.1 k.2) sram
    sramPois := s0.sramPois.filter (fun w => !m.tags.contains (w / 4096)) ++ m.sramPois
    live := s0.live ++ m.live, swept := s0.swept ++ m.packets, held := s0.held ++ m.held
    faultWaits := s0.faultWaits ++ m.faultWaits
    tickets := s0.tickets ++ m.tickets, bars := s0.bars ++ m.bars, lost := s0.lost ++ m.lost
    comb := s0.comb ++ m.comb, stackOps := s0.stackOps ++ m.stackOps, swarms := s0.swarms ++ m.swarms
    l1cfg := put s0.l1cfg m.l1cfg }
  let s2 := m.faults.foldl State.rearm s1
  (s2.modPart p (fun x => { x with
    state := .stopped, pcur := c.shape, ctxlen := Config.contextLength c.shape, nextLid := m.nextLid, nextEntry := m.nextEntry
    tjReload := m.stores, axReload := m.stackTab, haltTime := m.savedAt, haltCycles := m.savedCycles })).tableChange

/-- A thread whose slot record was damaged has its dispatch values and traps CONTEXT before its first instruction (R344).
DESIGN CHOICE, log entry 74. -/
def State.contextLost (s : State) (tid : Tid) : State :=
  match s.thread? tid, s.launch? tid.part tid.lid with
  | some t, some l =>
    let (core, slot) := match t.home with
      | some h => (h.core, h.slot)
      | none => (t.core, t.slot)
    if !l.holds then s else
    let s1 := (s.modThread tid (fun _ => s.newThread l core slot tid.idx)).focus tid
    s1.trapWith 0x19 0 s1.thr.pc 0 true
  | _, _ => s

/-- A unit of a bank's or a ticket entry's record that does not stand in the area whole: the bank holds what the unit holds, poisoned
words if it is poisoned, and the ticket takes its poison (R348, R368). DESIGN CHOICE, log entry 74. -/
def State.restoreUnit (s : State) (p : Nat) (c : Claim) (m : Image) (i : Nat) : State :=
  let (x, pois) := s.targetRead p c.leaf (c.base + 32 * i)
  let k := Config.imageRecord m.n i - 1 - m.threads.length
  match m.tags[k]?, m.tickets[k - m.tags.length]? with
  | some b, _ =>
    let a := 4096 * b + 32 * (Config.imagePlace m.n i % 128)
    if pois then { s with sramPois := s.sramPois ++ ((List.range 8).map (fun j => a + 4 * j)).filter (fun w => !s.sramPois.contains w) }
    else { s with sram := ((span a 32).zip (lineBytes (Config.imageBytes m.n i x))).foldl (fun r y => Memory.write r y.1 y.2) s.sram }
  | none, some t =>
    if pois then s.modTicket t.n (fun t => if t.data.isEmpty then t else { t with pois := true }) else s
  | none, none => s

/-- The records other than the header and the slot records are restored, whatever has become of their units (R368). -/
def State.restoreRest (s : State) (p : Nat) (c : Claim) (m : Image) : State :=
  ((List.range m.units).filter (fun i => m.threads.length < Config.imageRecord m.n i && !s.unitKept p c m i)).foldl
    (fun s i => s.restoreUnit p c m i) s

/-- RESTORE's end: the image that stands in the area is refused with CONTEXT, or the partition is put back, stopped; each thread
whose slot record is damaged starts as R344 says. DESIGN CHOICE, log entry 74. -/
def State.endRestore (s : State) (p : Nat) (c : Claim) : State :=
  if s.areaError c false ((Config.contextLength c.shape).toNat / 32) then s.endCommand p 7
  else match s.images.find? (s.imageFits p c) with
  | none => s.tick.endCommand p 6
  | some m =>
    ((s.lostThreads p c m).foldl (fun s t => s.contextLost t.tid) ((s.tick.restorePart p c m).restoreRest p c m)).endCommand p 0

/-! ## Ends (R353, R361) -/

/-- Step 5 of R361, and then the command's own work. DEDUCED, log entry 67. -/
def State.recordStop (s : State) (p : Nat) (x : StopAt) : State :=
  let s0 := s.writeBackRo p
  let s1 : State := { s0 with launches := s0.launches.map (fun l => if l.part == p then l.settle x.g else l) }
  let s2 := s1.modPart p (fun y => { y with state := .stopped, stopt := BitVec.ofNat 64 x.g, stop := none })
  match x.why with
  | .stop => s2.endCommand p 0
  | .destroy => (s2.destroyPart p).endCommand p 0
  | .save => s2.modPart p (fun y => { y with working := some 6, back := true })
  | .reshape =>
    let s3 := match (s2.part p).claim with
      | some c => (s2.reshapePart p c).sweep p (fun _ => true)
      | none => s2
    s3.modPart p (fun y => { y with working := some 2, back := true })

/-- FLUSH_TOKEN: router (x, y) has a partition's tokens on every input and saves its packets (R361 step 4); it waits while
another stop uses its save buffer (R362). The stop is recorded once no packet is left in the mesh. DEDUCED, log entry 67. -/
def execFlushToken (p x y : Nat) (s : State) : Next :=
  .next (match (s.part p).stop with
  | some a =>
    let r := coreAt x y
    if a.halted && s.settled p && x < 640 && y < 640 && !s.swept.any (fun k => k.part != p && k.src == r) then
      let s1 := s.sweep p (fun c => c == r)
      if s1.net.any (fun k => k.part == p && (k.dropped || s1.granted k)) then s1 else s1.recordStop p a
    else s
  | none => s)

/-- The partition may resume: an epoch tick begins, and every quad of each FIXED launch that holds slots is pinned (R328,
R333, R365). -/
def State.mayResume (s : State) (p : Nat) : Bool :=
  s.epoch && s.launches.all (fun l => !(l.part == p && l.holds && l.fixed) ||
    (s.launchQuads l).all (fun q => (s.clock q).pinned))

/-- The command ends, at an epoch tick if the partition resumes with it. DEDUCED, log entry 68. -/
def State.endBack (s : State) (p code : Nat) : State :=
  if (s.part p).back then (if s.mayResume p then (s.resumePart p).endCommand p code else s)
  else s.endCommand p code

/-- PARTITION_COMMAND_ENDED: the work of a command that took time ends; err says that its image area answered with an error
(R353, R354). DEDUCED, log entry 68. -/
def execPartitionCommandEnded (p : Nat) (err : Bool) (s : State) : Next :=
  .next (match (s.part p).working, (s.part p).claim with
  | some 5, _ => s.endBack p 0
  | some 2, _ => s.endBack p 0
  | some 6, some c =>
    let (s1, m) := s.putImage p c
    if s.areaError c true m.units then (if (s.part p).back && !s.mayResume p then s else s1.endBack p 7)
    else if err then s.endBack p 7
    else (s1.savePart p m).endCommand p 0
  | some 7, some c => if err then s.endCommand p 7 else s.endRestore p c
  | _, _ => s)

end Sys2Proof.Machine
end

