-- ==== Sys2Proof/Machine/Host.lean ====
section
/-! DEFINITION. The host's side: register writes (R85, R101, R352, R370, R375, R376, R380), events and function-level resets
(R370–R374), CXL.mem and snoops (R369), the swarm links (R375, R376) and JTAG (R377). -/

namespace Sys2Proof.Machine

/-! ## Functions (R369, R370) -/

/-- A function exists: PF0, or the function of a partition that is not FREE. -/
def State.fnExists (s : State) (fn : Nat) : Bool := fn == 0 || (fn ≤ 64 && (s.part (fn - 1)).state != .free)

/-- Partition p's function exists. -/
def State.vfExists (s : State) (p : Nat) : Bool := p < 64 && s.fnExists (p + 1)

/-- TAIL − HEAD, modulo 2^16, is more than the ring holds (R371). DEDUCED, log entry 77. -/
def Ring.excess (x : Ring) : Bool := 2 ^ x.log < (x.tail + 2 ^ 16 - x.head) % 2 ^ 16

/-- TAIL: the write index and LOG of a ring, an acquire at system scope (R370, R371). DEDUCED, log entry 77. -/
def execTail (p r : Nat) (v : BitVec 64) (s : State) : Next :=
  .next (if !s.vfExists p || 4 ≤ r then s
  else
    let s1 := (s.modRing p r (fun x => { x with tail := bitsOf v 32 16, log := bitsOf v 16 4 })).dropClean p
    match ((s1.part p).rings.toList)[r]? with
    | some x =>
      let s2 := s1.modRing p r (fun y => { y with overrun := x.excess })
      if x.excess then (s2.dropWaits (.ring p r)).setFn (p + 1) { s2.fn (p + 1) with rerr := true } else s2
    | none => s1)

/-- EVHEAD: the read index and EVLOG; the outstanding message is over and held records are written (R373). -/
def execEvhead (fn : Nat) (v : BitVec 64) (s : State) : Next :=
  .next (if !s.fnExists fn then s
  else
    let f := { s.fn fn with evhead := bitsOf v 32 12, evlog := bitsOf v 0 4, outstanding := false }
    (s.setFn fn f).drainEvents fn f.backlog)

/-- EVBASE: held records are written once the ring is usable (R373). -/
def execEvbase (fn : Nat) (v : BitVec 64) (s : State) : Next :=
  .next (if !s.fnExists fn then s
  else
    let f := { s.fn fn with evbase := v }
    (s.setFn fn f).drainEvents fn f.backlog)

/-- AXTBL: the loaded stacks and their frames are discarded (R72). -/
def execAxtbl (p : Nat) (v : BitVec 64) (s : State) : Next :=
  .next (if !s.vfExists p then s
  else ({ (List.range 16).foldl (fun (s : State) st => s.framesGone p st 0) s with
            stackTab := s.stackTab.filter (fun k => k.1 / 16 != p) }).modPart p (fun x =>
    { x with axtbl := v, axReload := [] }))

/-- TJTBL: every store of the partition is unloaded (R269). -/
def execTjtbl (p : Nat) (v : BitVec 64) (s : State) : Next :=
  .next (if !s.vfExists p then s
  else ({ s with stores := s.stores.filter (fun k => k.2.part != p) }).modPart p (fun x =>
    { x with tjtbl := v, tjReload := [] }))

/-- CLR: writing 1 clears the counts of a die (R349). -/
def execClr (die : Nat) (v : BitVec 64) (s : State) : Next :=
  .next (if v.getLsbD 0 then { s with errs := Table.erase s.errs die } else s)

/-! ## Registers without behaviour of their own -/

/-- A value with only some of its bits. -/
def keep (v : DWord) (mask : Nat) : DWord := v &&& BitVec.ofNat 64 mask

/-- The translation block of partition p (R85); PRQBASE keeps all its bits. DESIGN CHOICE, log entry 99. -/
def Part.writeXlate (x : Part) (off : Nat) (v : DWord) : Part :=
  match off with
  | 0x00 => { x with xroot := keep v 0x3FFFFF00000 }
  | 0x20 => { x with prqbase := v }
  | _ => x

/-- The occupancy block (R101). -/
def Part.writeOcc (x : Part) (off : Nat) (v : DWord) : Part :=
  if off = 0 then { x with occlim := bitsOf v 0 21 } else x

/-- PCTL as it stores: a MAXS other than 6 and 4 becomes 6 (R352). DESIGN CHOICE, log entry 89. -/
def pctlStored (v : DWord) : DWord :=
  let m := bitsOf v 0 3
  keep v 0xFFFF0000 ||| BitVec.ofNat 64 (if m = 4 then 4 else 6)

/-- The partition block (R352). -/
def Part.writeBlock (x : Part) (off : Nat) (v : DWord) : Part :=
  match off with
  | 0x00 => { x with pshape := keep v 0xFFFFFFF1FF }
  | 0x08 => { x with pctl := pctlStored v }
  | 0x10 => { x with pmem := keep v 0xFFFF0000FFFF }
  | 0x18 => { x with plink := keep v 0xFFFF0000FFFF }
  | 0x20 => { x with pgrant := v }
  | 0x40 => { x with pctx := v }
  | _ => x

/-- The event status of a function: RERR and OVF clear where 1 is written (R370). -/
def Fn.writeStat (f : Fn) (v : DWord) : Fn :=
  { f with rerr := f.rerr && !v.getLsbD 5, ovf := f.ovf && !v.getLsbD 4 }

/-- The register page of partition p's function (R370). -/
def State.writeVf (s : State) (p off : Nat) (v : DWord) : State :=
  if off % 16 = 0 && off < 0x40 then (s.dropWaits (.ring p (off / 16))).modRing p (off / 16) (fun x => { x with base := v })
  else if off = 0x58 then s.setFn (p + 1) ((s.fn (p + 1)).writeStat v)
  else if off = 0x70 then s.modPart p (fun x => { x with wdog := v.setWidth 32 })
  else s

/-- A doubleword of an inbound window; its reserved bits stay zero (R376). -/
def windowWrite (w : Line) (off : Nat) (v : DWord) : Line :=
  let i := off / 8 % 4
  let m : Nat := match i with
    | 0 => 0x3FFFFFFFFFF
    | 1 => 0x3FFFF000000
    | _ => 0
  (w &&& ~~~((BitVec.allOnes 64).setWidth 256 <<< (64 * i))) ||| ((keep v m).setWidth 256 <<< (64 * i))

/-- The management block (R380). -/
def Mgmt.writeBlock (m : Mgmt) (off : Nat) (v : DWord) : Mgmt :=
  match off with
  | 0x10 => { m with fwaddr := v }
  | 0x18 => { m with fwlen := v }
  | 0x30 => { m with ataddr := v }
  | 0x38 => { m with atpart := bitsOf v 0 6 }
  | _ => m

/-- A held message is sent once neither its vector nor its function is masked (R374). -/
def State.sendHeld (s : State) (fn vector : Nat) : State :=
  let f := s.fn fn
  if !f.masks vector && (if vector = 0 then f.pending0 else f.pending1) then s.sendMsix fn vector else s

/-- The host unmasks a vector of a function: a held message is sent (R374). -/
def State.unmask (s : State) (fn vector : Nat) : State :=
  let f := s.fn fn
  (s.setFn fn (if vector = 0 then { f with masked0 := false } else { f with masked1 := false })).sendHeld fn vector

/-- A vector's mask bit is written (R374). -/
def State.writeMask (s : State) (fn vector : Nat) (v : DWord) : State :=
  if !s.fnExists fn then s
  else if !v.getLsbD 0 then s.unmask fn vector
  else if vector = 0 then s.setFn fn { s.fn fn with masked0 := true }
  else if vector = 1 && fn = 0 then s.setFn fn { s.fn fn with masked1 := true }
  else s

/-- A function's mask is written (R374). -/
def State.writeFnMask (s : State) (fn : Nat) (v : DWord) : State :=
  if !s.fnExists fn then s
  else ((s.setFn fn { s.fn fn with fmask := v.getLsbD 0 }).sendHeld fn 0).sendHeld fn 1

/-- The base (at an offset of 0) or the length (at 8) of a range of an HDM decoder, ranges being 16 apart (R369).
DESIGN CHOICE, log entry 79. -/
def State.writeHdm (s : State) (dec off : Nat) (v : DWord) : State :=
  let k := 65 * (off / 16) + dec
  let r := Table.getD s.hdm k (0, 0)
  if 64 < dec then s else { s with hdm := Table.set s.hdm k (if off % 16 < 8 then (v.toNat, r.2) else (r.1, v.toNat)) }

/-- REGISTER_WRITE: a register without behaviour of its own stores its fields (R352). block names the block: 0 translation,
1 occupancy, 2 partition, 3 a function's register page, each of partition idx; 4 PF0's event registers, at the offsets of
R370; 5 MODNUM; 6 inbound window idx = 16·die + w; 7 management; 8 the mask of vector off of function idx; 9 the mask of function
idx; 10 a range of HDM decoder idx. -/
def execRegisterWrite (block idx off : Nat) (v : BitVec 64) (s : State) : Next :=
  .next (match block with
  | 0 => if idx < 64 then s.modPart idx (fun x => x.writeXlate off v) else s
  | 1 => if idx < 64 then s.modPart idx (fun x => x.writeOcc off v) else s
  | 2 => if idx < 64 then s.modPart idx (fun x => x.writeBlock off v) else s
  | 3 => if s.vfExists idx then s.writeVf idx off v else s
  | 4 => if off = 0x58 then s.setFn 0 ((s.fn 0).writeStat v) else s
  | 5 => { s with modnum := bitsOf v 0 10 }
  | 6 => if idx < 256 then { s with windows := Table.set s.windows idx (windowWrite (Table.getD s.windows idx 0) off v) } else s
  | 7 => { s with mgmt := s.mgmt.writeBlock off v }
  | 8 => s.writeMask idx off v
  | 9 => s.writeFnMask idx v
  | 10 => s.writeHdm idx off v
  | _ => s)

/-- VECTOR_UNMASK (R374). -/
def execVectorUnmask (fn vector : Nat) (s : State) : Next :=
  .next (if s.fnExists fn && (vector = 0 || (vector = 1 && fn = 0)) then s.unmask fn vector else s)

/-- FUNCTION_LEVEL_RESET of partition p's function: RCNT rises, the event registers take their reset values, and held records
and messages are dropped (R370, R374). DEDUCED, log entry 77. -/
def execFunctionLevelReset (p : Nat) (s : State) : Next :=
  .next (if !s.vfExists p then s
  else
    let f := s.fn (p + 1)
    s.setFn (p + 1) { rcnt := f.rcnt + 1, fmask := f.fmask, masked0 := f.masked0, masked1 := f.masked1 })

/-! ## CXL (R369) -/

/-- The die of a device physical address (R67). DESIGN CHOICE, log entry 79. -/
def paDie (pa : Nat) : Nat := pa / 2 ^ 38 % 16

/-- A decoder maps a device physical address (R369). -/
def State.decodes (s : State) (dec pa : Nat) : Bool :=
  s.hdm.any (fun e => e.1 % 65 == dec && e.2.1 ≤ pa && pa < e.2.1 + e.2.2)

/-- CXL_MEM_ACCESS: an access of 32 bytes through decoder dec, under the management key or a partition's; an address that the
decoder does not map, or on a die that is not ready, is answered with an error (R69, R369, R378). A poisoned unit is answered
with an error as well (R70, R106). DEDUCED, log entry 78. DESIGN CHOICE, log entry 79. -/
def execCxlMemAccess (dec pa : Nat) (w : Option (BitVec 256)) (s : State) : Next :=
  .next (
    let key := if dec = 0 then some s.mgmtKey else (s.part (dec - 1)).key
    if !populated pa || 64 < dec || !s.decodes dec pa || !s.mgmt.dready.getLsbD (paDie pa) then
      { s with out := s.out ++ [.cxlError] }
    else match w with
      | some l => let s1 := s.devWrite key pa l false; { s1 with out := s1.out ++ [.cxlDone] }
      | none =>
        let (l, pois) := s.devRead key pa
        let s1 := s.devMeet pa
        { s1 with out := s1.out ++ [if pois then .cxlError else .cxlData l] })

/-- HOST_SNOOP: no slice holds a host line (R369). -/
def execHostSnoop (_ : Nat) (s : State) : Next := .next { s with out := s.out ++ [.snoopMiss] }

/-! ## Swarm links (R375, R376) -/

/-- The operation reads, or writes, memory at a peer. -/
def swarmReads (op : SwarmOp) : Bool :=
  match op with
  | .write .. => false
  | _ => true
def swarmWrites (op : SwarmOp) : Bool :=
  match op with
  | .read => false
  | _ => true

/-- A window of a die admits a request (R376). -/
def windowAdmits (w : Line) (src pa : Nat) (op : SwarmOp) : Bool :=
  bitsOf w 0 21 != 0 && bitsOf w 96 10 == src && bitsOf w 21 21 * 2 ^ 21 ≤ pa
    && pa < (bitsOf w 21 21 + bitsOf w 0 21) * 2 ^ 21
    && (!swarmReads op || w.getLsbD 88) && (!swarmWrites op || w.getLsbD 89)

/-- The window that admits a request, lowest first. -/
def State.windowFor (s : State) (die src pa : Nat) (op : SwarmOp) : Option Line :=
  ((List.range 16).map (fun w => Table.getD s.windows (16 * die + w) 0)).find? (fun w => windowAdmits w src pa op)

/-- INBOUND_SWARM_REQUEST: a request of module src, meant for module peer, to 32 bytes is served without caching, under the key
of its window's partition, or refused (R375, R376). A poisoned unit refuses an operation that reads it. DEDUCED, log entry 78. -/
def execInboundSwarmRequest (die src peer pa : Nat) (op : SwarmOp) (s : State) : Next :=
  .next (if !(Table.getD s.links die {}).up then s
  else
    let u := pa / 32 * 32
    let refuse (s : State) : State := { s with out := s.out ++ [.swarmRefused die] }
    match s.windowFor die src pa op with
    | none => refuse s
    | some w =>
      if peer != s.modnum || !populated u || !s.mgmt.dready.getLsbD (paDie u) then refuse s
      else
        let key := (s.part (bitsOf w 90 6)).key
        let (old, pois) := s.devRead key u
        let s := s.devMeet u
        let whole : Bool := match op with
          | .write _ m => m == BitVec.allOnes 32
          | _ => false
        if pois && swarmReads op then refuse s
        else
          let (new, ans) := swarmEval op old
          let s1 := if swarmWrites op then s.devWrite key u new (pois && !whole) else s
          { s1 with out := s1.out ++ [.swarmData die ans] })

/-- SWARM_ANSWER: the answer to request n arrives; those to one slice's requests through one link come in the order of the
requests (R375, R376). -/
def execSwarmAnswer (n : Nat) (ok : Bool) (data : BitVec 256) (s : State) : Next :=
  .next { s with swarms := s.swarms.map (fun (w : Swarm) =>
      let late := s.swarms.any (fun x => x.slice == w.slice && x.link == w.link && x.n < n && x.done.isNone)
      if w.n == n && w.done.isNone && !late then { w with done := some (ok, data) } else w) }

/-- LINK_STATE_CHANGE: a link of a ready die comes up, or a link goes down and what was in flight on it ends in an error
(R376, R378). -/
def execLinkStateChange (die : Nat) (up : Bool) (peer : Nat) (s : State) : Next :=
  .next (
    let l := Table.getD s.links die {}
    if 16 ≤ die || l.up == up || (up && !s.mgmt.dready.getLsbD die) then s
    else
      let l1 : Link := if up then { up := true, peer := peer } else { l with up := false }
      let s1 : State := { s with
        links := Table.set s.links die l1
        swarms := s.swarms.map (fun (w : Swarm) =>
          if !up && w.link == die && w.done.isNone then { w with done := some (false, 0) } else w) }
      (s1.tableChange).postEvent 0 0x12 (if up then 1 else 0) die 0 (BitVec.ofNat 64 l1.peer) 0)

/-- FLIT_RETRY: a transfer is retried and counted; a FIXED launch that it delays has a timing break (R333, R349, R375).
DEDUCED, log entry 91. -/
def execFlitRetry (die : Nat) (_ : Bool) (p lid : Nat) (s : State) : Next :=
  .next (if 16 ≤ die then s
  else
    let s1 := s.modErrs die (fun e => { e with lnkrt := satInc e.lnkrt })
    match s1.launch? p lid with
    | some l => if l.fixed && l.phase == .running then s1.timingBreak p lid die 2 else s1
    | none => s1)

/-! ## JTAG (R377) -/

/-- JTAG_INSTRUCTION: the port holds the instruction; boundary scan reads pins alone, and debug instructions are disabled.
DEDUCED, log entry 84. -/
def execJtagInstruction (ir : Nat) (s : State) : Next := .next { s with jtag := ir }

end Sys2Proof.Machine
end

