-- ==== Sys2Proof/Machine/Manage.lean ====
section
/-! DEFINITION. Start, firmware, attestation and the board controller (R377–R382). -/

namespace Sys2Proof.Machine

/-! ## Images (R380, R381) -/

/-- The fields of a firmware slot: image B, or image A. -/
def Mgmt.valid (m : Mgmt) (b : Bool) : Bool := if b then m.bval else m.aval
def Mgmt.svn (m : Mgmt) (b : Bool) : Half := if b then m.svnb else m.svna
def Mgmt.image (m : Mgmt) (b : Bool) : List Byte := if b then m.imgb else m.imga
def Mgmt.setValid (m : Mgmt) (b v : Bool) : Mgmt := if b then { m with bval := v } else { m with aval := v }

/-- A slot verifies at a start: its image was verified when it was written, and its version is not below SVNMIN (R381). -/
def Mgmt.starts (m : Mgmt) (b : Bool) : Bool := m.valid b && decide (m.svnmin.toNat ≤ (m.svn b).toNat)

/-! ## Module reset (R379) -/

/-- The management block after a reset: the images and their fuses stay. -/
def Mgmt.restart (m : Mgmt) : Mgmt :=
  { svna := m.svna, svnb := m.svnb, svnmin := m.svnmin, next := m.next, bval := m.bval, aval := m.aval, act := m.act
    imga := m.imga, imgb := m.imgb, idpub := m.idpub }

/-- MODULE_RESET: everything is as after reset, but the images, the bytes of device and host memory, and the numbers of keys
and free values; every key is destroyed, and a new management key stands (R379). -/
def State.moduleReset (s : State) : State :=
  { thr := {}, mgmt := s.mgmt.restart, dev := s.dev, devKey := s.devKey, devPois := s.devPois
    devErr := s.devErr, host := s.host, hostKey := s.hostKey, hostPois := s.hostPois, hostErr := s.hostErr
    nextKey := s.nextKey + 1, mgmtKey := s.nextKey, out := s.out, agenda := s.agenda
    fresh := s.fresh, seqno := s.seqno }

def execModuleReset (s : State) : Next := .next s.moduleReset

/-! ## Stages (R378) -/

/-- IMAGE_VERIFIED: S0 verifies the image that NEXT names, then the other; S1 runs the one that verifies (R378, R381).
DEDUCED, log entry 82. DESIGN CHOICE, log entry 85. -/
def execImageVerified (s : State) : Next :=
  .next (
    let m := s.mgmt
    if m.stage != 0 || m.tried then s
    else
      let first := m.next
      let m1 := { m.setValid first (m.starts first) with tried := true }
      if m.starts first then { s with mgmt := { m1 with stage := 1, act := first } }
      else
        let m2 := m1.setValid (!first) (m.starts (!first))
        { s with mgmt := if m.starts (!first) then { m2 with stage := 1, act := !first } else m2 })

/-- FIRMWARE_RUNS_ON_EVERY_DIE (R378). DESIGN CHOICE, log entry 85. -/
def execFirmwareRunsOnEveryDie (s : State) : Next :=
  .next (if s.mgmt.stage = 1 then { s with mgmt := { s.mgmt with stage := 2 } } else s)

/-- A die is still being brought up. -/
def Mgmt.pendingDie (m : Mgmt) (d : Nat) : Bool := d < 16 && !m.dready.getLsbD d && !m.dfail.getLsbD d

/-- DIE_READY: all quads of the die become ready; the first ready die enters S3 (R378). DESIGN CHOICE, log entry 85. -/
def execDieReady (d : Nat) (s : State) : Next :=
  .next (if 2 ≤ s.mgmt.stage && s.mgmt.pendingDie d then
    ({ s with mgmt := { s.mgmt with dready := s.mgmt.dready ||| (1#16 <<< d), stage := 3 } }).tableChange
  else s)

/-- DIE_FAILED: all quads of the die are failed; the failure is logged (R378, R380). -/
def execDieFailed (d : Nat) (s : State) : Next :=
  .next (if 1 ≤ s.mgmt.stage && s.mgmt.pendingDie d then
    (({ s with mgmt := { s.mgmt with dfail := s.mgmt.dfail ||| (1#16 <<< d) } }).tableChange).logEntry 5 d 0
  else s)

/-! ## Firmware commands (R380, R381) -/

/-- A firmware command, logged; one written while FWBUSY is set gives BUSY. -/
def State.firmware (s : State) (op : Nat) (k : State → State) : State :=
  let s1 := s.logEntry 2 op 0
  if s1.mgmt.fwbusy then { s1 with mgmt := { s1.mgmt with fwcode := 1 } } else k s1

def State.setFwcode (s : State) (c : Nat) : State := { s with mgmt := { s.mgmt with fwcode := c } }

/-- n bytes of host memory. -/
def State.hostBytes (s : State) (a n : Nat) : List Byte :=
  (((List.range (n / 32 + 2)).flatMap (fun i => lineBytes (s.hostRead none false (a / 32 * 32 + 32 * i)))).drop (a % 32)).take n

/-- A read of n bytes of host memory meets an error. -/
def State.hostFails (s : State) (a n : Nat) : Bool :=
  (List.range (n / 32 + 2)).any (fun i =>
    a / 32 * 32 + 32 * i < a + n && (s.hostErr.contains (false, a / 32 + i) || s.hostPois.contains (a / 32 + i)))

/-- The errors that a read of n bytes met have been met. -/
def State.hostMeet (s : State) (a n : Nat) : State :=
  { s with hostErr := s.hostErr.filter (fun e => e.1 || e.2 < a / 32 || (a + n + 31) / 32 ≤ e.2) }

/-- LOAD: FWLEN bytes at FWADDR are read into the slot that ACT does not name, whose valid bit is 0 until they are verified; an
excess length is not read (R380, R381). DEDUCED, log entry 82. -/
def execLoad (s : State) : Next :=
  .next (s.firmware 1 (fun s =>
    let m := s.mgmt.setValid (!s.mgmt.act) false
    let a := m.fwaddr.toNat
    let n := m.fwlen.toNat
    let load := if 2 ^ 26 < n then ([], true) else (s.hostBytes a n, s.hostFails a n)
    { (if 2 ^ 26 < n then s else s.hostMeet a n) with mgmt := { m with fwbusy := true, loading := some load } }))

/-- The code of a load's verification (R381). DEDUCED, log entry 82. -/
def Mgmt.loadCode (m : Mgmt) (image : List Byte) (bad : Bool) : Nat :=
  if bad then 4
  else if !imageSigned image then 2
  else if (Config.imageSvn image).toNat < m.svnmin.toNat then 3
  else 0

/-- FW_VERIFY_DONE: the loaded image's verification ends. DEDUCED, log entry 82. -/
def execFwVerifyDone (s : State) : Next :=
  .next (match s.mgmt.loading with
  | some (image, bad) =>
    let m := s.mgmt
    let code := m.loadCode image bad
    let b := !m.act
    let m1 := m.setValid b (code == 0)
    let v := Config.imageSvn image
    let m2 := if b then { m1 with svnb := v, imgb := image } else { m1 with svna := v, imga := image }
    { s with mgmt := { m2 with loading := none, fwbusy := false, fwcode := code } }
  | none => s)

/-- NEXTA and NEXTB: BADSIG unless the slot's valid bit is 1. DEDUCED, log entry 81. -/
def State.selectNext (s : State) (b : Bool) : State :=
  if s.mgmt.valid b then { s with mgmt := { s.mgmt with next := b, fwcode := 0 } } else s.setFwcode 2

def execNexta (s : State) : Next := .next (s.firmware 2 (fun s => s.selectNext false))
def execNextb (s : State) : Next := .next (s.firmware 3 (fun s => s.selectNext true))

/-- COMMIT: SVNMIN rises to the running image's version. -/
def execCommit (s : State) : Next :=
  .next (s.firmware 4 (fun s =>
    let v := s.mgmt.svn s.mgmt.act
    let m := s.mgmt
    { s with mgmt := { m with svnmin := if m.svnmin.toNat < v.toNat then v else m.svnmin, fwcode := 0 } }))

/-- FWOP_UNDEFINED: BADOP (R380). -/
def execFwopUndefined (op : Nat) (s : State) : Next :=
  .next (if 1 ≤ op && op ≤ 4 then s else s.firmware op (fun s => s.setFwcode 5))

/-! ## Attestation (R382) -/

/-- A digest or signature as bytes, its most significant byte first. -/
def digestBytes (d : BitVec 512) : List Byte := (leBytes d.toNat 64).reverse

/-- The resident launches of a partition, in ascending launch id. -/
def State.resident (s : State) (p : Nat) : List Launch :=
  let ls := s.launches.filter (fun l => l.part == p && l.holds)
  ls.mergeSort (fun a b => a.lid ≤ b.lid)

/-- Bytes 0 to 447 of a report. DEDUCED, log entry 80. -/
def State.report (s : State) (p : Nat) (nonce : List Byte) : List Byte :=
  let x := s.part p
  let ls := s.resident p
  let entries := (ls.take 16).flatMap (fun l => leBytes l.lid 4 ++ leBytes l.sigHL.toNat 8)
  leBytes 1 4 ++ leBytes p 4 ++ leBytes s.gtime 8 ++ nonce ++ digestBytes (sha512 (s.mgmt.image s.mgmt.act))
    ++ digestBytes Config.romDigest
    ++ leBytes x.pcur.toNat 8 ++ leBytes x.pctl.toNat 8 ++ leBytes x.pmem.toNat 8 ++ leBytes x.plink.toNat 8
    ++ leBytes x.pgrant.toNat 8 ++ leBytes ls.length 4 ++ entries ++ List.replicate (192 - entries.length + 36) 0

/-- The 512 bytes of the report of a partition. DEDUCED, log entry 80. -/
def State.signedReport (s : State) (p : Nat) (nonce : List Byte) : List Byte :=
  let r := s.report p nonce
  r ++ digestBytes (Config.identitySignature (sha512 r))

/-- The nonce at ATADDR + 16. -/
def State.nonce (s : State) (a : Nat) : List Byte := s.hostBytes (a + 16) 32

/-- Bytes written to host memory line by line. -/
def State.hostLines (s : State) (a : Nat) (bs : List Byte) (n : Nat) : State :=
  match n with
  | 0 => s
  | k + 1 =>
    let s1 := State.hostLines s a bs k
    s1.hostWriteUnit none false (a + 32 * k) (bytesLine ((bs.drop (32 * k)).take 32)) false

/-- The host answers an access to a report's buffer with an error completion: the read of the nonce, or a write. -/
def State.bufferFails (s : State) (a : Nat) : Bool :=
  s.hostFails (a + 16) 32 || (List.range 16).any (fun i => s.hostErr.contains (true, a / 32 + i))

/-- A report's accesses have met the errors of its buffer. -/
def State.bufferMeet (s : State) (a : Nat) : State :=
  { s with hostErr := s.hostErr.filter (fun e => e.2 < a / 32 || a / 32 + 16 ≤ e.2) }

/-- ATGO: ATPART is stored; with bit 8 a report is written, at one point between the partition commands, and ATBUSY is 1 for a
time, in which another request gives BUSY (R380, R382). A misaligned buffer, or one that answers with an error, gives IMGFAULT.
DEDUCED, log entry 80. -/
def execAtgo (v : BitVec 64) (s : State) : Next :=
  .next (
    let p := bitsOf v 0 6
    let s1 : State := { s with mgmt := { s.mgmt with atpart := p } }
    if !v.getLsbD 8 then s1
    else if s1.now < s1.mgmt.atend then { s1 with mgmt := { s1.mgmt with atcode := 1 } }
    else
      let s2 := (s1.logEntry 3 p 0).tick
      let a := s2.mgmt.ataddr.toNat
      let code := if (s2.part p).state == .free then 2 else if a % 64 != 0 || s2.bufferFails a then 3 else 0
      let s3 := if code = 0 then s2.hostLines a (s2.signedReport p (s2.nonce a)) 16
        else if code = 3 && a % 64 == 0 then s2.bufferMeet a
        else s2
      { s3 with mgmt := { s3.mgmt with atcode := code, atend := s3.now + Config.reportTime s1.fresh } })

/-! ## The board controller (R377) -/

/-- The words of a log record. DESIGN CHOICE, log entry 9. -/
def logWords (l : Line) : List DWord := (List.range 4).map (fun i => l.extractLsb' (64 * i) 64)

/-- SMBUS_REQUEST: the board controller reads sensors, power or the log, resets the module, or selects the image of the next
start, which must be valid (R377, R381). DEDUCED, log entry 81. -/
def execSmbusRequest (rq : SmbusRq) (s : State) : Next :=
  .next (match rq with
  | .sensors => { s with out := s.out ++ [.smbus [s.mgmt.tmax.setWidth 64]] }
  | .power => { s with out := s.out ++ [.smbus [s.mgmt.pwr.setWidth 64]] }
  | .log => { s with out := s.out ++ [.smbus (s.mgmt.logcnt :: s.log.reverse.flatMap logWords)] }
  | .reset => s.moduleReset
  | .select b => if s.mgmt.valid b then { s with mgmt := { s.mgmt with next := b } } else s)

end Sys2Proof.Machine
end

