-- ==== Sys2Proof/Machine/Matrix.lean ====
section
/-! DEFINITION. The matrix engine and the gang (R249–R266): a command is checked at the head of its queue; when it starts it
reads its operands and forms its results, which are written when it completes. -/

namespace Sys2Proof.Machine

/-! ## Bodies (R252, R254, R255, R259) -/

/-- A type field, or the captured FMTD's for 15 (R252). -/
def typeOf (code : Nat) (fmtd : Word) (lo : Nat) : Nat := if code = 15 then bitsOf fmtd lo 4 else code
def Cmd.at_ (c : Cmd) : Nat := typeOf (c.f 134 131) c.cap.fmtd 0
def Cmd.bt (c : Cmd) : Nat := typeOf (c.f 130 127) c.cap.fmtd 4
def Cmd.dt (c : Cmd) : Nat := typeOf (c.f 155 152) c.cap.fmtd 8

/-- The class of a matrix type: element width in bits, tc with the 16-bit class; 0 for a type that MMA does not take (R252). -/
def mmaClass (t : Nat) : Nat :=
  match t with
  | 6 | 7 | 12 => 16
  | 9 | 10 => 8
  | 11 | 14 => 4
  | _ => 0

/-- An element's bits in memory: a table code is a byte (R202). -/
def opBits (t : Nat) : Nat := if t = 14 then 4 else codeWidth t

/-- K of MMA and MMAI (R254). -/
def Cmd.k (c : Cmd) : Nat := 16 * (c.f 139 135 + 1)

/-- MMA's or MMAI's body is legal (R255); a type that FMTD supplies is checked like one of the field, with BADBODY (R252).
DEDUCED, log entry 119. -/
def Cmd.mmaOk (c : Cmd) (int : Bool) : Bool :=
  let a := c.at_
  let b := c.bt
  let mx := a == 14 || b == 14
  let strideOk (t n : Nat) : Bool := n % 16 == 0 && c.k * opBits t ≤ 8 * n
  bitsOf c.word 32 94 == 0 &&
  (if int then a ≤ 1 && b ≤ 1 else mmaClass a != 0 && mmaClass a == mmaClass b) &&
  c.f 255 240 % 4 == 0 && c.f 233 218 % 4 == 0 && c.f 211 196 % 64 == 0 &&
  strideOk a (c.f 195 184) && strideOk b (c.f 183 172) &&
  (!mx || c.f 139 135 % 2 == 1) && (a == 14 || c.f 171 156 == 0) && (b == 14 || c.f 155 140 == 0)

/-- MEPI's body is legal (R258, R259); a type that FMTD supplies is checked like one of the field, with BADBODY (R252).
DEDUCED, log entry 36. DEDUCED, log entry 119. -/
def Cmd.mepiOk (c : Cmd) : Bool :=
  let st := c.f 159 156
  let sm := c.f 147 146
  let sclp := c.cap.sclp
  !c.gang && bitsOf c.word 32 113 == 0 && (st == 8 || st == 4) && c.dt ≤ 11 && c.f 151 149 < 6
    && (c.f 151 149 != 5 || !codeInt c.dt) && sm < 3
    && c.f 255 240 % 64 == 0 && c.f 239 224 % 4 == 0
    && (if sm = 1 then c.f 223 208 % 4 == 0 else c.f 223 208 == 0)
    && (if c.word.getLsbD 145 then c.f 207 192 % 4 == 0 else c.f 207 192 == 0)
    && (sm == 0 || c.f 191 160 == 0)
    && (sm != 2 || (bitsOf sclp 56 8 == 0xFF && bitsOf sclp 16 40 == 0 && bitsOf sclp 0 2 == 0))

/-! ## Operands in scratchpads (R251, R253) -/

/-- A core of the issuing core's cluster (R251). -/
def clusterCore (core cx cy : Nat) : Nat := coreAt (coreX core / 16 * 16 + cx) (coreY core / 4 * 4 + cy)

/-- The bytes of an operand: its number in FIRST, its core and its offsets. -/
structure Operand where
  no : Nat
  core : Nat
  offs : List Nat
  /-- It is read, so that its poison counts. -/
  read : Bool := true

/-- The first operand that runs past its scratchpad, then the first that is poisoned (R261): code and FIRST. DEDUCED, log entry 36. -/
def State.operandCode (s : State) (p : Nat) (os : List Operand) : Option (Nat × Nat) :=
  match os.find? (fun o => o.offs.any (fun x => s.scratchSize p o.core ≤ x)) with
  | some o => some (5, o.no)
  | none =>
    match os.find? (fun o => o.read && o.offs.any (fun x => s.sramPois.contains (s.sramAddr p o.core x / 4 * 4))) with
    | some o => some (9, o.no)
    | none => none

/-- The banks of operands pass to the partition (R144). DEDUCED, log entry 36. -/
def State.touchOperands (s : State) (p : Nat) (os : List Operand) : State :=
  os.foldl (fun s o => s.touchOffs p o.core (o.offs.filter (· < s.scratchSize p o.core))) s

/-- n bytes of a scratchpad as a number. -/
def State.spadNat (s : State) (p core off n : Nat) : Nat :=
  leNat ((span off n).map (fun o => Memory.read s.sram (s.sramAddr p core o)))

/-- Element k of a row of a type at an offset. -/
def State.opCode (s : State) (p core row t k : Nat) : Nat :=
  match opBits t with
  | 4 => s.spadNat p core (row + k / 2) 1 / (if k % 2 = 0 then 1 else 16) % 16
  | w => s.spadNat p core (row + k * w / 8) (w / 8)

/-- The exact value of an element: decoded, or times its block's scale (R256). -/
def State.opVal (s : State) (p core row t sc k : Nat) (tab : Nat → Val) : Val :=
  let x := s.opCode p core row t k
  match t with
  | 12 => tab x
  | 14 => scaleVal (s.spadNat p core (sc + k / 32) 1) (fmtE2.value x)
  | _ => codeVal t x

/-- One side of a product: its core, type, offset, stride and scale offset. -/
structure Side where
  core : Nat
  t : Nat
  off : Nat
  str : Nat
  sc : Nat
deriving DecidableEq, Repr

def Cmd.sideA (c : Cmd) (core : Nat) : Side :=
  { core := clusterCore core (c.f 239 236) (c.f 235 234), t := c.at_, off := c.f 255 240, str := c.f 195 184, sc := c.f 171 156 }
def Cmd.sideB (c : Cmd) (core : Nat) : Side :=
  { core := clusterCore core (c.f 217 214) (c.f 213 212), t := c.bt, off := c.f 233 218, str := c.f 183 172, sc := c.f 155 140 }

/-- The offsets of a side's elements, and of its scales (R253). -/
def Side.offs (d : Side) (k : Nat) : List Nat :=
  (List.range 16).flatMap (fun i => span (d.off + i * d.str) (k * opBits d.t / 8))
def Side.scales (d : Side) (k : Nat) : List Nat := if d.t = 14 then span d.sc (16 * (k / 32)) else []

/-- Row i of a side as exact values. -/
def State.sideRow (s : State) (p : Nat) (d : Side) (k : Nat) (tab : Nat → Val) (i : Nat) : List Val :=
  (List.range k).map (fun j => s.opVal p d.core (d.off + i * d.str) d.t (d.sc + i * (k / 32)) j tab)

/-- Row i of a side as integers (MMAI). -/
def State.sideInts (s : State) (p : Nat) (d : Side) (k i : Nat) : List Int :=
  (List.range k).map (fun j => codeIntVal d.t (s.opCode p d.core (d.off + i * d.str) d.t j))

/-- The groups of a list, g terms each. -/
def groupsOf {α : Type} (g n : Nat) (xs : List α) : List (List α) :=
  (List.range n).map (fun i => (xs.drop (g * i)).take g)

/-- One element of the tile: groups in ascending order, rounded after each (R212, R256). -/
def mmaElement (g k acc : Nat) (xs ys : List Val) : Nat × Flags :=
  ((groupsOf g (k / g) (xs.zip ys))).foldl (fun c ps =>
    let r := fmtF.finish 0 false 0 (groupSum (fmtF.value c.1) ps)
    (r.1, c.2 ||| r.2)) (acc, 0)

/-- The accumulator of element (i, j). -/
def State.tileC (s : State) (p core coff i j : Nat) : Nat := s.spadNat p core (coff + 64 * i + 4 * j) 4

/-- The 256 results of MMA or MMAI, row by row, and its flags (R256). -/
def State.tile (s : State) (p core : Nat) (c : Cmd) (int : Bool) : List Nat × Flags :=
  let k := c.k
  let da := c.sideA core
  let db := c.sideB core
  let acc := c.word.getLsbD 126
  let coff := c.f 211 196
  let c0 (i j : Nat) : Nat := if acc then s.tileC p core coff i j else 0
  let ij := (List.range 256).map (fun n => (n / 16, n % 16))
  if int then
    let as := (List.range 16).map (s.sideInts p da k)
    let bs := (List.range 16).map (s.sideInts p db k)
    (ij.map (fun x =>
      let dot := ((as.getD x.1 []).zip (bs.getD x.2 [])).foldl (fun t ab => t + ab.1 * ab.2) (0 : Int)
      wrapInt ((c0 x.1 x.2 : Nat) + dot) 32), 0)
  else
    let tab := s.tableVal p core c.cap.tblp
    let g := if c.at_ = 14 || c.bt = 14 then 32 else 16
    let as := (List.range 16).map (s.sideRow p da k tab)
    let bs := (List.range 16).map (s.sideRow p db k tab)
    let rs := ij.map (fun x => mmaElement g k (c0 x.1 x.2) (as.getD x.1 []) (bs.getD x.2 []))
    (rs.map (·.1), rs.foldl (fun f r => f ||| r.2) 0)

/-- The table entries that a side's codes name. -/
def State.sideTable (s : State) (p : Nat) (d : Side) (k : Nat) : List Nat :=
  if d.t = 12 then
    ((List.range 16).flatMap (fun i => (List.range k).map (fun j => s.opCode p d.core (d.off + i * d.str) 12 j))).eraseDups
  else []

/-- The operands of MMA and MMAI: A, B, C, the scales, then the table entries that the codes name. -/
def State.mmaOperands (_s : State) (_p core : Nat) (c : Cmd) : List Operand :=
  let da := c.sideA core
  let db := c.sideB core
  [{ no := 0, core := da.core, offs := da.offs c.k }, { no := 1, core := db.core, offs := db.offs c.k },
   { no := 2, core := core, offs := span (c.f 211 196) 1024, read := c.word.getLsbD 126 },
   { no := 3, core := da.core, offs := da.scales c.k }, { no := 3, core := db.core, offs := db.scales c.k }]

/-- The table entries as an operand. -/
def State.mmaTable (s : State) (p core : Nat) (c : Cmd) : List Operand :=
  [{ no := 4, core := core
     offs := (s.sideTable p (c.sideA core) c.k ++ s.sideTable p (c.sideB core) c.k).eraseDups.flatMap (fun i =>
       span (tableOff c.cap.tblp i) 4) }]

/-! ## Starting (R256, R260–R263) -/

/-- A command ends with a code; nothing is written. -/
def Cmd.fail (c : Cmd) (code : Nat) (first : Option Nat) : Cmd := { c with state := .ending, code := code, first := first }

/-- What a mismatch of a tile's checksums, and one of its rerun, count and post (R263, R333, R349). DEDUCED, log entry 90. -/
def State.mismatch (s : State) (core slot : Nat) (again : Bool) : State :=
  let count (e : Errs) : Errs :=
    let e1 := { e with cemtx := satInc e.cemtx }
    if again then { e1 with cemtx := satInc e1.cemtx, uecnt := satInc e1.uecnt } else e1
  let s1 := s.modErrs (dieOf core) count
  match s.ownerOf core slot with
  | some t => if t.fix then s1.timingBreak t.tid.part t.tid.lid (dieOf core) 1 else s1
  | none => s1

/-- A command has its results: they are written at its completion, and its completion carries all ones (R296). A second
mismatch of its checksums has the tile written poisoned (R263). -/
def State.results (s : State) (core slot : Nat) (out : List (Nat × Byte)) (f : Flags) (checked : Bool) : State :=
  let miss : Bool := checked && Config.tileMismatch s.fresh 0
  let bad : Bool := miss && Config.tileMismatch s.fresh 1
  let s1 := if checked then s.tick else s
  let s2 := if miss then s1.mismatch core slot bad else s1
  s2.modHead core slot true (fun c =>
    { c with state := .ending, code := if bad then 8 else 0, flags := c.flags ||| f, sig := sigOnes, out := out, outPois := bad })

/-- 32-bit words laid out from an offset. -/
def wordsOut (off : Nat) (ws : List Nat) : List (Nat × Byte) :=
  (span off (4 * ws.length)).zip (ws.flatMap (fun w => leBytes w 4))

/-- MMA or MMAI starts on a core: it reads its operands and forms its tile. DEDUCED, log entry 90. -/
def State.runTile (s : State) (core slot : Nat) (int : Bool) : State :=
  match (s.queueAt core slot true).cmds with
  | [] => s
  | c :: _ =>
    let p := s.queuePart core slot
    let ops := s.mmaOperands p core c
    let s1 := s.touchOperands p ops
    match s1.operandCode p (ops.map (fun o => { o with read := false })) with
    | some x => s1.modHead core slot true (fun c => c.fail x.1 (some x.2))
    | none =>
      let tab := s1.mmaTable p core c
      let s2 := s1.touchOperands p tab
      match s2.operandCode p (ops ++ tab) with
      | some x => s2.modHead core slot true (fun c => c.fail x.1 (some x.2))
      | none =>
        let (ws, f) := s2.tile p core c int
        s2.results core slot (wordsOut (c.f 211 196) ws) f true

/-- The C value of MEPI as an exact value (R260). -/
def mepiC (st x : Nat) : Val := codeVal st x

/-- One element of MEPI. An integer result is the rounded value clamped to its type, as of a float, with either SAT and from
either source type. DEDUCED, log entry 107. -/
def mepiElement (c : Cmd) (cv scale bias : Val) (n : Nat) : Nat × Flags :=
  let rm := c.f 151 149
  let g := if rm = 5 then drawAt c.cap.rkey c.cap.rstr (c.cap.rpos + BitVec.ofNat 64 n) 0 else 0
  let p := mulVals cv scale
  let r := sumVals rm [p.1, bias]
  let y := toCode c.dt rm (c.word.getLsbD 148) g r.1
  (y.1, y.2 ||| r.2 ||| (p.2 &&& fNV))

/-- The bytes of packed codes; e2 two to a byte, low nibble first. -/
def packBytes (code : Nat) (xs : List Nat) : List Byte :=
  let w := codeWidth code
  leBytes (packElems w xs) (xs.length * w / 8)

/-- MEPI starts. -/
def State.runMepi (s : State) (core slot : Nat) : State :=
  match (s.queueAt core slot true).cmds with
  | [] => s
  | c :: _ =>
    let p := s.queuePart core slot
    let st := c.f 159 156
    let sm := c.f 147 146
    let svoff := if sm = 1 then c.f 223 208 else bitsOf c.cap.sclp 0 16
    let bias := c.word.getLsbD 145
    let n := 256 * codeWidth c.dt / 8
    let ops : List Operand :=
      [{ no := 2, core := core, offs := span (c.f 255 240) 1024 },
       { no := 2, core := core, offs := span (c.f 239 224) n, read := false },
       { no := 3, core := core, offs := if sm = 0 then [] else span svoff 64 },
       { no := 3, core := core, offs := if bias then span (c.f 207 192) 64 else [] }]
    let s1 := s.touchOperands p ops
    match s1.operandCode p ops with
    | some x => s1.modHead core slot true (fun c => c.fail x.1 (some x.2))
    | none =>
      let rs := (List.range 256).map (fun e =>
        let j := e % 16
        let sv := fmtF.value (if sm = 0 then c.f 191 160 else s1.spadNat p core (svoff + 4 * j) 4)
        let bv := if bias then fmtF.value (s1.spadNat p core (c.f 207 192 + 4 * j) 4) else .fin false 0 0
        mepiElement c (mepiC st (s1.spadNat p core (c.f 255 240 + 4 * e) 4)) sv bv e)
      s1.results core slot ((span (c.f 239 224) n).zip (packBytes c.dt (rs.map (·.1)))) (rs.foldl (fun f r => f ||| r.2) 0) false

/-- The cores whose scratchpads a matrix command reads or writes (R146, R251). -/
def Cmd.tileCores (c : Cmd) (core : Nat) : List Nat :=
  if c.kind == 3 then [core] else [core, (c.sideA core).core, (c.sideB core).core].eraseDups

/-- A matrix command of one kind is checked at the head of its queue; a gang arrival then waits (R255, R257). One whose operands lie on
a core where a write of L1CFG is parked does not start yet (R146). DEDUCED, log entry 26. DEDUCED, log entry 28. -/
def State.startMatrix (s : State) (x y slot kind : Nat) (bodyOk : Cmd → Bool) (run : State → State) : State :=
  let core := coreAt x y
  match (s.queueAt core slot true).cmds with
  | c :: _ =>
    if c.state == .queued && c.kind == kind && s.engineFree core slot true then
      let h := s.headerCode (s.queuePart core slot) core true c
      if h != 0 then s.modHead core slot true (fun c => c.fail h none)
      else if !bodyOk c then s.modHead core slot true (fun c => c.fail 4 none)
      else if c.gang then s.modHead core slot true (fun c => { c with state := .arrived })
      else if (c.tileCores core).any (s.l1cfgWaits (s.queuePart core slot)) then s.holdCmd core slot true
      else run (s.modHead core slot true (fun c => { c with cores := c.tileCores core }))
    else if c.state == .queued && c.kind == kind && s.l1cfgWaits (s.queuePart core slot) core then s.holdCmd core slot true
    else s
  | [] => s

/-- MMA (R256). -/
def execMma (x y slot : Nat) (s : State) : Next :=
  .next (s.startMatrix x y slot 1 (·.mmaOk false) (fun s => s.runTile (coreAt x y) slot false))
/-- MMAI (R256). -/
def execMmai (x y slot : Nat) (s : State) : Next :=
  .next (s.startMatrix x y slot 2 (·.mmaOk true) (fun s => s.runTile (coreAt x y) slot true))
/-- MEPI (R260). -/
def execMepi (x y slot : Nat) (s : State) : Next :=
  .next (s.startMatrix x y slot 3 (·.mepiOk) (fun s => s.runMepi (coreAt x y) slot))

/-! ## The gang (R257, R258) -/

/-- The 16 cores of a gang: gang number g of R12. -/
def gangCores (g : Nat) : List Nat := (List.range 16).map (fun q => coreAt (16 * (g % 40) + q) (g / 40))

/-- What gang commands must agree on. -/
def Cmd.gangKey (c : Cmd) : List Nat :=
  [c.kind, c.at_, c.bt, c.f 139 135, c.f 255 240, c.f 239 236, c.f 235 234, c.f 195 184, c.f 171 156]

/-- The gang's shared operands, whose banks pass to the partition first (R144), are poisoned or out of range (R262). -/
def State.gangShared (s : State) (core slot : Nat) : State × Option (Nat × Nat) :=
  match (s.queueAt core slot true).cmds with
  | c :: _ =>
    let p := s.queuePart core slot
    let d := c.sideA core
    let os : List Operand := [{ no := 0, core := d.core, offs := d.offs c.k }, { no := 3, core := d.core, offs := d.scales c.k }]
    let s1 := s.touchOperands p os
    (s1, s1.operandCode p os)
  | [] => (s, none)

/-- GANG_START: all 16 arrivals of a slot are at their heads; they start together, or complete with GANGMIS (R257, R258). A parked write
of L1CFG on a core that one of them reads holds them (R146). -/
def execGangStart (gang slot : Nat) (s : State) : Next :=
  let cores := gangCores gang
  let heads := cores.filterMap (fun c => (s.queueAt c slot true).cmds.head?)
  .next (
    let held : Bool := (cores.zip heads).any (fun k => (k.2.tileCores k.1).any (s.l1cfgWaits (s.queuePart k.1 slot)))
    let here : Bool := heads.length = 16 && heads.all (fun c => c.state == .arrived)
    if here && held then cores.foldl (fun s c => s.holdCmd c slot true) s
    else if here && cores.all (fun c => s.engineFree c slot true) then
      let keys := heads.map Cmd.gangKey
      if keys.all (· == keys.headD []) then
        (match s.gangShared (cores.headD 0) slot with
         | (s, some x) => cores.foldl (fun s c => s.modHead c slot true (fun k => k.fail x.1 (some x.2))) s
         | (s, none) =>
           let int := (keys.headD []).headD 0 == 2
           cores.foldl (fun s c => (s.modHead c slot true (fun k => { k with cores := k.tileCores c })).runTile c slot int) s)
      else cores.foldl (fun s c => s.modHead c slot true (fun k => k.fail 10 none)) s
    else s)

end Sys2Proof.Machine
end

