-- ==== Sys2Proof/Machine/Scalar.lean ====
section
/-! DEFINITION. The scalar forms that compute on registers: ALU (R170, R171), immediates (R172, R173), compares and
predicates (R174, R175), address pairs (R179, R180). -/

namespace Sys2Proof.Machine

/-- A form that writes sD from two registers (R170). -/
def binary (g d a b : BitVec 4) (cost : Nat) (s : State) (f : Word → Word → Word) : Next :=
  regForm g cost s (fun t => t.ws d (f (t.rs a) (t.rs b)))

/-- A form that writes sD from one register (R170, R172). -/
def unary (g d a : BitVec 4) (s : State) (f : Word → Word) : Next := regForm g 1 s (fun t => t.ws d (f (t.rs a)))

/-- ADD (R170). -/
def execAdd (g d a b : BitVec 4) (s : State) : Next := binary g d a b 1 s (fun a b => a + b)
/-- SUB (R170). -/
def execSub (g d a b : BitVec 4) (s : State) : Next := binary g d a b 1 s (fun a b => a - b)
/-- AND (R170). -/
def execAnd (g d a b : BitVec 4) (s : State) : Next := binary g d a b 1 s (fun a b => a &&& b)
/-- OR (R170). -/
def execOr (g d a b : BitVec 4) (s : State) : Next := binary g d a b 1 s (fun a b => a ||| b)
/-- XOR (R170). -/
def execXor (g d a b : BitVec 4) (s : State) : Next := binary g d a b 1 s (fun a b => a ^^^ b)
/-- ANDN (R170). -/
def execAndn (g d a b : BitVec 4) (s : State) : Next := binary g d a b 1 s (fun a b => a &&& ~~~b)
/-- SHL (R170). -/
def execShl (g d a b : BitVec 4) (s : State) : Next := binary g d a b 1 s (fun a b => a <<< shamt b)
/-- SHR (R170). -/
def execShr (g d a b : BitVec 4) (s : State) : Next := binary g d a b 1 s (fun a b => a >>> shamt b)
/-- SAR (R170). -/
def execSar (g d a b : BitVec 4) (s : State) : Next := binary g d a b 1 s (fun a b => a.sshiftRight (shamt b))
/-- ROL (R170). -/
def execRol (g d a b : BitVec 4) (s : State) : Next := binary g d a b 1 s (fun a b => rotl32 a (shamt b))
/-- MUL (R170). -/
def execMul (g d a b : BitVec 4) (s : State) : Next := binary g d a b 1 s (fun a b => a * b)
/-- MULH (R170). -/
def execMulh (g d a b : BitVec 4) (s : State) : Next := binary g d a b 1 s (fun a b => mulHighS a b)
/-- MULHU (R170). -/
def execMulhu (g d a b : BitVec 4) (s : State) : Next := binary g d a b 1 s (fun a b => mulHighU a b)
/-- DIV (R171). -/
def execDiv (g d a b : BitVec 4) (s : State) : Next := binary g d a b 8 s (fun a b => (divSigned a b).1)
/-- DIVU (R171). -/
def execDivu (g d a b : BitVec 4) (s : State) : Next := binary g d a b 8 s (fun a b => (divUnsigned a b).1)
/-- REM (R171). -/
def execRem (g d a b : BitVec 4) (s : State) : Next := binary g d a b 8 s (fun a b => (divSigned a b).2)
/-- REMU (R171). -/
def execRemu (g d a b : BitVec 4) (s : State) : Next := binary g d a b 8 s (fun a b => (divUnsigned a b).2)
/-- MIN (R170). -/
def execMin (g d a b : BitVec 4) (s : State) : Next := binary g d a b 1 s (fun a b => if a.sle b then a else b)
/-- MAX (R170). -/
def execMax (g d a b : BitVec 4) (s : State) : Next := binary g d a b 1 s (fun a b => if a.sle b then b else a)
/-- MINU (R170). -/
def execMinu (g d a b : BitVec 4) (s : State) : Next := binary g d a b 1 s (fun a b => if a.ule b then a else b)
/-- MAXU (R170). -/
def execMaxu (g d a b : BitVec 4) (s : State) : Next := binary g d a b 1 s (fun a b => if a.ule b then b else a)
/-- SLT (R170). -/
def execSlt (g d a b : BitVec 4) (s : State) : Next := binary g d a b 1 s (fun a b => ofBool32 (a.slt b))
/-- SLTU (R170). -/
def execSltu (g d a b : BitVec 4) (s : State) : Next := binary g d a b 1 s (fun a b => ofBool32 (a.ult b))
/-- CLZ (R170). -/
def execClz (g d a : BitVec 4) (s : State) : Next := unary g d a s (fun a => BitVec.ofNat 32 (countLeading a))
/-- CTZ (R170). -/
def execCtz (g d a : BitVec 4) (s : State) : Next := unary g d a s (fun a => BitVec.ofNat 32 (countTrailing a))
/-- POPC (R170). -/
def execPopc (g d a : BitVec 4) (s : State) : Next := unary g d a s (fun a => BitVec.ofNat 32 (countSet a))
/-- BREV (R170). -/
def execBrev (g d a : BitVec 4) (s : State) : Next := unary g d a s (fun a => reverseBits a)
/-- SEXTB (R170). -/
def execSextb (g d a : BitVec 4) (s : State) : Next := unary g d a s (fun a => (a.setWidth 8).signExtend 32)
/-- SEXTH (R170). -/
def execSexth (g d a : BitVec 4) (s : State) : Next := unary g d a s (fun a => (a.setWidth 16).signExtend 32)
/-- ZEXTB (R170). -/
def execZextb (g d a : BitVec 4) (s : State) : Next := unary g d a s (fun a => a &&& 0xFF)
/-- ZEXTH (R170). -/
def execZexth (g d a : BitVec 4) (s : State) : Next := unary g d a s (fun a => a &&& 0xFFFF)
/-- MOV (R170). -/
def execMov (g d a : BitVec 4) (s : State) : Next := unary g d a s (fun a => a)
/-- ADDI (R172). -/
def execAddi (g d a : BitVec 4) (i : BitVec 14) (s : State) : Next := unary g d a s (fun a => a + simm14 i)
/-- ANDI (R172). -/
def execAndi (g d a : BitVec 4) (i : BitVec 14) (s : State) : Next := unary g d a s (fun a => a &&& simm14 i)
/-- ORI (R172). -/
def execOri (g d a : BitVec 4) (i : BitVec 14) (s : State) : Next := unary g d a s (fun a => a ||| zimm14 i)
/-- XORI (R172). -/
def execXori (g d a : BitVec 4) (i : BitVec 14) (s : State) : Next := unary g d a s (fun a => a ^^^ simm14 i)
/-- SHLI (R172). -/
def execShli (g d a : BitVec 4) (i : BitVec 5) (s : State) : Next := unary g d a s (fun a => a <<< i.toNat)
/-- SHRI (R172). -/
def execShri (g d a : BitVec 4) (i : BitVec 5) (s : State) : Next := unary g d a s (fun a => a >>> i.toNat)
/-- SARI (R172). -/
def execSari (g d a : BitVec 4) (i : BitVec 5) (s : State) : Next := unary g d a s (fun a => a.sshiftRight i.toNat)
/-- ROLI (R172). -/
def execRoli (g d a : BitVec 4) (i : BitVec 5) (s : State) : Next := unary g d a s (fun a => rotl32 a i.toNat)
/-- LIH (R173). -/
def execLih (g d : BitVec 4) (i : BitVec 18) (s : State) : Next := regForm g 1 s (fun t => t.ws d (i ++ 0#14))

/-! ## Compares and predicates (R174, R175) -/

/-- A compare's predicate, anded with the old one when Z is 1. -/
def Thread.compare (t : Thread) (p : BitVec 3) (z : BitVec 1) (c : Bool) : Thread :=
  t.wp p (if z == 0 then c else t.rp p && c)

/-- CMP (R174). -/
def execCmp (g : BitVec 4) (p : BitVec 3) (z : BitVec 1) (a b c : BitVec 4) (s : State) : Next :=
  regForm g 1 s (fun t => t.compare p z (condition c (t.rs a) (t.rs b)))
/-- CMPI (R174). -/
def execCmpi (g : BitVec 4) (p : BitVec 3) (z : BitVec 1) (a : BitVec 4) (i : BitVec 10) (c : BitVec 4) (s : State) : Next :=
  regForm g 1 s (fun t => t.compare p z (condition c (t.rs a) (i.signExtend 32)))

/-- A form on predicates. -/
def predForm (g : BitVec 4) (p a b : BitVec 3) (s : State) (f : Bool → Bool → Bool) : Next :=
  regForm g 1 s (fun t => t.wp p (f (t.rp a) (t.rp b)))
/-- PAND (R175). -/
def execPand (g : BitVec 4) (p a b : BitVec 3) (s : State) : Next := predForm g p a b s (fun a b => a && b)
/-- POR (R175). -/
def execPor (g : BitVec 4) (p a b : BitVec 3) (s : State) : Next := predForm g p a b s (fun a b => a || b)
/-- PXOR (R175). -/
def execPxor (g : BitVec 4) (p a b : BitVec 3) (s : State) : Next := predForm g p a b s (fun a b => a != b)
/-- PANDN (R175). -/
def execPandn (g : BitVec 4) (p a b : BitVec 3) (s : State) : Next := predForm g p a b s (fun a b => a && !b)
/-- PRDW (R175). -/
def execPrdw (g d : BitVec 4) (s : State) : Next := regForm g 1 s (fun t => t.ws d (t.pword.setWidth 32))
/-- PWRW (R175). -/
def execPwrw (g d : BitVec 4) (s : State) : Next :=
  regForm g 1 s (fun t => { t with p := (t.rs d).setWidth 8 ||| 1, poison := t.poison.filter (· != pWord) })

/-! ## Address pairs (R179, R180) -/

/-- PADD (R179). -/
def execPadd (g : BitVec 4) (d a b : BitVec 3) (s : State) : Next := regForm g 1 s (fun t => t.wa d (t.ra a + t.ra b))
/-- PADDS (R179). -/
def execPadds (g : BitVec 4) (d a b sh : BitVec 3) (s : State) : Next :=
  regForm g 1 s (fun t => t.wa d (t.ra a + (t.pairLow b).signExtend 64 <<< sh.toNat))
/-- PADDU (R179). -/
def execPaddu (g : BitVec 4) (d a b sh : BitVec 3) (s : State) : Next :=
  regForm g 1 s (fun t => t.wa d (t.ra a + (t.pairLow b).setWidth 64 <<< sh.toNat))
/-- PSUB (R179). -/
def execPsub (g : BitVec 4) (d a b : BitVec 3) (s : State) : Next := regForm g 1 s (fun t => t.wa d (t.ra a - t.ra b))
/-- PMOV (R179). -/
def execPmov (g : BitVec 4) (d a : BitVec 3) (s : State) : Next := regForm g 1 s (fun t => t.wa d (t.ra a))
/-- PADDI (R180). -/
def execPaddi (g : BitVec 4) (d a : BitVec 3) (i : BitVec 14) (s : State) : Next :=
  regForm g 1 s (fun t => t.wa d (t.ra a + i.signExtend 64))

end Sys2Proof.Machine
end

