-- ==== Sys2Proof/Machine/Dispatch.lean ====
section
/-! DEFINITION. Which meaning each instruction has. -/

namespace Sys2Proof.Machine

def exec (i : Instr) (s : State) : Host.Outcome State Fault Refusal :=
  match i with
  | .nop g => Sys2Proof.Machine.execNop g s
  | .halt g => Sys2Proof.Machine.execHalt g s
  | .idle g => Sys2Proof.Machine.execIdle g s
  | .trap g ix => Sys2Proof.Machine.execTrap g ix s
  | .eret g => Sys2Proof.Machine.execEret g s
  | .bkpt g ix => Sys2Proof.Machine.execBkpt g ix s
  | .rdcyc g d w => Sys2Proof.Machine.execRdcyc g d w s
  | .rdtime g d w => Sys2Proof.Machine.execRdtime g d w s
  | .rdsig g d w => Sys2Proof.Machine.execRdsig g d w s
  | .lnch g d a r => Sys2Proof.Machine.execLnch g d a r s
  | .l1inv g => Sys2Proof.Machine.execL1inv g s
  | .add g d a b => Sys2Proof.Machine.execAdd g d a b s
  | .sub g d a b => Sys2Proof.Machine.execSub g d a b s
  | .and g d a b => Sys2Proof.Machine.execAnd g d a b s
  | .or g d a b => Sys2Proof.Machine.execOr g d a b s
  | .xor g d a b => Sys2Proof.Machine.execXor g d a b s
  | .andn g d a b => Sys2Proof.Machine.execAndn g d a b s
  | .shl g d a b => Sys2Proof.Machine.execShl g d a b s
  | .shr g d a b => Sys2Proof.Machine.execShr g d a b s
  | .sar g d a b => Sys2Proof.Machine.execSar g d a b s
  | .rol g d a b => Sys2Proof.Machine.execRol g d a b s
  | .mul g d a b => Sys2Proof.Machine.execMul g d a b s
  | .mulh g d a b => Sys2Proof.Machine.execMulh g d a b s
  | .mulhu g d a b => Sys2Proof.Machine.execMulhu g d a b s
  | .div g d a b => Sys2Proof.Machine.execDiv g d a b s
  | .divu g d a b => Sys2Proof.Machine.execDivu g d a b s
  | .rem g d a b => Sys2Proof.Machine.execRem g d a b s
  | .remu g d a b => Sys2Proof.Machine.execRemu g d a b s
  | .min g d a b => Sys2Proof.Machine.execMin g d a b s
  | .max g d a b => Sys2Proof.Machine.execMax g d a b s
  | .minu g d a b => Sys2Proof.Machine.execMinu g d a b s
  | .maxu g d a b => Sys2Proof.Machine.execMaxu g d a b s
  | .clz g d a => Sys2Proof.Machine.execClz g d a s
  | .ctz g d a => Sys2Proof.Machine.execCtz g d a s
  | .popc g d a => Sys2Proof.Machine.execPopc g d a s
  | .brev g d a => Sys2Proof.Machine.execBrev g d a s
  | .sextb g d a => Sys2Proof.Machine.execSextb g d a s
  | .sexth g d a => Sys2Proof.Machine.execSexth g d a s
  | .zextb g d a => Sys2Proof.Machine.execZextb g d a s
  | .zexth g d a => Sys2Proof.Machine.execZexth g d a s
  | .mov g d a => Sys2Proof.Machine.execMov g d a s
  | .slt g d a b => Sys2Proof.Machine.execSlt g d a b s
  | .sltu g d a b => Sys2Proof.Machine.execSltu g d a b s
  | .addi g d a ix => Sys2Proof.Machine.execAddi g d a ix s
  | .andi g d a ix => Sys2Proof.Machine.execAndi g d a ix s
  | .ori g d a ix => Sys2Proof.Machine.execOri g d a ix s
  | .xori g d a ix => Sys2Proof.Machine.execXori g d a ix s
  | .shli g d a sx => Sys2Proof.Machine.execShli g d a sx s
  | .shri g d a sx => Sys2Proof.Machine.execShri g d a sx s
  | .sari g d a sx => Sys2Proof.Machine.execSari g d a sx s
  | .roli g d a sx => Sys2Proof.Machine.execRoli g d a sx s
  | .lih g d ix => Sys2Proof.Machine.execLih g d ix s
  | .cmp g p z a b c => Sys2Proof.Machine.execCmp g p z a b c s
  | .cmpi g p z a ix c => Sys2Proof.Machine.execCmpi g p z a ix c s
  | .pand g p a b => Sys2Proof.Machine.execPand g p a b s
  | .por g p a b => Sys2Proof.Machine.execPor g p a b s
  | .pxor g p a b => Sys2Proof.Machine.execPxor g p a b s
  | .pandn g p a b => Sys2Proof.Machine.execPandn g p a b s
  | .prdw g d => Sys2Proof.Machine.execPrdw g d s
  | .pwrw g d => Sys2Proof.Machine.execPwrw g d s
  | .br g o => Sys2Proof.Machine.execBr g o s
  | .brl g o => Sys2Proof.Machine.execBrl g o s
  | .jr g a => Sys2Proof.Machine.execJr g a s
  | .jrl g a => Sys2Proof.Machine.execJrl g a s
  | .padd g d a b => Sys2Proof.Machine.execPadd g d a b s
  | .padds g d a b sx => Sys2Proof.Machine.execPadds g d a b sx s
  | .paddu g d a b sx => Sys2Proof.Machine.execPaddu g d a b sx s
  | .psub g d a b => Sys2Proof.Machine.execPsub g d a b s
  | .pmov g d a => Sys2Proof.Machine.execPmov g d a s
  | .rep c ix j k => Sys2Proof.Machine.execRep c ix j k s
  | .ldb g d bp h off => Sys2Proof.Machine.execLdb g d bp h off s
  | .ldbu g d bp h off => Sys2Proof.Machine.execLdbu g d bp h off s
  | .ldh g d bp h off => Sys2Proof.Machine.execLdh g d bp h off s
  | .ldhu g d bp h off => Sys2Proof.Machine.execLdhu g d bp h off s
  | .ldw g d bp h off => Sys2Proof.Machine.execLdw g d bp h off s
  | .ldd g d bp h off => Sys2Proof.Machine.execLdd g d bp h off s
  | .lda g d bp sc h off => Sys2Proof.Machine.execLda g d bp sc h off s
  | .stb g d bp h off => Sys2Proof.Machine.execStb g d bp h off s
  | .sth g d bp h off => Sys2Proof.Machine.execSth g d bp h off s
  | .stw g d bp h off => Sys2Proof.Machine.execStw g d bp h off s
  | .std g d bp h off => Sys2Proof.Machine.execStd g d bp h off s
  | .str g d bp sc h off => Sys2Proof.Machine.execStr g d bp sc h off s
  | .aadd g d bp nr sz h off => Sys2Proof.Machine.execAadd g d bp nr sz h off s
  | .amin g d bp nr sz h off => Sys2Proof.Machine.execAmin g d bp nr sz h off s
  | .amax g d bp nr sz h off => Sys2Proof.Machine.execAmax g d bp nr sz h off s
  | .aminu g d bp nr sz h off => Sys2Proof.Machine.execAminu g d bp nr sz h off s
  | .amaxu g d bp nr sz h off => Sys2Proof.Machine.execAmaxu g d bp nr sz h off s
  | .aand g d bp nr sz h off => Sys2Proof.Machine.execAand g d bp nr sz h off s
  | .aor g d bp nr sz h off => Sys2Proof.Machine.execAor g d bp nr sz h off s
  | .axor g d bp nr sz h off => Sys2Proof.Machine.execAxor g d bp nr sz h off s
  | .aswp g d bp nr sz h off => Sys2Proof.Machine.execAswp g d bp nr sz h off s
  | .acas g d bp nr sz h off => Sys2Proof.Machine.execAcas g d bp nr sz h off s
  | .aaddf g d bp nr h off => Sys2Proof.Machine.execAaddf g d bp nr h off s
  | .ldtL g d bp h off => Sys2Proof.Machine.execLdtL g d bp h off s
  | .ldtQ g d bp h off => Sys2Proof.Machine.execLdtQ g d bp h off s
  | .ldtS g d bp h off => Sys2Proof.Machine.execLdtS g d bp h off s
  | .ldtC g d bp cw h off => Sys2Proof.Machine.execLdtC g d bp cw h off s
  | .rdmv g v a => Sys2Proof.Machine.execRdmv g v a s
  | .rdms g a b => Sys2Proof.Machine.execRdms g a b s
  | .tkdrop g a => Sys2Proof.Machine.execTkdrop g a s
  | .tktst g p a => Sys2Proof.Machine.execTktst g p a s
  | .rdmw g => Sys2Proof.Machine.execRdmw g s
  | .fence g sx => Sys2Proof.Machine.execFence g sx s
  | .fencee g sx => Sys2Proof.Machine.execFencee g sx s
  | .acq g sx => Sys2Proof.Machine.execAcq g sx s
  | .rel g sx => Sys2Proof.Machine.execRel g sx s
  | .send g a b => Sys2Proof.Machine.execSend g a b s
  | .waitm g d c => Sys2Proof.Machine.execWaitm g d c s
  | .pollm g d a c => Sys2Proof.Machine.execPollm g d a c s
  | .mbind g a c => Sys2Proof.Machine.execMbind g a c s
  | .munbind g c => Sys2Proof.Machine.execMunbind g c s
  | .bar g m => Sys2Proof.Machine.execBar g m s
  | .barx g d a m r => Sys2Proof.Machine.execBarx g d a m r s
  | .garv g d m => Sys2Proof.Machine.execGarv g d m s
  | .gwt g a m => Sys2Proof.Machine.execGwt g a m s
  | .enqm g d v => Sys2Proof.Machine.execEnqm g d v s
  | .enqmR g d v => Sys2Proof.Machine.execEnqmR g d v s
  | .enqc g d v => Sys2Proof.Machine.execEnqc g d v s
  | .enqcR g d v => Sys2Proof.Machine.execEnqcR g d v s
  | .mwait g d sx => Sys2Proof.Machine.execMwait g d sx s
  | .cwait g sx => Sys2Proof.Machine.execCwait g sx s
  | .cstat g d sx => Sys2Proof.Machine.execCstat g d sx s
  | .csrr g d c => Sys2Proof.Machine.execCsrr g d c s
  | .csrw g a c => Sys2Proof.Machine.execCsrw g a c s
  | .csrs g d a c => Sys2Proof.Machine.execCsrs g d a c s
  | .csrc g d a c => Sys2Proof.Machine.execCsrc g d a c s
  | .tjins g d a b => Sys2Proof.Machine.execTjins g d a b s
  | .tjsmp g d a b => Sys2Proof.Machine.execTjsmp g d a b s
  | .tjpri g d a b => Sys2Proof.Machine.execTjpri g d a b s
  | .tjevt g d a b => Sys2Proof.Machine.execTjevt g d a b s
  | .tjver g d a b => Sys2Proof.Machine.execTjver g d a b s
  | .tjqry g d a b => Sys2Proof.Machine.execTjqry g d a b s
  | .tjget g d a b => Sys2Proof.Machine.execTjget g d a b s
  | .axpush g d a b => Sys2Proof.Machine.execAxpush g d a b s
  | .axpop g d a b => Sys2Proof.Machine.execAxpop g d a b s
  | .axdepth g d a b => Sys2Proof.Machine.execAxdepth g d a b s
  | .axdrop g d a b => Sys2Proof.Machine.execAxdrop g d a b s
  | .go g a => Sys2Proof.Machine.execGo g a s
  | .gohome g => Sys2Proof.Machine.execGohome g s
  | .paddi g d a ix => Sys2Proof.Machine.execPaddi g d a ix s
  | .qpush g d q => Sys2Proof.Machine.execQpush g d q s
  | .qpop g d q => Sys2Proof.Machine.execQpop g d q s
  | .qtry g d p q => Sys2Proof.Machine.execQtry g d p q s
  | .qpushv g v q => Sys2Proof.Machine.execQpushv g v q s
  | .qpopv g v q => Sys2Proof.Machine.execQpopv g v q s
  | .vadd d a b t => Sys2Proof.Machine.execVadd d a b t s
  | .vsub d a b t => Sys2Proof.Machine.execVsub d a b t s
  | .vmin d a b t => Sys2Proof.Machine.execVmin d a b t s
  | .vmax d a b t => Sys2Proof.Machine.execVmax d a b t s
  | .vmul d a b t => Sys2Proof.Machine.execVmul d a b t s
  | .vfma d a b t => Sys2Proof.Machine.execVfma d a b t s
  | .vfms d a b t => Sys2Proof.Machine.execVfms d a b t s
  | .vfnma d a b t => Sys2Proof.Machine.execVfnma d a b t s
  | .vadds d a b t => Sys2Proof.Machine.execVadds d a b t s
  | .vsubs d a b t => Sys2Proof.Machine.execVsubs d a b t s
  | .vmulh d a b t => Sys2Proof.Machine.execVmulh d a b t s
  | .vabs d a t => Sys2Proof.Machine.execVabs d a t s
  | .vand d a b => Sys2Proof.Machine.execVand d a b s
  | .vor d a b => Sys2Proof.Machine.execVor d a b s
  | .vxor d a b => Sys2Proof.Machine.execVxor d a b s
  | .vandn d a b => Sys2Proof.Machine.execVandn d a b s
  | .vshl d a b t => Sys2Proof.Machine.execVshl d a b t s
  | .vshr d a b t => Sys2Proof.Machine.execVshr d a b t s
  | .vsar d a b t => Sys2Proof.Machine.execVsar d a b t s
  | .vrol d a b t => Sys2Proof.Machine.execVrol d a b t s
  | .vceq d a b t => Sys2Proof.Machine.execVceq d a b t s
  | .vcne d a b t => Sys2Proof.Machine.execVcne d a b t s
  | .vclt d a b t => Sys2Proof.Machine.execVclt d a b t s
  | .vcle d a b t => Sys2Proof.Machine.execVcle d a b t s
  | .vcltu d a b t => Sys2Proof.Machine.execVcltu d a b t s
  | .vcleu d a b t => Sys2Proof.Machine.execVcleu d a b t s
  | .vcun d a b t => Sys2Proof.Machine.execVcun d a b t s
  | .vcnf d a t => Sys2Proof.Machine.execVcnf d a t s
  | .vwadd d a b t => Sys2Proof.Machine.execVwadd d a b t s
  | .vwmul d a b t => Sys2Proof.Machine.execVwmul d a b t s
  | .vwmac d a b t => Sys2Proof.Machine.execVwmac d a b t s
  | .vwsum d a b t => Sys2Proof.Machine.execVwsum d a b t s
  | .vhadd d a b t => Sys2Proof.Machine.execVhadd d a b t s
  | .vhmax d a b t => Sys2Proof.Machine.execVhmax d a b t s
  | .vhmin d a b t => Sys2Proof.Machine.execVhmin d a b t s
  | .vscan d a b t => Sys2Proof.Machine.execVscan d a b t s
  | .vzipl d a b t => Sys2Proof.Machine.execVzipl d a b t s
  | .vziph d a b t => Sys2Proof.Machine.execVziph d a b t s
  | .vunzl d a b t => Sys2Proof.Machine.execVunzl d a b t s
  | .vunzh d a b t => Sys2Proof.Machine.execVunzh d a b t s
  | .vshuf d a b t => Sys2Proof.Machine.execVshuf d a b t s
  | .vsel d a b t => Sys2Proof.Machine.execVsel d a b t s
  | .vrev d a t => Sys2Proof.Machine.execVrev d a t s
  | .vdupl d a t => Sys2Proof.Machine.execVdupl d a t s
  | .vcvt d a sx t r x => Sys2Proof.Machine.execVcvt d a sx t r x s
  | .vqblk d a sx t => Sys2Proof.Machine.execVqblk d a sx t s
  | .vmxdec d a sx t => Sys2Proof.Machine.execVmxdec d a sx t s
  | .vdec d a sx => Sys2Proof.Machine.execVdec d a sx s
  | .venc d a sx => Sys2Proof.Machine.execVenc d a sx s
  | .vrcp d a => Sys2Proof.Machine.execVrcp d a s
  | .vrsq d a => Sys2Proof.Machine.execVrsq d a s
  | .vexp2 d a => Sys2Proof.Machine.execVexp2 d a s
  | .vlog2 d a => Sys2Proof.Machine.execVlog2 d a s
  | .vsqrt d a => Sys2Proof.Machine.execVsqrt d a s
  | .vdiv d a b => Sys2Proof.Machine.execVdiv d a b s
  | .vflr d a t => Sys2Proof.Machine.execVflr d a t s
  | .vrnd d a t => Sys2Proof.Machine.execVrnd d a t s
  | .vrng d sx => Sys2Proof.Machine.execVrng d sx s
  | .vrngf d sx t => Sys2Proof.Machine.execVrngf d sx t s
  | .vmovs d sx t => Sys2Proof.Machine.execVmovs d sx t s
  | .vins d ix sx t => Sys2Proof.Machine.execVins d ix sx t s
  | .vext ix a sx t => Sys2Proof.Machine.execVext ix a sx t s
  | .kmovs k sx => Sys2Proof.Machine.execKmovs k sx s
  | .kext k sx => Sys2Proof.Machine.execKext k sx s
  | .vaddi d a ix t => Sys2Proof.Machine.execVaddi d a ix t s
  | .vspli d ix t => Sys2Proof.Machine.execVspli d ix t s
  | .vshli d a ix t => Sys2Proof.Machine.execVshli d a ix t s
  | .vshri d a ix t => Sys2Proof.Machine.execVshri d a ix t s
  | .vsari d a ix t => Sys2Proof.Machine.execVsari d a ix t s
  | .vextb d a ix => Sys2Proof.Machine.execVextb d a ix s
  | .kand d a b => Sys2Proof.Machine.execKand d a b s
  | .kor d a b => Sys2Proof.Machine.execKor d a b s
  | .kxor d a b => Sys2Proof.Machine.execKxor d a b s
  | .knot d a => Sys2Proof.Machine.execKnot d a s
  | .vdot4 d a b => Sys2Proof.Machine.execVdot4 d a b s
  | .vdot4u d a b => Sys2Proof.Machine.execVdot4u d a b s
  | .vdot2b d a b => Sys2Proof.Machine.execVdot2b d a b s
  | .vdot2h d a b => Sys2Proof.Machine.execVdot2h d a b s
  | .ldv d bp h off => Sys2Proof.Machine.execLdv d bp h off s
  | .ldvp d bp h off => Sys2Proof.Machine.execLdvp d bp h off s
  | .ldvc d bp cw h off => Sys2Proof.Machine.execLdvc d bp cw h off s
  | .stv d bp h off => Sys2Proof.Machine.execStv d bp h off s
  | .stvp d bp h off => Sys2Proof.Machine.execStvp d bp h off s
  | .stvc d bp cw h off => Sys2Proof.Machine.execStvc d bp cw h off s
  | .vaadd d bp bs rm t h off => Sys2Proof.Machine.execVaadd d bp bs rm t h off s
  | .ldvb d bp t h off => Sys2Proof.Machine.execLdvb d bp t h off s
  | .mma x y slot => Sys2Proof.Machine.execMma x y slot s
  | .mmai x y slot => Sys2Proof.Machine.execMmai x y slot s
  | .mepi x y slot => Sys2Proof.Machine.execMepi x y slot s
  | .copy x y slot => Sys2Proof.Machine.execCopy x y slot s
  | .slab x y slot => Sys2Proof.Machine.execSlab x y slot s
  | .gather x y slot => Sys2Proof.Machine.execGather x y slot s
  | .fill x y slot => Sys2Proof.Machine.execFill x y slot s
  | .ccvt x y slot => Sys2Proof.Machine.execCcvt x y slot s
  | .cred x y slot => Sys2Proof.Machine.execCred x y slot s
  | .optadam x y slot => Sys2Proof.Machine.execOptadam x y slot s
  | .optsgd x y slot => Sys2Proof.Machine.execOptsgd x y slot s
  | .engineChunk x y slot => Sys2Proof.Machine.execEngineChunk x y slot s
  | .commandCompletion x y slot mtx => Sys2Proof.Machine.execCommandCompletion x y slot mtx s
  | .gangStart gang slot => Sys2Proof.Machine.execGangStart gang slot s
  | .deferredEngineError => Sys2Proof.Machine.execDeferredEngineError s
  | .sliceRequest n => Sys2Proof.Machine.execSliceRequest n s
  | .sectorFill n => Sys2Proof.Machine.execSectorFill n s
  | .tableWalk n => Sys2Proof.Machine.execTableWalk n s
  | .lineArrival n => Sys2Proof.Machine.execLineArrival n s
  | .remoteScratchpadRequest n => Sys2Proof.Machine.execRemoteScratchpadRequest n s
  | .ticketFetch n => Sys2Proof.Machine.execTicketFetch n s
  | .ticketFetchEnd n => Sys2Proof.Machine.execTicketFetchEnd n s
  | .redemption n => Sys2Proof.Machine.execRedemption n s
  | .rdmsDelivery n => Sys2Proof.Machine.execRdmsDelivery n s
  | .retireNotice n => Sys2Proof.Machine.execRetireNotice n s
  | .ticketReclaim n => Sys2Proof.Machine.execTicketReclaim n s
  | .messageArrival n => Sys2Proof.Machine.execMessageArrival n s
  | .barrierArrival n => Sys2Proof.Machine.execBarrierArrival n s
  | .migrationArrival n => Sys2Proof.Machine.execMigrationArrival n s
  | .combOperation die => Sys2Proof.Machine.execCombOperation die s
  | .combAnswer n => Sys2Proof.Machine.execCombAnswer n s
  | .spill p st => Sys2Proof.Machine.execSpill p st s
  | .spillComplete p st => Sys2Proof.Machine.execSpillComplete p st s
  | .recall p st => Sys2Proof.Machine.execRecall p st s
  | .recallComplete p st => Sys2Proof.Machine.execRecallComplete p st s
  | .ringEntryRead p r => Sys2Proof.Machine.execRingEntryRead p r s
  | .dependenceRead p lid k => Sys2Proof.Machine.execDependenceRead p lid k s
  | .dependenceReread p => Sys2Proof.Machine.execDependenceReread p s
  | .launchAgeing p lid => Sys2Proof.Machine.execLaunchAgeing p lid s
  | .groupTableRead p lid => Sys2Proof.Machine.execGroupTableRead p lid s
  | .launchDispatch p lid => Sys2Proof.Machine.execLaunchDispatch p lid s
  | .launchRetirement p lid => Sys2Proof.Machine.execLaunchRetirement p lid s
  | .doneIncrement p lid => Sys2Proof.Machine.execDoneIncrement p lid s
  | .watchdog p lid idx => Sys2Proof.Machine.execWatchdog p lid idx s
  | .occupancyRecompute => Sys2Proof.Machine.execOccupancyRecompute s
  | .pwr watts temp => Sys2Proof.Machine.execPwr watts temp s
  | .droopTrip q eighths => Sys2Proof.Machine.execDroopTrip q eighths s
  | .powerLimit near => Sys2Proof.Machine.execPowerLimit near s
  | .pin q => Sys2Proof.Machine.execPin q s
  | .unpin q => Sys2Proof.Machine.execUnpin q s
  | .pageAnswer p v => Sys2Proof.Machine.execPageAnswer p v s
  | .raise p v => Sys2Proof.Machine.execRaise p v s
  | .invalidationComplete p => Sys2Proof.Machine.execInvalidationComplete p s
  | .sweepComplete p => Sys2Proof.Machine.execSweepComplete p s
  | .prqcfg p v => Sys2Proof.Machine.execPrqcfg p v s
  | .tail p r v => Sys2Proof.Machine.execTail p r v s
  | .evhead fn v => Sys2Proof.Machine.execEvhead fn v s
  | .axtbl p v => Sys2Proof.Machine.execAxtbl p v s
  | .tjtbl p v => Sys2Proof.Machine.execTjtbl p v s
  | .clr die v => Sys2Proof.Machine.execClr die v s
  | .registerWrite block idx off v => Sys2Proof.Machine.execRegisterWrite block idx off v s
  | .create p => Sys2Proof.Machine.execCreate p s
  | .reshape p => Sys2Proof.Machine.execReshape p s
  | .destroy p => Sys2Proof.Machine.execDestroy p s
  | .stop p => Sys2Proof.Machine.execStop p s
  | .resume p => Sys2Proof.Machine.execResume p s
  | .save p => Sys2Proof.Machine.execSave p s
  | .restore p => Sys2Proof.Machine.execRestore p s
  | .opUndefined p op => Sys2Proof.Machine.execOpUndefined p op s
  | .stopHalt p => Sys2Proof.Machine.execStopHalt p s
  | .flushToken p x y => Sys2Proof.Machine.execFlushToken p x y s
  | .load => Sys2Proof.Machine.execLoad s
  | .nexta => Sys2Proof.Machine.execNexta s
  | .nextb => Sys2Proof.Machine.execNextb s
  | .commit => Sys2Proof.Machine.execCommit s
  | .fwopUndefined op => Sys2Proof.Machine.execFwopUndefined op s
  | .fwVerifyDone => Sys2Proof.Machine.execFwVerifyDone s
  | .atgo v => Sys2Proof.Machine.execAtgo v s
  | .moduleReset => Sys2Proof.Machine.execModuleReset s
  | .imageVerified => Sys2Proof.Machine.execImageVerified s
  | .dieReady d => Sys2Proof.Machine.execDieReady d s
  | .dieFailed d => Sys2Proof.Machine.execDieFailed d s
  | .functionLevelReset p => Sys2Proof.Machine.execFunctionLevelReset p s
  | .vectorUnmask fn vector => Sys2Proof.Machine.execVectorUnmask fn vector s
  | .cxlMemAccess dec pa w => Sys2Proof.Machine.execCxlMemAccess dec pa w s
  | .hostSnoop hpa => Sys2Proof.Machine.execHostSnoop hpa s
  | .inboundSwarmRequest die src peer pa op => Sys2Proof.Machine.execInboundSwarmRequest die src peer pa op s
  | .linkStateChange die up peer => Sys2Proof.Machine.execLinkStateChange die up peer s
  | .flitRetry die swarm p lid => Sys2Proof.Machine.execFlitRetry die swarm p lid s
  | .smbusRequest rq => Sys2Proof.Machine.execSmbusRequest rq s
  | .adoptNewGen n => Sys2Proof.Machine.execAdoptNewGen n s
  | .writeBackComplete n => Sys2Proof.Machine.execWriteBackComplete n s
  | .swarmAnswer n ok data => Sys2Proof.Machine.execSwarmAnswer n ok data s
  | .stackOperation die => Sys2Proof.Machine.execStackOperation die s
  | .wakeReachesCore n => Sys2Proof.Machine.execWakeReachesCore n s
  | .partitionCommandEnded p err => Sys2Proof.Machine.execPartitionCommandEnded p err s
  | .evbase fn v => Sys2Proof.Machine.execEvbase fn v s
  | .droopRecovery q => Sys2Proof.Machine.execDroopRecovery q s
  | .firmwareRunsOnEveryDie => Sys2Proof.Machine.execFirmwareRunsOnEveryDie s
  | .jtagInstruction ir => Sys2Proof.Machine.execJtagInstruction ir s

end Sys2Proof.Machine
end

