-- ==== Sys2Proof/Machine/Registers.lean ====
section
/-! DEFINITION. What the host reads: the registers of PF0 and of the partitions' functions (R4, R5, R85, R86, R101, R349, R352,
R370, R375, R376, R380) and the capability table (R360). A field with no access of its own, and every WO field, reads as zero. -/

namespace Sys2Proof.Machine

/-- A field's value at its place. -/
def fieldAt (v lo : Nat) : Nat := v * 2 ^ lo
def flagAt (b : Bool) (lo : Nat) : Nat := if b then 2 ^ lo else 0

/-- STATE as PSTAT reads (R352). -/
def PState.code (x : PState) : Nat :=
  match x with
  | .free => 0
  | .running => 1
  | .stopped => 2
  | .saved => 3

/-! ## The blocks -/

/-- The translation block of a partition (R85, R86). -/
def Part.readXlate (x : Part) (off : Nat) : DWord :=
  match off with
  | 0x00 => x.xroot
  | 0x08 => .ofNat 64 (x.ctxgen.toNat * 2 ^ 16 + x.gen.toNat)
  | 0x18 => .ofNat 64 (fieldAt x.done.toNat 16 + flagAt x.swp 2 + flagAt x.inv 1 + flagAt x.pend 0)
  | 0x20 => x.prqbase
  | 0x28 => .ofNat 64 (fieldAt x.prqhead 32 + x.prqlog)
  | 0x30 => .ofNat 64 x.prqtail
  | _ => 0

/-- The occupancy block (R101). -/
def Part.readOcc (x : Part) (off : Nat) : DWord :=
  if off = 0 then .ofNat 64 x.occlim else .ofNat 64 (flagAt x.overrun 31 + x.occcnt)

/-- The error-count block of a die (R349). -/
def Errs.read (e : Errs) (off : Nat) : DWord :=
  [e.cedram, e.cefen, e.cesram, e.cellc, e.cetree, e.cemtx, e.uecnt, e.tbrk, e.lnkrt].getD (off / 8) 0

/-- The partition block (R352). -/
def Part.readBlock (x : Part) (off : Nat) : DWord :=
  match off with
  | 0x00 => x.pshape
  | 0x08 => x.pctl
  | 0x10 => x.pmem
  | 0x18 => x.plink
  | 0x20 => x.pgrant
  | 0x30 => .ofNat 64 (fieldAt x.code 48 + flagAt x.busy 8 + x.state.code)
  | 0x38 => x.pcur
  | 0x40 => x.pctx
  | 0x48 => x.ctxlen
  | 0x50 => x.stopt
  | _ => 0

/-- The event registers of a function (R370); st is its STATE field. -/
def Fn.read (f : Fn) (st off : Nat) : DWord :=
  match off with
  | 0x40 => f.evbase
  | 0x48 => .ofNat 64 (fieldAt f.evhead 32 + f.evlog)
  | 0x50 => .ofNat 64 f.evtail
  | 0x58 => .ofNat 64 (fieldAt f.rcnt.toNat 16 + flagAt f.rerr 5 + flagAt f.ovf 4 + st)
  | 0x78 => f.evlost
  | _ => 0

/-- The register page of partition p's function (R370). -/
def State.readVf (s : State) (p off : Nat) : DWord :=
  let x := s.part p
  if off < 0x40 then
    match (x.rings.toList)[off / 16]? with
    | some r => if off % 16 = 0 then r.base else .ofNat 64 (fieldAt r.tail 32 + fieldAt r.log 16 + r.head)
    | none => 0
  else match off with
    | 0x60 => x.axtbl
    | 0x68 => x.tjtbl
    | 0x70 => x.wdog.setWidth 64
    | _ => (s.fn (p + 1)).read x.state.code off

/-- The management block at an instant (R380). -/
def Mgmt.read (m : Mgmt) (now off : Nat) : DWord :=
  match off with
  | 0x00 => .ofNat 64 (fieldAt m.dfail.toNat 32 + fieldAt m.dready.toNat 16 + m.stage)
  | 0x08 => .ofNat 64 (fieldAt m.svna.toNat 48 + fieldAt m.svnb.toNat 32 + fieldAt m.svnmin.toNat 16 + flagAt m.next 3
              + flagAt m.bval 2 + flagAt m.aval 1 + flagAt m.act 0)
  | 0x10 => m.fwaddr
  | 0x18 => m.fwlen
  | 0x28 => .ofNat 64 (flagAt m.fwbusy 8 + m.fwcode)
  | 0x30 => m.ataddr
  | 0x38 => .ofNat 64 m.atpart
  | 0x40 => .ofNat 64 (flagAt (decide (now < m.atend)) 8 + m.atcode)
  | 0x48 | 0x50 | 0x58 | 0x60 => m.idpub.extractLsb' (8 * (off - 0x48)) 64
  | 0x68 => m.pwr.setWidth 64
  | 0x70 => m.tmax.setWidth 64
  | 0x78 => m.logcnt
  | _ => 0

/-! ## The capability table (R360) -/

/-- A record of a type with its value words. -/
def capRecord (type : Nat) (ws : List Nat) : List Word :=
  (BitVec.ofNat 32 (fieldAt (4 + 4 * ws.length) 16 + type)) :: ws.map (BitVec.ofNat 32)

/-- STATE of a quad: 0 not ready, 1 ready, 2 failed (R360, R378). -/
def State.quadState (s : State) (q : Nat) : Nat :=
  if s.mgmt.dfail.getLsbD (quadDie q) then 2 else if s.mgmt.dready.getLsbD (quadDie q) then 1 else 0

/-- The table's words. -/
def State.capTable (s : State) : List Word :=
  capRecord 1 [s.capgen.toNat, fieldAt 640 16 + fieldAt 16 8 + 1]
  ++ (List.range 320).flatMap (fun q =>
      capRecord 2 [fieldAt q 23 + fieldAt (s.freeSlots q) 7 + flagAt (s.clock q).pinned 3 + s.quadState q])
  ++ capRecord 3 [fieldAt 4096 16 + fieldAt 16 8 + 16]
  ++ capRecord 4 [fieldAt 2048 16 + 1024, fieldAt 64 16 + 2048]
  ++ (List.range 16).flatMap (fun d => capRecord 5 [fieldAt 4096 12 + fieldAt (s.freeStores d) 4 + d])
  ++ (List.range 32).flatMap (fun i =>
      let n := tierLength (i % 2)
      capRecord 6 [fieldAt (i % 2) 4 + i / 2, 0, n % 2 ^ 32, n / 2 ^ 32])
  ++ (List.range 16).flatMap (fun d =>
      capRecord 7 [fieldAt 224 16 + flagAt (Table.getD s.links d {}).up 8 + fieldAt 8 4 + d])
  ++ capRecord 8 [fieldAt 1 16 + 1]
  ++ capRecord 9 [fieldAt 640 16 + 700, fieldAt 100 16 + 800]
  ++ capRecord 10 [fieldAt 256 16 + fieldAt 4 8 + 64, fieldAt 600 16 + fieldAt 64 8 + 16, powerLimit, 0]
  ++ capRecord 0xFFFF []

/-! ## Reads -/

/-- The doubleword at an offset of PF0's BAR0; an offset that no rule gives a register reads as zero. -/
def State.readPf0 (s : State) (a : Nat) : DWord :=
  if a < 0x100000 then 0
  else if a < 0x101000 then (s.part ((a - 0x100000) / 0x40)).readXlate (a % 0x40)
  else if 0x110000 ≤ a && a < 0x110400 then (s.part ((a - 0x110000) / 0x10)).readOcc (a % 0x10)
  else if 0x120000 ≤ a && a < 0x120800 then (Table.getD s.errs ((a - 0x120000) / 0x80) {}).read (a % 0x80)
  else if 0x130000 ≤ a && a < 0x132000 then (s.part ((a - 0x130000) / 0x80)).readBlock (a % 0x80)
  else if 0x140000 ≤ a && a < 0x150000 then
    let i := (a - 0x140000) / 4
    s.capTable.getD (i + 1) 0 ++ s.capTable.getD i 0
  else if a = 0x150080 then .ofNat 64 s.modnum
  else if 0x150000 ≤ a && a < 0x150080 then (s.fn 0).read 0 (a - 0x150000)
  else if 0x151000 ≤ a && a < 0x153000 then
    (Table.getD s.windows ((a - 0x151000) / 0x20) 0).extractLsb' (8 * (a % 0x20)) 64
  else if 0x160000 ≤ a && a < 0x160080 then s.mgmt.read s.now (a - 0x160000)
  else if 0x180000 ≤ a && a < 0x1A0000 then
    let i := (a - 0x180000) / 32
    match (List.range s.log.length).find? (fun j => (s.mgmt.logcnt.toNat - 1 - j) % 4096 == i) with
    | some j => (s.log.getD j 0).extractLsb' (8 * (a % 32)) 64
    | none => 0
  else 0

/-- The doubleword at an offset of a function's configuration space: PF0's capability names the length and the place of the
table (R360). DESIGN CHOICE, log entry 114. -/
def State.readConfig (s : State) (fn a : Nat) : DWord :=
  if fn = 0 && a = 0x108 then .ofNat 64 (fieldAt 0x140000 32 + 4 * s.capTable.length) else Config.configSpace fn a

/-- The host reads an aligned doubleword of a function's BAR0, or of its configuration space (R4). DEDUCED, log entry 116. -/
def State.hostReads (s : State) (fn : Nat) (config : Bool) (a : Nat) : State :=
  if !s.fnExists fn then s
  else
    let o := a / 8 * 8
    let v := if config then s.readConfig fn o else if fn = 0 then s.readPf0 o else s.readVf (fn - 1) o
    { s with out := s.out ++ [.regData v] }

end Sys2Proof.Machine
end

