-- ==== Sys2Proof/Machine/Sched.lean ====
section
/-! DEFINITION. The events that the machine's own parts have before them, oldest first: what comes next when neither the
agenda nor the focused thread says. Each is the meaning of an event of the opcode table, applied to its arguments; one that
is not due leaves the machine as it is. -/

namespace Sys2Proof.Machine

/-- An event that may come next. -/
abbrev Coming := State → Next

/-- The event that a packet's arrival is. -/
def Packet.event (k : Packet) : Coming :=
  match k.body with
  | .slice _ => execSliceRequest k.seq
  | .answer .. => execLineArrival k.seq
  | .scratch _ => execRemoteScratchpadRequest k.seq
  | .wake .. | .served _ => execWakeReachesCore k.seq
  | .tkFetch _ => execTicketFetch k.seq
  | .redeem _ => execRedemption k.seq
  | .rdms .. => execRdmsDelivery k.seq
  | .retire _ => execRetireNotice k.seq
  | .msg _ => execMessageArrival k.seq
  | .arrive _ => execBarrierArrival k.seq
  | .travel _ => execMigrationArrival k.seq

/-- At the slices. -/
def State.sliceEvents (s : State) : List Coming :=
  s.held.flatMap (fun h => [execTableWalk h.seq, execSectorFill h.seq]) ++ s.wbs.map (fun w => execWriteBackComplete w.n)
    ++ (s.tickets.filter (fun t => t.fetching)).map (fun t => execTicketFetchEnd t.n)
    ++ s.tickets.map (fun t => execTicketReclaim t.n)

/-- At an engine queue that holds a command. -/
def engineEvents (core slot : Nat) (q : Queue) (mtx : Bool) : List Coming :=
  let x := coreX core
  let y := coreY core
  if q.cmds.isEmpty then []
  else if mtx then
    [execMma x y slot, execMmai x y slot, execMepi x y slot, execGangStart (gangOf core) slot,
     execCommandCompletion x y slot true]
  else
    [execCopy x y slot, execSlab x y slot, execGather x y slot, execFill x y slot, execCcvt x y slot, execCred x y slot,
     execOptadam x y slot, execOptsgd x y slot, execEngineChunk x y slot, execCommandCompletion x y slot false]

/-- At the copy and matrix engines. -/
def State.engineEvents (s : State) : List Coming :=
  s.slots.flatMap (fun k =>
    Machine.engineEvents (k.1 / 16) (k.1 % 16) k.2.copy false ++ Machine.engineEvents (k.1 / 16) (k.1 % 16) k.2.mtx true)

/-- At the comb units and sluice engines. -/
def State.unitEvents (s : State) : List Coming :=
  (s.comb.map (fun o => o.die)).eraseDups.map (fun d => execCombOperation d) ++ s.comb.map (fun o => execCombAnswer o.n)
    ++ (s.stackOps.map s.opDie).eraseDups.map (fun d => execStackOperation d)
    ++ s.stackTab.flatMap (fun k =>
      let p := k.1 / 16
      let st := k.1 % 16
      [execSpill p st, execSpillComplete p st, execRecall p st, execRecallComplete p st])
    ++ s.liveParts.flatMap (fun p => (s.part p).axReload.map (fun r => execSpill p r.stack))

/-- At the launch sequencers. -/
def State.launchEvents (s : State) : List Coming :=
  s.launches.flatMap (fun l =>
    [execDependenceRead l.part l.lid 0, execDependenceRead l.part l.lid 1, execLaunchAgeing l.part l.lid,
     execGroupTableRead l.part l.lid, execLaunchDispatch l.part l.lid, execLaunchRetirement l.part l.lid,
     execDoneIncrement l.part l.lid] ++ (if l.fixed then (s.launchQuads l).map (fun q => execPin q) else []))
  ++ (s.clocks.filter (fun c => c.2.pinned)).map (fun c => execUnpin c.1)
  ++ s.liveParts.flatMap (fun p => (List.range 4).map (fun r => execRingEntryRead p r) ++ [execDependenceReread p])
  ++ s.allThreads.map (fun t => execWatchdog t.tid.part t.tid.lid t.tid.idx)

/-- The routers that hold packets of a partition, and one more. -/
def State.routers (s : State) (p : Nat) : List Nat :=
  ((s.net.filter (fun k => k.part == p)).map (fun k => k.src)).eraseDups ++ [0]

/-- At the hive controller. -/
def State.hiveEvents (s : State) : List Coming :=
  (s.parts.map (fun x => x.1)).flatMap (fun p =>
    (match (s.part p).raise with
     | some _ => (s.targets p).map (fun t => execAdoptNewGen (64 * t + p)) ++ [execInvalidationComplete p]
     | none => []) ++ [execSweepComplete p] ++
    (match (s.part p).stop with
     | some _ => execStopHalt p :: (s.routers p).map (fun r => execFlushToken p (coreX r) (coreY r))
     | none => []) ++ [execPartitionCommandEnded p false])
  ++ [execOccupancyRecompute, execFwVerifyDone, execImageVerified, execFirmwareRunsOnEveryDie]
  ++ (List.range 16).map (fun d => execDieReady d)

/-- The events that could come next. -/
def State.candidates (s : State) : List Coming :=
  s.net.map Packet.event ++ s.sliceEvents ++ s.engineEvents ++ s.unitEvents ++ s.launchEvents ++ s.hiveEvents

end Sys2Proof.Machine
end

