-- ==== Sys2Proof/Machine/Upset.lean ====
section
/-! DEFINITION. What an error does where it strikes (R106, R148, R278, R341, R342, R348, R349): the agenda names the errors, as
no part of the module makes one. -/

namespace Sys2Proof.Machine

/-- A corrected error is counted (R348, R349). -/
def Errs.corrected (e : Errs) (kind : Nat) : Errs :=
  match kind with
  | 0 => { e with cedram := satInc e.cedram }
  | 1 => { e with cefen := satInc e.cefen }
  | 2 => { e with cesram := satInc e.cesram }
  | 3 => { e with cellc := satInc e.cellc }
  | _ => { e with cetree := satInc e.cetree }

/-- An uncorrectable error in a row of a resident sector: a dirty row is poisoned, a clean one is refilled from memory, once the
write-back of its newest bytes has landed, and poison follows if the refill fails as well (R106). DESIGN CHOICE, log entry 24. -/
def State.upsetRow (s : State) (c : Sector) (r : Fin 32) : State :=
  if !c.valid.getLsbD r.val then s
  else if c.dirtyRows.getLsbD r.val then
    (s.countUe (dieOf (sliceCore c.slice))).putSector { c with pois := c.pois ||| (1#32 <<< r.val), used := c.used }
  else
    let bit : BitVec 32 := 1#32 <<< r.val
    let (s1, c1) := (s.settle c.slice c.asn (1024 * c.vpn)).fillRows { c with valid := c.valid &&& ~~~bit, pois := c.pois &&& ~~~bit } [r]
    s1.putSector c1

/-- A ticket entry with data takes its poison flag (R348). -/
def Ticket.upset (t : Ticket) (n : Nat) : Ticket :=
  if t.n == n && !t.data.isEmpty && !t.delivering then { t with pois := true } else t

/-- An error strikes. DESIGN CHOICE, log entry 88. -/
def State.upset (s : State) (u : Upset) : State :=
  match u with
  | .corrected die kind => s.modErrs die (fun e => e.corrected kind)
  | .unit k => { s with devErr := k :: s.devErr.filter (· != k) }
  | .row slice p vpn r =>
    if h : r < 32 then
      match s.sectors.find? (fun c => c.slice == slice && c.asn == p && c.vpn == vpn) with
      | some c => s.upsetRow c ⟨r, h⟩
      | none => s
    else s
  | .ticket n =>
    match s.tickets.find? (fun t => t.n == n && !t.data.isEmpty && !t.delivering) with
    | some t => { s.countUe (dieOf (sliceCore t.slice)) with tickets := s.tickets.map (fun x => x.upset n) }
    | none => s
  | .sram a =>
    let w := a / 4 * 4
    if s.sramPois.contains w then s else { s.countUe (dieOf (a / 65536)) with sramPois := w :: s.sramPois }
  | .line core p va => s.l1Drop core p (fun l => l.bytes.contains va)
  | .reg tid r =>
    match s.thread? tid with
    | some t => (s.countUe (dieOf t.core)).modThread tid (fun t => { t with poison := r :: t.poison.filter (· != r) })
    | none => s
  | .node p sid k =>
    { s.countUe (sid / 4) with
      stores := s.stores.map (fun x => if x.1 == sid && x.2.part == p then (x.1, { x.2 with bad := k :: x.2.bad }) else x) }
  | .host w k => { s with hostErr := (w, k) :: s.hostErr.filter (· != (w, k)) }

end Sys2Proof.Machine
end

