-- ==== Sys2Proof/Machine/Step.lean ====
section
/-! DEFINITION. One step: the head of the agenda, else an issue of the focused thread, else an event of the machine's own
parts, else an issue of another thread, else one tick of GTIME; after `turnLength` issues the other agents and a tick come
before the focused thread (log entry 1). -/

namespace Sys2Proof.Machine

/-- The focused thread issues: a pending error first (R347), then its next instruction. -/
def State.issueStep (s : State) : Next :=
  if !s.canIssue then .next s
  else if s.errorDue then exec .deferredEngineError s
  else match s.ready with
    | .done t => .next t
    | .run i t => exec i t

/-- An event that changes the machine. DESIGN CHOICE, log entry 16. -/
def State.tryEvent (s : State) (f : State → Next) : Option Next :=
  match f s with
  | .next t => if t = s then none else some (.next t)
  | r => some r

/-- A reissue of a parked thread that makes progress. -/
def State.tryIssue (s : State) (tid : Tid) : Option Next :=
  let s1 := s.focus tid
  match s1.issueStep with
  | .next t => if s1.moved t then some (.next t) else none
  | r => some r

/-- What comes next beside the focused thread. -/
def State.otherStep (s : State) : Next :=
  match s.candidates.findSome? s.tryEvent with
  | some r => r
  | none =>
    match (if s.turnOver then none else s.nextRunnable) with
    | some tid => (s.focus tid).countIssue.issueStep
    | none =>
      match s.parkedTids.findSome? s.tryIssue with
      | some r => r
      | none => .next s.endTick

/-- The machine goes on by itself. DESIGN CHOICE, log entry 1. -/
def State.autoStep (s : State) : Next :=
  if !s.canIssue then s.otherStep
  else if s.thr.phase == .run then (if s.turnOver then s.otherStep else s.countIssue.issueStep)
  else match s.countIssue.issueStep with
    | .next t => if s.moved t then .next t else s.otherStep
    | r => r

/-- One step of the module. DESIGN CHOICE, log entry 1. DESIGN CHOICE, log entry 17. -/
def step (s : State) : Host.Outcome State Fault Refusal :=
  match s.agenda with
  | [] => s.autoStep
  | .event i ticks :: rest =>
    if (encode i).isEmpty then exec i (({ s with agenda := rest }).advance ticks) else .fault .notAnEvent
  | .upset u ticks :: rest => .next ((({ s with agenda := rest }).advance ticks).upset u)
  | .hostRead fn config a ticks :: rest => .next ((({ s with agenda := rest }).advance ticks).hostReads fn config a)
  | .issue tid drop ticks :: rest => (((({ s with agenda := rest }).advance ticks).focus tid).refetch drop).issueStep

/-- The state with an instruction stored where the next step fetches one: a dispatched thread in a running partition 0, the
words fetched into its core's instruction buffer. DESIGN CHOICE, log entry 4. -/
def State.withFetchWord (s : State) (nbits w : Nat) : State :=
  let v := w % 2 ^ nbits
  let at0 (i : Nat) : Nat := 2 ^ 64 * 0 + probePc.toNat + 4 * i
  { s.modPart 0 (fun p => { p with state := .running, pcur := probeShape, stop := none }) with
    thr := probeThread
    ibuf := [(at0 0, BitVec.ofNat 32 v), (at0 1, BitVec.ofNat 32 (v / 2 ^ 32))]
    agenda := []
    turn := 0 }

end Sys2Proof.Machine
end

