-- ==== Sys2Proof/Safety.lean ====
section
/-! DEFINITION. The invariants of the machine that statements name: the canonical form of its memories and the alignment of
every pc (R46); and the states that statements speak of: a retired instruction, a disabled one, a trap taken. -/

namespace Sys2Proof.Machine

/-- Device memory, host memory and core SRAM are in canonical form. -/
def State.memWf (s : State) : Bool := Memory.wf s.dev && Memory.wf s.host && Memory.wf s.sram

/-- A pc has no nonzero bit in [1:0] (R46). -/
def wordAligned (pc : DWord) : Bool := pc.extractLsb' 0 2 == 0

/-- A travel context carries an aligned pc (R167). -/
def Packet.pcAligned (k : Packet) : Bool :=
  match k.body with
  | .travel v => wordAligned (ctxPc v.ctx)
  | _ => true

/-- A launch that may still begin threads has an aligned entry point (R308). -/
def Launch.pcAligned (l : Launch) : Bool := l.phase == .doneDue || wordAligned l.entryPoint

/-- Every pc is aligned: those of threads, of travel contexts, of launches, and those of saved images (R46). -/
def State.pcAligned (s : State) : Bool :=
  s.allThreads.all (fun t => wordAligned t.pc) && (s.net ++ s.swept).all Packet.pcAligned && s.launches.all Launch.pcAligned &&
  s.images.all (fun m => m.threads.all (fun t => wordAligned t.pc) && m.packets.all Packet.pcAligned && m.launches.all Launch.pcAligned)

end Sys2Proof.Machine

namespace Sys2Proof.Claims

open Sys2Proof.Machine

/-- The focused thread is not single-stepped (R345). -/
def plain (s : State) : Prop := s.thr.csr.dbgctl ≠ 1

/-- The guard enables its instruction, and the thread is not single-stepped. -/
def on (s : State) (g : BitVec 4) : Prop := s.thr.enabled g = true ∧ plain s

/-- The focused thread has retired an instruction of len bytes and some issue cycles: the pc moves past it, or the next
issue of a repeat follows (R45, R58, R161); nothing that a parked instruction keeps remains. Nothing else changes. -/
def done (s : State) (len cost : Nat) : State :=
  { s with thr := { s.thr with
      pc := match s.thr.rep with
        | none => s.thr.pc + BitVec.ofNat 64 len
        | some r => if r.i < r.last then s.thr.pc else s.thr.pc + BitVec.ofNat 64 (4 + len)
      rep := match s.thr.rep with
        | none => none
        | some r => if r.i < r.last then some { r with i := r.i + 1 } else none
      phase := .run, stage := {}, answer := none, expect := none, entered := false, latch := []
      waited := 0, issued := s.thr.issued + cost } }

/-- The focused thread's record replaced. -/
def withThr (s : State) (t : Thread) : State := { s with thr := t }

/-- The focused thread has jumped (R176, R177). -/
def jumped (s : State) (target : DWord) : State :=
  { s with thr := { s.thr with
      pc := target, rep := none, phase := .run, stage := {}, answer := none, expect := none, entered := false, latch := []
      waited := 0, issued := s.thr.issued + 1 } }

/-- The CSRs that trap entry writes whole, which lose their poison (R336, R341). -/
def entryCsrs : List Nat := [0x002, 0x003, 0x004, 0x005, 0x006, 0x008, 0x070]

/-- The focused thread has entered its handler (R336): the saved registers, the single-step bit cleared, the pc at TVEC. -/
def entered (s : State) (cost cause : Nat) (detail epc : DWord) (repst : Word) : State :=
  { s with thr := { s.thr with
      csr := { s.thr.csr with epcl := loWord epc, epch := hiWord epc, repst := repst, ecause := BitVec.ofNat 32 cause
                              eaddrl := loWord detail, eaddrh := hiWord detail, dbgctl := 0 }
      pc := s.thr.tvec &&& ~~~3#64, rep := none, phase := .run, stage := {}, answer := none, expect := none, entered := true
      latch := [], waited := 0, issued := s.thr.issued + cost
      poison := s.thr.poison.filter (fun r => !(entryCsrs.map (16384 + ·)).contains r) } }

/-- The issue cycles of a word at a thread (R161): one when its guard disables it, else 8 for DIV to REMU, VDIV, VSQRT, VQBLK and
VENC, 4 for the other special functions, VMXDEC and VDEC, and 1. -/
def issueCycles (t : Thread) (w : Word) : Nat :=
  let mo := w.toNat / 2 ^ 26
  let f := w.toNat % 4
  if mo < 0x20 ∧ mo ≠ 0x0F ∧ t.enabled (BitVec.ofNat 4 (w.toNat / 2 ^ 22)) = false then 1
  else if mo = 0x01 then (if 13 ≤ w.toNat % 32 ∧ w.toNat % 32 ≤ 16 then 8 else 1)
  else if mo = 0x2C then (if f = 0 ∨ f = 3 then 8 else 4)
  else if mo = 0x2D then 4
  else if mo = 0x2E then (if f ≤ 1 then 8 else 1)
  else 1

/-- REPST for a repeat stood at, 0 outside one (R59): ACT, REM and STEP. -/
def repstAt (r : Option Rep) : Word :=
  match r with
  | none => 0
  | some r => 0x80000000 ||| (BitVec.ofNat 32 ((r.last - r.i) % 64) <<< 8) ||| BitVec.ofNat 32 (r.i % 64)

end Sys2Proof.Claims

namespace Sys2Proof.Claims

open Sys2Proof.Machine

/-! ## Scalar results (R170–R174) -/

/-- The forms of two sources and one issue cycle, each with what sD receives (R170). -/
def aluThree : List ((BitVec 4 → BitVec 4 → BitVec 4 → BitVec 4 → Instr) × (Word → Word → Word)) :=
  [(Instr.add, fun a b => BitVec.ofNat 32 (a.toNat + b.toNat)),
   (Instr.sub, fun a b => BitVec.ofInt 32 (a.toInt - b.toInt)),
   (Instr.and, fun a b => a &&& b),
   (Instr.or, fun a b => a ||| b),
   (Instr.xor, fun a b => a ^^^ b),
   (Instr.andn, fun a b => a &&& ~~~b),
   (Instr.shl, fun a b => BitVec.ofNat 32 (a.toNat * 2 ^ (b.toNat % 32))),
   (Instr.shr, fun a b => BitVec.ofNat 32 (a.toNat / 2 ^ (b.toNat % 32))),
   (Instr.sar, fun a b => BitVec.ofInt 32 (a.toInt / 2 ^ (b.toNat % 32))),
   (Instr.rol, fun a b => BitVec.ofNat 32 (a.toNat * 2 ^ (b.toNat % 32) + a.toNat / 2 ^ (32 - b.toNat % 32))),
   (Instr.mul, fun a b => BitVec.ofNat 32 (a.toNat * b.toNat)),
   (Instr.mulh, fun a b => BitVec.ofInt 32 (a.toInt * b.toInt / 2 ^ 32)),
   (Instr.mulhu, fun a b => BitVec.ofNat 32 (a.toNat * b.toNat / 2 ^ 32)),
   (Instr.min, fun a b => if a.toInt ≤ b.toInt then a else b),
   (Instr.max, fun a b => if a.toInt ≤ b.toInt then b else a),
   (Instr.minu, fun a b => if a.toNat ≤ b.toNat then a else b),
   (Instr.maxu, fun a b => if a.toNat ≤ b.toNat then b else a),
   (Instr.slt, fun a b => if a.toInt < b.toInt then 1 else 0),
   (Instr.sltu, fun a b => if a.toNat < b.toNat then 1 else 0)]

/-- Quotient and remainder of R171: `signed` for DIV and REM. -/
def quotient (signed : Bool) (a b : Word) : Word :=
  if b = 0 then 0xFFFFFFFF
  else if signed ∧ a = 0x80000000 ∧ b = 0xFFFFFFFF then 0x80000000
  else if signed then BitVec.ofInt 32 (a.toInt.tdiv b.toInt)
  else BitVec.ofNat 32 (a.toNat / b.toNat)
def remainder (signed : Bool) (a b : Word) : Word :=
  if b = 0 then a
  else if signed ∧ a = 0x80000000 ∧ b = 0xFFFFFFFF then 0
  else if signed then BitVec.ofInt 32 (a.toInt - a.toInt.tdiv b.toInt * b.toInt)
  else BitVec.ofNat 32 (a.toNat - a.toNat / b.toNat * b.toNat)

/-- The forms of one source whose result is a function of its bits (R170). -/
def aluTwo : List ((BitVec 4 → BitVec 4 → BitVec 4 → Instr) × (Word → Word)) :=
  [(Instr.sextb, fun a => BitVec.ofInt 32 (a.setWidth 8).toInt),
   (Instr.sexth, fun a => BitVec.ofInt 32 (a.setWidth 16).toInt),
   (Instr.zextb, fun a => BitVec.ofNat 32 (a.toNat % 2 ^ 8)),
   (Instr.zexth, fun a => BitVec.ofNat 32 (a.toNat % 2 ^ 16)),
   (Instr.mov, fun a => a)]

/-- The forms of a source and a 14-bit immediate (R172). -/
def immFour : List ((BitVec 4 → BitVec 4 → BitVec 4 → BitVec 14 → Instr) × (Word → BitVec 14 → Word)) :=
  [(Instr.addi, fun a i => BitVec.ofInt 32 (a.toInt + i.toInt)),
   (Instr.andi, fun a i => a &&& BitVec.ofInt 32 i.toInt),
   (Instr.ori, fun a i => a ||| BitVec.ofNat 32 i.toNat),
   (Instr.xori, fun a i => a ^^^ BitVec.ofInt 32 i.toInt)]

/-- The forms of a source and a shift amount (R172). -/
def immShift : List ((BitVec 4 → BitVec 4 → BitVec 4 → BitVec 5 → Instr) × (Word → Nat → Word)) :=
  [(Instr.shli, fun a n => BitVec.ofNat 32 (a.toNat * 2 ^ n)),
   (Instr.shri, fun a n => BitVec.ofNat 32 (a.toNat / 2 ^ n)),
   (Instr.sari, fun a n => BitVec.ofInt 32 (a.toInt / 2 ^ n)),
   (Instr.roli, fun a n => BitVec.ofNat 32 (a.toNat * 2 ^ n + a.toNat / 2 ^ (32 - n)))]

/-- The conditions of R53, by CC. -/
def holds (cc : Nat) (a b : Word) : Prop :=
  match cc with
  | 0 => a = b
  | 1 => a ≠ b
  | 2 => a.toInt < b.toInt
  | 3 => a.toInt ≤ b.toInt
  | 4 => b.toInt < a.toInt
  | 5 => b.toInt ≤ a.toInt
  | 6 => a.toNat < b.toNat
  | 7 => a.toNat ≤ b.toNat
  | 8 => b.toNat < a.toNat
  | 9 => b.toNat ≤ a.toNat
  | 10 => a &&& b ≠ 0
  | _ => a &&& b = 0

/-- The thread with predicate n set to b and every other predicate and register as before; p0 takes no write (R164). -/
def setPred (t : Thread) (n : BitVec 3) (b : Bool) : Thread :=
  if n = 0 then t else { t with p := if b then t.p ||| (1#8 <<< n.toNat) else t.p &&& ~~~(1#8 <<< n.toNat) }

/-- A low and a high word as an address pair's value, and the thread with a pair written: s(2n+1) takes the high word. -/
def setPair (t : Thread) (n : BitVec 3) (x : DWord) : Thread :=
  (t.ws (n ++ 0#1) (x.setWidth 32)).ws (n ++ 1#1) ((x >>> 32).setWidth 32)

/-- The guard and the length in bytes of each guarded form (R47, R49): every scalar form but REP. -/
def guardLen (i : Instr) : Option (BitVec 4 × Nat) :=
  match i with
  | .nop g | .halt g | .idle g | .trap g _ | .eret g | .bkpt g _ | .rdcyc g _ _ | .rdtime g _ _ | .rdsig g _ _
  | .lnch g _ _ _ | .l1inv g | .add g _ _ _ | .sub g _ _ _ | .and g _ _ _ | .or g _ _ _ | .xor g _ _ _
  | .andn g _ _ _ | .shl g _ _ _ | .shr g _ _ _ | .sar g _ _ _ | .rol g _ _ _ | .mul g _ _ _ | .mulh g _ _ _
  | .mulhu g _ _ _ | .div g _ _ _ | .divu g _ _ _ | .rem g _ _ _ | .remu g _ _ _ | .min g _ _ _ | .max g _ _ _
  | .minu g _ _ _ | .maxu g _ _ _ | .clz g _ _ | .ctz g _ _ | .popc g _ _ | .brev g _ _ | .sextb g _ _
  | .sexth g _ _ | .zextb g _ _ | .zexth g _ _ | .mov g _ _ | .slt g _ _ _ | .sltu g _ _ _ | .addi g _ _ _
  | .andi g _ _ _ | .ori g _ _ _ | .xori g _ _ _ | .shli g _ _ _ | .shri g _ _ _ | .sari g _ _ _ | .roli g _ _ _
  | .lih g _ _ | .cmp g _ _ _ _ _ | .cmpi g _ _ _ _ _ | .pand g _ _ _ | .por g _ _ _ | .pxor g _ _ _
  | .pandn g _ _ _ | .prdw g _ | .pwrw g _ | .br g _ | .brl g _ | .jr g _ | .jrl g _ | .padd g _ _ _
  | .padds g _ _ _ _ | .paddu g _ _ _ _ | .psub g _ _ _ | .pmov g _ _ | .rdmv g _ _ | .rdms g _ _ | .tkdrop g _
  | .tktst g _ _ | .rdmw g | .fence g _ | .fencee g _ | .acq g _ | .rel g _ | .send g _ _ | .waitm g _ _
  | .pollm g _ _ _ | .mbind g _ _ | .munbind g _ | .bar g _ | .barx g _ _ _ _ | .garv g _ _ | .gwt g _ _
  | .enqm g _ _ | .enqmR g _ _ | .enqc g _ _ | .enqcR g _ _ | .mwait g _ _ | .cwait g _ | .cstat g _ _
  | .csrr g _ _ | .csrw g _ _ | .csrs g _ _ _ | .csrc g _ _ _ | .tjins g _ _ _ | .tjsmp g _ _ _ | .tjpri g _ _ _
  | .tjevt g _ _ _ | .tjver g _ _ _ | .tjqry g _ _ _ | .tjget g _ _ _ | .axpush g _ _ _ | .axpop g _ _ _
  | .axdepth g _ _ _ | .axdrop g _ _ _ | .go g _ | .gohome g | .paddi g _ _ _ | .qpush g _ _ | .qpop g _ _
  | .qtry g _ _ _ | .qpushv g _ _ | .qpopv g _ _ => some (g, 4)
  | .ldb g _ _ _ _ | .ldbu g _ _ _ _ | .ldh g _ _ _ _ | .ldhu g _ _ _ _ | .ldw g _ _ _ _ | .ldd g _ _ _ _
  | .lda g _ _ _ _ _ | .stb g _ _ _ _ | .sth g _ _ _ _ | .stw g _ _ _ _ | .std g _ _ _ _ | .str g _ _ _ _ _
  | .aadd g _ _ _ _ _ _ | .amin g _ _ _ _ _ _ | .amax g _ _ _ _ _ _ | .aminu g _ _ _ _ _ _ | .amaxu g _ _ _ _ _ _
  | .aand g _ _ _ _ _ _ | .aor g _ _ _ _ _ _ | .axor g _ _ _ _ _ _ | .aswp g _ _ _ _ _ _ | .acas g _ _ _ _ _ _
  | .aaddf g _ _ _ _ _ | .ldtL g _ _ _ _ | .ldtQ g _ _ _ _ | .ldtS g _ _ _ _ | .ldtC g _ _ _ _ _ => some (g, 8)
  | _ => none

/-! ## CSRs (R59, R64, R168) -/

/-- A CSR that a thread holds and a program writes: its number, where it stands, and what a write of a value stores. -/
structure CsrRow where
  n : BitVec 12
  get : Csrs → Word
  put : Csrs → Word → Csrs
  stored : Word → Word

/-- The RW CSRs of R64 but for the channel registers, with the bits that a write stores. -/
def ownCsrs : List CsrRow :=
  [⟨0x000, (·.tvecl), fun c v => { c with tvecl := v }, id⟩,
   ⟨0x001, (·.tvech), fun c v => { c with tvech := v }, id⟩,
   ⟨0x002, (·.epcl), fun c v => { c with epcl := v }, id⟩,
   ⟨0x003, (·.epch), fun c v => { c with epch := v }, id⟩,
   ⟨0x004, (·.ecause), fun c v => { c with ecause := v }, fun v => v &&& 0xFF⟩,
   ⟨0x005, (·.eaddrl), fun c v => { c with eaddrl := v }, id⟩,
   ⟨0x006, (·.eaddrh), fun c v => { c with eaddrh := v }, id⟩,
   ⟨0x007, (·.escr), fun c v => { c with escr := v }, id⟩,
   ⟨0x008, (·.repst), fun c v => { c with repst := v }, fun v => v &&& 0x80003F3F⟩,
   ⟨0x010, (·.fstat), fun c v => { c with fstat := v }, fun v => v &&& 0x3F⟩,
   ⟨0x011, (·.fmode), fun c v => { c with fmode := v },
     fun v => if 6 ≤ v.toNat % 8 then v &&& 0x8 else v &&& 0xF⟩,
   ⟨0x012, (·.fmtd), fun c v => { c with fmtd := v }, fun v => v &&& 0xFFF⟩,
   ⟨0x013, (·.sclpl), fun c v => { c with sclpl := v }, id⟩,
   ⟨0x014, (·.sclph), fun c v => { c with sclph := v }, id⟩,
   ⟨0x015, (·.tblp), fun c v => { c with tblp := v }, fun v => v &&& 0xFC00⟩,
   ⟨0x020, (·.rkeyl), fun c v => { c with rkeyl := v }, id⟩,
   ⟨0x021, (·.rkeyh), fun c v => { c with rkeyh := v }, id⟩,
   ⟨0x022, (·.rstr), fun c v => { c with rstr := v }, id⟩,
   ⟨0x023, (·.rposl), fun c v => { c with rposl := v }, id⟩,
   ⟨0x024, (·.rposh), fun c v => { c with rposh := v }, id⟩,
   ⟨0x055, (·.scopedem), fun c v => { c with scopedem := v }, id⟩,
   ⟨0x070, (·.dbgctl), fun c v => { c with dbgctl := v }, fun v => v &&& 1⟩]

/-- The RO CSRs of R64, each with what a read gives (R168, R130). -/
def roCsrs : List (BitVec 12 × (State → Word)) :=
  [(0x030, fun s => (s.thr.grp[0]).setWidth 32), (0x031, fun s => (s.thr.grp[1]).setWidth 32),
   (0x032, fun s => (s.thr.grp[2]).setWidth 32), (0x033, fun s => (s.thr.grp[3]).setWidth 32),
   (0x042, fun s => BitVec.ofNat 32 (s.slotAt s.thr.core s.thr.slot).wm),
   (0x050, fun s => BitVec.ofNat 32 s.thr.tid.idx),
   (0x051, fun s => BitVec.ofNat 16 (relY (s.shape s.thr.tid.part) s.thr.core)
      ++ BitVec.ofNat 16 (relX (s.shape s.thr.tid.part) s.thr.core)),
   (0x052, fun s => BitVec.ofNat 32 (s.thr.slot * 2 ^ 20 + s.thr.flog * 2 ^ 16 + s.thr.mask)),
   (0x053, fun s => BitVec.ofNat 32 ((if s.thr.prv then 8 else 0) + (if s.thr.det then 4 else 0)
      + (if (s.clock (quadOf s.thr.core)).pinned then 2 else 0) + (if s.thr.fix then 1 else 0))),
   (0x054, fun s => BitVec.ofNat 32 s.thr.tid.part),
   (0x056, fun s => BitVec.ofNat 32 s.thr.tid.lid),
   (0x060, fun s => s.thr.sigHL.setWidth 32), (0x061, fun s => (s.thr.sigHL >>> 32).setWidth 32)]

/-- A bank of the focused thread's core that changes its use when L1CFG takes a value (R145, R146). -/
def l1cfgBank (s : State) (v : Word) (b : Nat) : Bool :=
  decide (b / 16 = s.thr.core) && s.ownsSlot s.thr.tid.part s.thr.core (b % 16) &&
    ((s.l1m s.thr.tid.part s.thr.core).getLsbD (b % 16) != v.getLsbD (b % 16))

/-- L1CFG of the focused thread's partition on its core has taken a value: the bits of the partition's own banks; the partition's
lines there are gone; a bank that changes its use reads as zero; a channel that runs past the scratchpad is disabled; requests
under way install no line. Nothing else changes (R145, R146). -/
def l1cfgWritten (s u : State) (v : Word) : Prop :=
  let p := s.thr.tid.part
  let c := s.thr.core
  u = { s with l1cfg := u.l1cfg, l1 := u.l1, sram := u.sram, tags := u.tags, sramPois := u.sramPois, slots := u.slots
               net := u.net, held := u.held, thr := u.thr } ∧
  (∀ k, k < 16 → (u.l1m p c).getLsbD k = (s.ownsSlot p c k && v.getLsbD k)) ∧
  (∀ q n, 64 * n + q ≠ 64 * c + p → u.l1m q n = s.l1m q n) ∧
  u.l1 = s.l1.filter (fun l => !(l.core == c && l.part == p)) ∧
  (∀ a, Memory.read u.sram a = if l1cfgBank s v (a / 4096) then 0 else Memory.read s.sram a) ∧
  (∀ b, Table.get? u.tags b = if l1cfgBank s v b then some p else Table.get? s.tags b) ∧
  (∀ w, w ∈ u.sramPois ↔ w ∈ s.sramPois ∧ l1cfgBank s v (w / 4096) = false) ∧
  (∀ n k, k < 16 → u.slotAt n k =
    if n = c ∧ s.ownsSlot p c k = true ∧ u.scratchSize p c < (s.slotAt n k).chbase + (s.slotAt n k).chlen then
      { s.slotAt n k with chlen := 0, wm := 0, filled := 0 } else s.slotAt n k) ∧
  u.net.map (fun k => (k.seq, k.part, k.src)) = s.net.map (fun k => (k.seq, k.part, k.src)) ∧
  u.held.map (fun h => (h.seq, h.stage)) = s.held.map (fun h => (h.seq, h.stage))

/-- The thread with a CSR written, its poison mark cleared (R341). -/
def setCsr (t : Thread) (r : CsrRow) (v : Word) : Thread :=
  { t with csr := r.put t.csr (r.stored v), poison := t.poison.filter (· != 4096 * 4 + r.n.toNat) }

end Sys2Proof.Claims

namespace Sys2Proof.Claims

open Sys2Proof.Machine

/-! ## Vector results (R214–R226) -/

/-- Element i of a register under T. -/
def el (x : VReg) (ty : BitVec 3) (i : Nat) : Nat := elem x (tWidth ty.toNat) i

/-- The register whose every element is f of its index, modulo the width of T. -/
def lanes (x : VReg) (ty : BitVec 3) (f : Nat → Nat) : Prop :=
  ∀ i, i < tElems ty.toNat → el x ty i = f i % 2 ^ tWidth ty.toNat

/-- The signed value of an element. -/
def sel (ty : BitVec 3) (x : Nat) : Int :=
  if x < 2 ^ (tWidth ty.toNat - 1) then x else (x : Int) - 2 ^ tWidth ty.toNat

/-- An integer modulo the width of T. -/
def wrap (ty : BitVec 3) (x : Int) : Nat := (x % 2 ^ tWidth ty.toNat).toNat

/-- Bit k of the flags of some elements' results is set when one of them sets it (R209). -/
def flagsOf (fl : Flags) (n : Nat) (f : Nat → Flags) : Prop :=
  ∀ k, k < 6 → fl.getLsbD k = (List.range n).any (fun i => (f i).getLsbD k)

/-- A thread after an arithmetic form: the flags go into FSTAT, and a float form under SR advances the position (R215). -/
def arith (t : Thread) (ty : BitVec 3) (fl : Flags) : Thread :=
  { t with csr := if 3 ≤ ty.toNat ∧ t.csr.fmode.toNat % 8 = 5
      then { t.csr with fstat := t.csr.fstat ||| fl.setWidth 32
                        rposl := (join t.csr.rposh t.csr.rposl + 1).setWidth 32
                        rposh := ((join t.csr.rposh t.csr.rposl + 1) >>> 32).setWidth 32 }
      else { t.csr with fstat := t.csr.fstat ||| fl.setWidth 32 } }

/-- A thread with flags ORed into FSTAT. -/
def flagged (t : Thread) (fl : Flags) : Thread :=
  { t with csr := { t.csr with fstat := t.csr.fstat ||| fl.setWidth 32 } }

/-- The forms of two registers that move or shift bits, each with element i of the result from T's width w, its count n,
the elements of va and vb, and k0 (R218, R224). -/
def moveTwo : List ((BitVec 7 → BitVec 7 → BitVec 7 → BitVec 3 → Instr) ×
    (BitVec 3 → (Nat → Nat) → (Nat → Nat) → Half → Nat → Nat)) :=
  [(Instr.vshl, fun t a b _ i => a i * 2 ^ (b i % tWidth t.toNat)),
   (Instr.vshr, fun t a b _ i => a i / 2 ^ (b i % tWidth t.toNat)),
   (Instr.vsar, fun t a b _ i => wrap t (sel t (a i) / 2 ^ (b i % tWidth t.toNat))),
   (Instr.vrol, fun t a b _ i =>
     a i * 2 ^ (b i % tWidth t.toNat) + a i / 2 ^ (tWidth t.toNat - b i % tWidth t.toNat)),
   (Instr.vzipl, fun _ a b _ i => if i % 2 = 0 then a (i / 2) else b (i / 2)),
   (Instr.vziph, fun t a b _ i =>
     if i % 2 = 0 then a (tElems t.toNat / 2 + i / 2) else b (tElems t.toNat / 2 + i / 2)),
   (Instr.vunzl, fun t a b _ i => if 2 * i < tElems t.toNat then a (2 * i) else b (2 * i - tElems t.toNat)),
   (Instr.vunzh, fun t a b _ i =>
     if 2 * i + 1 < tElems t.toNat then a (2 * i + 1) else b (2 * i + 1 - tElems t.toNat)),
   (Instr.vshuf, fun t a b _ i => if b i % 256 < tElems t.toNat then a (b i % 256) else 0),
   (Instr.vsel, fun t a b k i => if k.getLsbD (tWidth t.toNat / 8 * i) then a i else b i)]

/-- The forms of one register that move bits (R224). -/
def moveOne : List ((BitVec 7 → BitVec 7 → BitVec 3 → Instr) × (BitVec 3 → (Nat → Nat) → Nat → Nat)) :=
  [(Instr.vrev, fun t a i => a (tElems t.toNat - 1 - i)),
   (Instr.vdupl, fun _ a i => a (i / 2))]

/-- The forms of one register and an immediate (R225). -/
def moveImm : List ((BitVec 7 → BitVec 7 → BitVec 8 → BitVec 3 → Instr) × (BitVec 3 → Nat → BitVec 8 → Nat)) :=
  [(Instr.vaddi, fun t a i => wrap t (a + i.toInt)),
   (Instr.vshli, fun _ a i => a * 2 ^ i.toNat),
   (Instr.vshri, fun _ a i => a / 2 ^ i.toNat),
   (Instr.vsari, fun t a i => wrap t (sel t a / 2 ^ i.toNat))]

/-- The rounded sum, product or fused product-sum of a float element: the exact value rounded once under FMODE, with the
element's draw (R215, R217). -/
def rounded (c : Csrs) (ty : BitVec 3) (i : Nat) (r : Val × Flags) : Nat × Flags :=
  (codeFmt (tCode ty.toNat)).finish (c.fmode.toNat % 8)
    (decide (c.fmode.toNat / 8 % 2 = 1) && decide (6 ≤ ty.toNat)) (c.draw (c.fmode.toNat % 8) i) r

/-- The value of a float element. -/
def fval (ty : BitVec 3) (x : Nat) : Val := (codeFmt (tCode ty.toNat)).value x

/-- The forms of R216 that round float results, each with its exact integer and its exact float result from a, b and the old
vd; the latter under a rounding mode, which decides the sign of an exact zero (R207). -/
def vecRound : List ((BitVec 7 → BitVec 7 → BitVec 7 → BitVec 3 → Instr) ×
    (Int → Int → Int → Int) × (Nat → Val → Val → Val → Val × Flags)) :=
  [(Instr.vadd, fun a b _ => a + b, fun rm a b _ => sumVals rm [a, b]),
   (Instr.vsub, fun a b _ => a - b, fun rm a b _ => sumVals rm [a, b.negate]),
   (Instr.vmul, fun a b _ => a * b, fun _ a b _ => mulVals a b),
   (Instr.vfma, fun a b d => a * b + d, fun rm a b d => fusedVals rm a b false d),
   (Instr.vfms, fun a b d => a * b - d, fun rm a b d => fusedVals rm a b false d.negate),
   (Instr.vfnma, fun a b d => d - a * b, fun rm a b d => fusedVals rm a b true d)]

/-- The result and the flags of an element of such a form. -/
def roundLane (c : Csrs) (ty : BitVec 3) (fi : Int → Int → Int → Int) (ff : Nat → Val → Val → Val → Val × Flags)
    (i x y z : Nat) : Nat × Flags :=
  if ty.toNat < 3 then (wrap ty (fi (sel ty x) (sel ty y) (sel ty z)), 0)
  else rounded c ty i (ff (c.fmode.toNat % 8) (fval ty x) (fval ty y) (fval ty z))

/-- A clamped sum or difference: OF and NX when it clamps (R216). -/
def clamped (ty : BitVec 3) (x : Int) : Nat × Flags :=
  if x < -(2 ^ (tWidth ty.toNat - 1)) then (wrap ty (-(2 ^ (tWidth ty.toNat - 1))), fOF ||| fNX)
  else if (2 : Int) ^ (tWidth ty.toNat - 1) - 1 < x then (wrap ty (2 ^ (tWidth ty.toNat - 1) - 1), fOF ||| fNX)
  else (wrap ty x, 0)

/-- The forms of R216 that round nothing, each with the result and flags of an element; VADDS, VSUBS and VMULH take integer
types alone. A float minimum or maximum is that of R217. -/
def vecRaw : List ((BitVec 7 → BitVec 7 → BitVec 7 → BitVec 3 → Instr) × (BitVec 3 → Nat → Nat → Nat × Flags)) :=
  [(Instr.vmin, fun t a b =>
     if t.toNat < 3 then (if sel t a ≤ sel t b then a else b, 0) else pickFloat t.toNat true a b),
   (Instr.vmax, fun t a b =>
     if t.toNat < 3 then (if sel t a ≤ sel t b then b else a, 0) else pickFloat t.toNat false a b)]
def vecInt : List ((BitVec 7 → BitVec 7 → BitVec 7 → BitVec 3 → Instr) × (BitVec 3 → Nat → Nat → Nat × Flags)) :=
  [(Instr.vadds, fun t a b => clamped t (sel t a + sel t b)),
   (Instr.vsubs, fun t a b => clamped t (sel t a - sel t b)),
   (Instr.vmulh, fun t a b => (wrap t (sel t a * sel t b / 2 ^ tWidth t.toNat), 0))]

/-- The mask whose bits of element i all take c i (R219). -/
def maskIs (m : Half) (ty : BitVec 3) (c : Nat → Prop) : Prop :=
  ∀ j, j < 16 → (m.getLsbD j = true ↔ c (j / (tWidth ty.toNat / 8)))

/-- The compares of R219, each with its condition on integer elements and on float elements. -/
def compares : List ((BitVec 3 → BitVec 7 → BitVec 7 → BitVec 3 → Instr) ×
    (BitVec 3 → Nat → Nat → Prop) × (Val → Val → Prop)) :=
  [(Instr.vceq, fun _ a b => a = b, fun a b => cmpVals a b = some .eq),
   (Instr.vcne, fun _ a b => a ≠ b, fun a b => cmpVals a b ≠ some .eq),
   (Instr.vclt, fun t a b => sel t a < sel t b, fun a b => cmpVals a b = some .lt),
   (Instr.vcle, fun t a b => sel t a ≤ sel t b, fun a b => cmpVals a b = some .lt ∨ cmpVals a b = some .eq)]

/-- The widening forms, each with its exact integer and float result from a, b and the accumulator (R221). -/
def widening : List ((BitVec 6 → BitVec 7 → BitVec 7 → BitVec 3 → Instr) ×
    (Int → Int → Int → Int) × (Nat → Val → Val → Val → Val × Flags)) :=
  [(Instr.vwadd, fun a b _ => a + b, fun rm a b _ => sumVals rm [a, b]),
   (Instr.vwmul, fun a b _ => a * b, fun _ a b _ => mulVals a b),
   (Instr.vwmac, fun a b c => c + a * b, fun rm a b c => fusedVals rm a b false c),
   (Instr.vwsum, fun a b c => c + a + b, fun rm a b c => sumVals rm [c, a, b])]

/-- The result and the flags of a wide element: T b to w's half, T h to w, and the float types to theirs (R214, R221). -/
def wideLane (c : Csrs) (ty : BitVec 3) (fi : Int → Int → Int → Int) (ff : Nat → Val → Val → Val → Val × Flags)
    (i x y z : Nat) : Nat × Flags :=
  let ww := 2 * tWidth ty.toNat
  if ty.toNat < 3 then
    let sz : Int := if z < 2 ^ (ww - 1) then z else (z : Int) - 2 ^ ww
    ((fi (sel ty x) (sel ty y) sz % 2 ^ ww).toNat, 0)
  else
    let f := if ty.toNat < 6 then fmtF else fmtHf
    f.finish (c.fmode.toNat % 8) false (c.draw (c.fmode.toNat % 8) i)
      (ff (c.fmode.toNat % 8) (fval ty x) (fval ty y) (f.value z))

/-- The sum of some elements: modulo the width, or exact and rounded once with element i's draw (R222). -/
def sumOf (c : Csrs) (ty : BitVec 3) (i : Nat) (xs : List Nat) : Nat × Flags :=
  if ty.toNat < 3 then (wrap ty (xs.map (sel ty)).sum, 0)
  else rounded c ty i (sumVals (c.fmode.toNat % 8) (xs.map (fval ty)))

/-- The special functions, each with its issue cycles and its result on an FP32 encoding (R239, R240). -/
def special : List ((BitVec 7 → BitVec 7 → Instr) × Nat × (Nat → Nat × Flags)) :=
  [(Instr.vrcp, 4, rcpF), (Instr.vrsq, 4, rsqF), (Instr.vexp2, 4, vexp2F), (Instr.vlog2, 4, vlog2F),
   (Instr.vsqrt, 8, sqrtF)]

/-- The decode table of the focused thread can be read: it lies in its core's scratchpad, in a bank whose tag is its
partition's, with no poisoned word, none above a watermark, and no write of L1CFG that holds the core's accesses (R144, R146,
R152, R232). -/
def tableReady (s : State) : Prop :=
  s.thr.phase = .run ∧
  s.touchBank s.thr.tid.part (s.sramAddr s.thr.tid.part s.thr.core (tableOff s.thr.csr.tblp 0)) = s ∧
  s.l1cfgWaits s.thr.tid.part s.thr.core = false ∧
  ∀ i, i < 256 →
    tableOff s.thr.csr.tblp i + 4 ≤ s.scratchSize s.thr.tid.part s.thr.core ∧
    s.aboveMark s.thr.tid.part s.thr.core (span (tableOff s.thr.csr.tblp i) 4) = false ∧
    s.sramPois.contains (s.sramAddr s.thr.tid.part s.thr.core (tableOff s.thr.csr.tblp i)) = false

/-- Entry i of the focused thread's decode table (R202). -/
def entry (s : State) (i : Nat) : Val := s.tableVal s.thr.tid.part s.thr.core s.thr.csr.tblp i

/-- A thread after a form that draws under SR by its own mode rm: flags ORed, and the position advanced. -/
def drawn (t : Thread) (rm : Nat) (fl : Flags) : Thread :=
  { t with csr := if rm = 5
      then { t.csr with fstat := t.csr.fstat ||| fl.setWidth 32
                        rposl := (join t.csr.rposh t.csr.rposl + 1).setWidth 32
                        rposh := ((join t.csr.rposh t.csr.rposl + 1) >>> 32).setWidth 32 }
      else { t.csr with fstat := t.csr.fstat ||| fl.setWidth 32 } }

/-- FP32 element i of a group of registers from its lowest (R233). -/
def groupEl (t : Thread) (base i : Nat) : Nat := elem (t.rv (BitVec.ofNat 7 (base + i / 4))) 32 (i % 4)

/-- The focused thread has read a scratchpad: what it read may be the carrying write of any release (R293, R296). -/
def sawPad (t : Thread) : Thread := { t with seen := BitVec.allOnes 512 }

/-- The focused thread has read a line of the L1: it has seen what the response that brought the line had (R293). -/
def sawLine (t : Thread) (l : L1Line) : Thread := { t with seen := t.seen ||| l.sig }

/-- A thread is u but for n vector registers from a lowest one, whose FP32 elements are f; their poison marks go. -/
def groupWritten (t u : Thread) (base n : Nat) (f : Nat → Nat) : Prop :=
  (∀ i, i < 4 * n → groupEl t base i = f i % 2 ^ 32) ∧
  (∀ r : BitVec 7, (∀ i, i < n → r ≠ BitVec.ofNat 7 (base + i)) → t.rv r = u.rv r) ∧
  (∃ v, t = { u with v := v, poison := u.poison.filter (fun x => (List.range n).all (fun i => x % 65536 != 4096 + (base + i))) })

end Sys2Proof.Claims

namespace Sys2Proof.Claims

open Sys2Proof.Machine

/-! ## Memory forms (R150–R157) -/

/-- A memory form: its guard, base pair and offset, the alignment that its address needs (R152), whether a window address may
hold its bytes (R157), the places of those bytes from that of its address, what it asks of its home at an address, and
whether its line may be installed (R150). -/
structure MemForm where
  g : BitVec 4
  bp : BitVec 3
  off : BitVec 24
  ok : Nat → Bool
  pad : Bool
  bytes : Nat → List Nat
  op : Thread → Nat → MemOp
  install : Bool := false

/-- n bytes upward from a place, and the bytes of the column line of width w that its first element's place names (R97). -/
def run (n a : Nat) : List Nat := (List.range n).map (fun i => a + i)
def column (w a : Nat) : List Nat := (List.range (32 / w)).flatMap (fun i => (List.range w).map (fun b => a + 32 * i + b))

/-- Multiples of n; addresses that name a column line of width w (R97). -/
def mult (n a : Nat) : Bool := decide (a % n = 0)
def columnLine (w a : Nat) : Bool := decide (a % 32 % w = 0) && decide (a / 32 % 32 % (32 / w) = 0)

/-- A form that accesses n contiguous bytes, and one that accesses a column line. -/
def rowForm (g : BitVec 4) (bp : BitVec 3) (off : BitVec 24) (n : Nat) (op : Thread → Nat → MemOp) (h : BitVec 5 := 1) :
    MemForm :=
  { g := g, bp := bp, off := off, ok := mult n, pad := true, bytes := run n, op := op, install := !h.getLsbD 0 }
def colForm (bp : BitVec 3) (off : BitVec 24) (w : Nat) (op : Thread → Nat → MemOp) (h : BitVec 5 := 1) : MemForm :=
  { g := 0, bp := bp, off := off, ok := columnLine w, pad := true, bytes := column w, op := op, install := !h.getLsbD 0 }

/-- The loads of R154 and R156 but LDA, each with what it does to its thread with the loaded value. -/
def loadOf : Instr → Option (MemForm × (Thread → Nat → Thread))
  | .ldb g d bp h o =>
    some (rowForm g bp o 1 (fun _ _ => .read .row 1) h, fun t v => t.ws d (BitVec.ofInt 32 (BitVec.ofNat 8 v).toInt))
  | .ldbu g d bp h o => some (rowForm g bp o 1 (fun _ _ => .read .row 1) h, fun t v => t.ws d (BitVec.ofNat 32 v))
  | .ldh g d bp h o =>
    some (rowForm g bp o 2 (fun _ _ => .read .row 2) h, fun t v => t.ws d (BitVec.ofInt 32 (BitVec.ofNat 16 v).toInt))
  | .ldhu g d bp h o => some (rowForm g bp o 2 (fun _ _ => .read .row 2) h, fun t v => t.ws d (BitVec.ofNat 32 v))
  | .ldw g d bp h o => some (rowForm g bp o 4 (fun _ _ => .read .row 4) h, fun t v => t.ws d (BitVec.ofNat 32 v))
  | .ldd g d bp h o => some (rowForm g bp o 8 (fun _ _ => .read .row 8) h, fun t v => setPair t d (BitVec.ofNat 64 v))
  | .ldv d bp h o => some (rowForm 0 bp o 16 (fun _ _ => .read .row 16) h, fun t v => t.wv d (BitVec.ofNat 128 v))
  | .ldvp d bp h o => some (rowForm 0 bp o 32 (fun _ _ => .read .row 32) h, fun t v => t.wvp d (BitVec.ofNat 256 v))
  | .ldvc d bp cw h o =>
    some (colForm bp o (2 ^ cw.toNat) (fun _ _ => .read (.col (2 ^ cw.toNat)) 32) h,
      fun t v => t.wvp d (BitVec.ofNat 256 v))
  | .ldvb d bp ty h o =>
    some (rowForm 0 bp o (tWidth ty.toNat / 8) (fun _ _ => .read .row (tWidth ty.toNat / 8)) h,
      fun t v => t.wv d (BitVec.ofNat 128 ((List.range (tElems ty.toNat)).foldl
        (fun x i => x + v % 2 ^ tWidth ty.toNat * 2 ^ (tWidth ty.toNat * i)) 0)))
  | _ => none

/-- The stores of R154 and R156 but STR, each with its data, lowest byte first. -/
def storeOf : Instr → Option (MemForm × (Thread → Line))
  | .stb g d bp _ o => some (rowForm g bp o 1 (fun t _ => .write 1 ((t.rs d).setWidth 256) false), fun t => (t.rs d).setWidth 256)
  | .sth g d bp _ o => some (rowForm g bp o 2 (fun t _ => .write 2 ((t.rs d).setWidth 256) false), fun t => (t.rs d).setWidth 256)
  | .stw g d bp _ o => some (rowForm g bp o 4 (fun t _ => .write 4 ((t.rs d).setWidth 256) false), fun t => (t.rs d).setWidth 256)
  | .std g d bp _ o => some (rowForm g bp o 8 (fun t _ => .write 8 ((t.ra d).setWidth 256) false), fun t => (t.ra d).setWidth 256)
  | .stv d bp _ o => some (rowForm 0 bp o 16 (fun t _ => .write 16 ((t.rv d).setWidth 256) false), fun t => (t.rv d).setWidth 256)
  | .stvp d bp _ o => some (rowForm 0 bp o 32 (fun t _ => .write 32 (t.rvp d) false), fun t => t.rvp d)
  | .stvc d bp cw _ o =>
    some (colForm bp o (2 ^ cw.toNat) (fun t _ => .writeCol (2 ^ cw.toNat) (t.rvp d)), fun t => t.rvp d)
  | _ => none

/-- An atomic: its form, whether it returns the old value, its size in bytes, where that value goes, and the new value and
flags from its thread and the old value (R155). -/
structure AtomForm where
  form : MemForm
  returns : Bool
  n : Nat
  put : Thread → Nat → Thread
  new : Thread → Nat → Nat × Flags

/-- An atomic of a word or doubleword operand. -/
def atom (g d : BitVec 4) (bp : BitVec 3) (nr sz : BitVec 1) (off : BitVec 24) (op : AluOp)
    (f : Nat → Nat → Nat → Nat × Flags) : AtomForm :=
  let n := if sz = 0 then 4 else 8
  let reg (t : Thread) (d : BitVec 4) : DWord := if sz = 0 then (t.rs d).setWidth 64 else t.ra (d.extractLsb' 1 3)
  let v (t : Thread) : DWord := if op = .cas then reg t (d + if sz = 0 then 1 else 2) else reg t d
  let c (t : Thread) : DWord := if op = .cas then reg t d else 0
  { form := rowForm g bp off n (fun t _ => .alu op n (v t) (c t))
    returns := decide (nr = 0), n := n
    put := fun t x => if sz = 0 then t.ws d (BitVec.ofNat 32 x) else setPair t (d.extractLsb' 1 3) (BitVec.ofNat 64 x)
    new := fun t x => f x (v t).toNat (c t).toNat }

/-- The signed value of an n-byte number. -/
def sbytes (sz : BitVec 1) (x : Nat) : Int := if sz = 0 then (BitVec.ofNat 32 x).toInt else (BitVec.ofNat 64 x).toInt

/-- The atomics of R155, each with its new value from old, v and the compare value. -/
def atomOf : Instr → Option AtomForm
  | .aadd g d bp nr sz _ o => some (atom g d bp nr sz o .add (fun x v _ => ((x + v) % 2 ^ (if sz = 0 then 32 else 64), 0)))
  | .amin g d bp nr sz _ o => some (atom g d bp nr sz o .min (fun x v _ => (if sbytes sz x ≤ sbytes sz v then x else v, 0)))
  | .amax g d bp nr sz _ o => some (atom g d bp nr sz o .max (fun x v _ => (if sbytes sz x ≤ sbytes sz v then v else x, 0)))
  | .aminu g d bp nr sz _ o => some (atom g d bp nr sz o .minu (fun x v _ => (if x ≤ v then x else v, 0)))
  | .amaxu g d bp nr sz _ o => some (atom g d bp nr sz o .maxu (fun x v _ => (if x ≤ v then v else x, 0)))
  | .aand g d bp nr sz _ o => some (atom g d bp nr sz o .and (fun x v _ => (x &&& v, 0)))
  | .aor g d bp nr sz _ o => some (atom g d bp nr sz o .or (fun x v _ => (x ||| v, 0)))
  | .axor g d bp nr sz _ o => some (atom g d bp nr sz o .xor (fun x v _ => (x ^^^ v, 0)))
  | .aswp g d bp nr sz _ o => some (atom g d bp nr sz o .swp (fun _ v _ => (v, 0)))
  | .acas g d bp nr sz _ o => some (atom g d bp nr sz o .cas (fun x v c => (if x = c then v else x, 0)))
  | .aaddf g d bp nr _ o => some (atom g d bp nr 0 o .addf (fun x v _ => addF x v))
  | _ => none

/-- Every memory form but STR and the LDT forms. -/
def memOf (i : Instr) : Option MemForm :=
  match i with
  | .vaadd d bp bs rm ty _ o =>
    some { rowForm 0 bp o 16 (fun t va => .vaadd ty rm (t.rv d) (t.vaaddDraws d bs rm ty va)) with pad := false }
  | i => ((loadOf i).map (·.1)).or (((storeOf i).map (·.1)).or ((atomOf i).map (·.form)))

/-- va (R152). -/
def MemForm.va (m : MemForm) (t : Thread) : Nat :=
  ((((t.rs (m.bp ++ 1#1)).toNat * 2 ^ 32 + (t.rs (m.bp ++ 0#1)).toNat : Nat) + m.off.toInt) % 2 ^ 64).toNat

/-- The focused thread runs, and nothing of the instruction has happened yet. -/
def atIssue (s : State) : Prop := s.thr.phase = .run ∧ s.thr.answer = none ∧ s.thr.stage = {}

/-- The answer that the parked instruction waits for has come, and says that the access was performed. -/
def answeredBy (s : State) (a : Answer) : Prop := s.thr.answer = some a ∧ a.verdict = .ok

/-- Some scratchpad places, named by a window address, are the focused thread's own core's; they lie below the watermarks,
and their banks are its partition's (R65, R66, R133, R144, R146). -/
def inPad (s : State) (va : Nat) (offs : List Nat) : Prop :=
  2 ^ 64 - 2 ^ 57 ≤ va ∧ s.window s.thr.tid.part s.thr.core va offs = some (s.thr.core, va % 2 ^ 16) ∧
  s.l1cfgWaits s.thr.tid.part s.thr.core = false ∧ s.aboveMark s.thr.tid.part s.thr.core offs = false ∧
  ∀ o ∈ offs, Table.get? s.tags (s.sramAddr s.thr.tid.part s.thr.core o / 4096) = some s.thr.tid.part

/-- The SRAM address of a place of the focused thread's own scratchpad. -/
def padAddr (s : State) (o : Nat) : Nat := s.sramAddr s.thr.tid.part s.thr.core o

/-- No word of some places is poisoned (R148). -/
def unpoisoned (s : State) (offs : List Nat) : Prop := ∀ o ∈ offs, padAddr s o / 4 * 4 ∉ s.sramPois

/-- The value of some places, the first lowest (R3). -/
def padValue (s : State) (offs : List Nat) : Nat := leNat (offs.map (fun o => Memory.read s.sram (padAddr s o)))

/-- SRAM m holds the bytes of a value at some places, lowest first, and is as that of s everywhere else; a word written whole
has lost its poison, and no other (R148). -/
def padWritten (s : State) (offs : List Nat) (v : Nat) (m : Memory) (pois : List Nat) : Prop :=
  (∀ k, ∀ h : k < offs.length, (Memory.read m (padAddr s offs[k])).toNat = v / 2 ^ (8 * k) % 256) ∧
  (∀ x, (∀ o ∈ offs, x ≠ padAddr s o) → Memory.read m x = Memory.read s.sram x) ∧
  (∀ w, w ∈ pois ↔ w ∈ s.sramPois ∧ ∃ i, i < 4 ∧ ∀ o ∈ offs, w + i ≠ padAddr s o)

/-- The focused thread has sent a request and waits for its answer: one issue cycle, the packet, the words kept for the
reissue. Nothing else changes. -/
def waiting (s : State) (b : Body) : State :=
  { s with
    net := s.net ++ [{ seq := s.seqno, part := s.thr.tid.part, src := s.thr.core, body := b }]
    seqno := s.seqno + 2
    thr := { s.thr with phase := .parked .answer, expect := some s.seqno, issued := s.thr.issued + 1
                        stage := { sent := true, charged := true }, latch := s.wordsHere
                        parkSeq := s.seqno + 1, parkTime := s.gtime } }

end Sys2Proof.Claims

namespace Sys2Proof.Claims

open Sys2Proof.Machine

/-! ## Ordering (R290–R302) -/

/-- The focused thread has parked for a reason at its first issue: one issue cycle, and the words kept for the reissue. -/
def parkedAt (s : State) (w : Wait) : State :=
  { s with
    seqno := s.seqno + 1
    thr := { s.thr with phase := .parked w, issued := s.thr.issued + 1, stage := { s.thr.stage with charged := true }
                        latch := s.wordsHere, parkSeq := s.seqno, parkTime := s.gtime } }

/-- A packet of the focused thread enters the mesh at its core. -/
def sends (s : State) (b : Body) : State :=
  { s with net := s.net ++ [{ seq := s.seqno, part := s.thr.tid.part, src := s.thr.core, body := b }], seqno := s.seqno + 1 }

/-- A packet from a place of the device takes the number of the request that it answers. -/
def replies (s : State) (seq part src : Nat) (b : Body) : State :=
  { s with net := s.net ++ [{ seq := seq, part := part, src := src, body := b }] }

/-- A named scope is executed as it is named (R291). -/
def uncapped (s : State) (sc : Nat) : Prop := ¬(sc = 6 ∧ (s.part s.thr.tid.part).ctl.toNat % 8 = 4)

/-- The focused thread's core applies a signature, and the thread's accumulator takes it (R294, R295). -/
def acquired (s : State) (g : Sig) : State :=
  withThr (s.applySig s.thr.core s.thr.tid.part g) { (s.applySig s.thr.core s.thr.tid.part g).thr with acc := s.thr.acc ||| g }

/-- An acquire at a scope: nothing at scope 0; at scopes 5 and 6 the slices drop the partition's clean sectors, and the
signature is all ones (R297, R301). -/
def acquiredAt (s : State) (n : Nat) (g : Sig) : State :=
  if n = 0 then s else if n ≤ 4 then acquired s g else acquired (s.dropClean s.thr.tid.part) (BitVec.allOnes 512)

/-- The thread's seen signature is cleared. -/
def unseen (s : State) : State := withThr s { s.thr with seen := 0 }

/-- What a release of a thread says: its accumulator, and what its earlier releases said, whose accesses precede this one too
(R293, R294). -/
def said (t : Thread) : Sig := t.acc ||| t.told

/-- No request of the focused thread is on its way or held, and no answer to one (R153, R298). -/
def acknowledged (s : State) : Prop :=
  (∀ k ∈ s.net, match k.body with
    | .slice r | .scratch r | .answer r .. => r.tid ≠ s.thr.tid
    | .wake t .. => t ≠ s.thr.tid
    | _ => True) ∧
  ∀ h ∈ s.held, h.req.tid ≠ s.thr.tid

/-- A release publishes without waiting: every access of the thread is acknowledged and no ticket fetch of it unserved; and at
scopes 5 and 6 no sector of its partition, and none that is being written back, matches what it says (R297, R298). -/
def publishes (s : State) (n : Nat) : Prop :=
  s.thr.unserved = 0 ∧ acknowledged s ∧
  (5 ≤ n → (∀ c ∈ s.sectors, c.asn = s.thr.tid.part → sigHit (said s.thr) c.vpn = false) ∧
    ∀ w ∈ s.wbs, w.part = s.thr.tid.part → sigHit (said s.thr) w.vpn = false)

/-- The thread after a release: the accumulator and the attached signature are cleared (R294). -/
def spoken (t : Thread) : Thread := { t with acc := 0, attach := 0, told := said t }

/-- The state after a release at a scope; nothing at scope 0 (R294, R301). -/
def published (s : State) (n : Nat) : State := if n = 0 then s else withThr s (spoken s.thr)

/-- The same, with the released signature attached to later writes, as REL and FENCE do (R294). -/
def attached (s : State) (n : Nat) : State :=
  if n = 0 then s else withThr s { spoken s.thr with attach := said s.thr }

/-- What FENCEE acquires: the signatures of the commands completed since the last one (R298, R301). -/
def ownSigs (s : State) : Sig :=
  (s.slotAt s.thr.core s.thr.slot).copy.sigs ||| (s.slotAt s.thr.core s.thr.slot).mtx.sigs
def ownAcquired (s : State) : State :=
  if ownSigs s = 0 then s
  else acquired (s.modSlot s.thr.core s.thr.slot (fun k =>
    { k with copy := { k.copy with sigs := 0 }, mtx := { k.mtx with sigs := 0 } })) (ownSigs s)

/-- The queues of the focused thread's slot are empty and its deliveries done, and it is at home (R301). -/
def idleQueues (s : State) : Prop :=
  s.thr.rdmsDue = 0 ∧ s.thr.home = none ∧ s.thr.travelling = false ∧ ∀ m, (s.queueAt s.thr.core s.thr.slot m).cmds = [] ∧
    (s.queueAt s.thr.core s.thr.slot m).posting = false

/-! ## Tickets (R108–R120) -/

/-- An LDT form: guard, destination, base, offset, kind, column width and alignment (R118). -/
structure LdtForm where
  g : BitVec 4
  d : BitVec 4
  bp : BitVec 3
  off : BitVec 24
  kind : Nat
  cw : Nat := 0
  ok : Nat → Bool
def ldtOf : Instr → Option LdtForm
  | .ldtL g d bp _ o => some { g := g, d := d, bp := bp, off := o, kind := 0, ok := mult 32 }
  | .ldtQ g d bp _ o => some { g := g, d := d, bp := bp, off := o, kind := 1, ok := mult 128 }
  | .ldtS g d bp _ o => some { g := g, d := d, bp := bp, off := o, kind := 2, ok := mult 1024 }
  | .ldtC g d bp cw _ o =>
    some { g := g, d := d, bp := bp, off := o, kind := 3, cw := 2 ^ cw.toNat, ok := columnLine (2 ^ cw.toNat) }
  | _ => none

def LdtForm.va (m : LdtForm) (t : Thread) : Nat :=
  ((((t.rs (m.bp ++ 1#1)).toNat * 2 ^ 32 + (t.rs (m.bp ++ 0#1)).toNat : Nat) + m.off.toInt) % 2 ^ 64).toNat

/-- A ticket value: slice index, core index within its die, die, sequence number (R108). -/
def ticketOf (ix core seq : Nat) : Word :=
  BitVec.ofNat 32 (ix * 2 ^ 21 + (core % 640 % 160 + 160 * (core / 640 % 160)) * 2 ^ 6
    + (core % 640 / 160 + 4 * (core / 640 / 160)) * 4 + seq)

/-- A redemption of the focused thread for a ticket (R113). -/
def redeemOf (s : State) (v : Word) (k : RedeemKind) : Redeem :=
  { tid := s.thr.tid, part := s.thr.tid.part, core := s.thr.core, slot := s.thr.slot
    slice := shSlice (s.shape s.thr.tid.part) (v.toNat / 2 ^ 21), ticket := v, kind := k }

/-- The ticket names a slice of the partition, and no refused fetch of the thread goes there first (R111). -/
def redeemable (s : State) (v : Word) : Prop :=
  v.toNat / 2 ^ 21 < shSlices (s.shape s.thr.tid.part) ∧
  s.fetchRefused (shSlice (s.shape s.thr.tid.part) (v.toNat / 2 ^ 21)) = false

end Sys2Proof.Claims

namespace Sys2Proof.Claims

open Sys2Proof.Machine

/-! ## Forms that reach other parts of the machine (R143, R158, R159, R317–R325) -/

/-- A trap of the instruction at the pc, of one issue cycle. -/
def trapped (s : State) (cause : Nat) (detail : Nat) : State :=
  entered s 1 cause (BitVec.ofNat 64 detail) s.thr.pc (repstAt s.thr.rep)

/-- The focused thread has sent a packet, and waits for a reason of its own; and the same after a release at scope 4. -/
def waitingFor (s : State) (w : Wait) (b : Body) : State := withThr (waiting s b) { (waiting s b).thr with phase := .parked w }
def releasedFor (s : State) (w : Wait) (b : Body) : State :=
  withThr (waiting s b) { (waiting s b).thr with
    phase := .parked w, acc := 0, attach := 0, told := said s.thr
    stage := { rel := 2, sig := said s.thr, sent := true, charged := true } }

/-- The four registers from s(4n), and a message in them (R320). -/
def fourRegs (t : Thread) (n : BitVec 2) (g : Sig) : Msg :=
  { w0 := t.rs (n ++ 0#2), w1 := t.rs (n ++ 1#2), w2 := t.rs (n ++ 2#2), w3 := t.rs (n ++ 3#2), sig := g }
def setFour (t : Thread) (n : BitVec 2) (m : Msg) : Thread :=
  (((t.ws (n ++ 0#2) m.w0).ws (n ++ 1#2) m.w1).ws (n ++ 2#2) m.w2).ws (n ++ 3#2) m.w3

/-- A class is bound to one of the focused thread's slots on its core, and its partition owns it (R319, R320). -/
def boundTo (s : State) (c : Nat) : Prop :=
  s.ownsSlot s.thr.tid.part s.thr.core c = true ∧
  ∃ b, (s.classAt s.thr.core c).bound = some b ∧ s.thr.ownsHere b = true

/-- The message m has been taken from a class of the focused thread's core, and its signature acquired (R298, R320). -/
def taken (s : State) (c : Nat) (rest : List Msg) (m : Msg) : State :=
  acquired (s.setClass s.thr.core c { s.classAt s.thr.core c with queue := rest }) m.sig

/-- Index m's group, its phase to arrive at, and the thread past that phase (R322, R323). -/
def groupOf (t : Thread) (m : BitVec 2) : Half := t.grp[m.toNat]
def phaseOf (t : Thread) (m : BitVec 2) : Nat := t.arr[m.toNat]
def ackOf (t : Thread) (m : BitVec 2) : Nat := t.acquired[m.toNat]
def setPhase (t : Thread) (m : BitVec 2) (n : Nat) : Thread := { t with arr := t.arr.set m.toNat n (by exact m.isLt) }
def setAck (t : Thread) (m : BitVec 2) (n : Nat) : Thread := { t with acquired := t.acquired.set m.toNat n (by exact m.isLt) }

/-- An arrival of the focused thread. -/
def arrivalOf (s : State) (m : BitVec 2) (k : ArriveKind) (g : Sig) (wait : Bool) : Arrive :=
  { tid := s.thr.tid, gid := (groupOf s.thr m).toNat, phase := phaseOf s.thr m, kind := k, sig := g
    seq := if wait then some s.seqno else none }

/-- The union of the signatures of a group's phases from one on, and whether its count is past a phase (R322, R323). -/
def unionFrom (b : Bar) (since : Nat) : Sig := (b.sigs.drop since).foldl (fun g x => g ||| x) 0
def pastPhase (b : Bar) (phase : Nat) : Prop := ((b.c : Int) - phase - 1) % 2 ^ 32 < 2 ^ 31

/-- The completed phases of the focused thread's group m, and its acquire of those up to c. -/
def countOf (s : State) (m : BitVec 2) : Nat :=
  ((s.bar? s.thr.tid.part s.thr.tid.lid (groupOf s.thr m).toNat).map (·.c)).getD 0
def caughtUp (s : State) (m : BitVec 2) (c : Nat) (g : Sig) : State :=
  withThr (acquired s g) (setAck (acquired s g).thr m c)

/-- The thread's acquire of a phase that has completed. -/
def barred (s : State) (m : BitVec 2) (g : Sig) : State :=
  withThr (acquired s g) (setAck (setPhase (acquired s g).thr m (phaseOf s.thr m + 1)) m (phaseOf s.thr m + 1))

/-- A command of the registers has joined a queue of the thread's slot with a release's signature, and sD has its transfer id
(R143, R138, R250, R294). -/
def enqueued (s : State) (d : BitVec 4) (w : Line) (mtx : Bool) (g : Sig) : State :=
  let q := s.queueAt s.thr.core s.thr.slot mtx
  let c := s.thr.csr
  withThr (s.setQueueAt s.thr.core s.thr.slot mtx
    { q with next := q.next + 1
             cmds := q.cmds ++ [{ id := q.next, word := w, sig := g
                                  cap := { fmtd := c.fmtd, tblp := c.tblp, sclp := c.sclph ++ c.sclpl
                                           rkey := c.rkeyh ++ c.rkeyl, rstr := c.rstr, rpos := c.rposh ++ c.rposl } }] })
    (s.thr.ws d (q.next.setWidth 32))

/-- The head's element count, and the state without n words of queue k (R158). -/
def popped (s : State) (k n : Nat) : State := s.modSlot s.thr.core k (fun c => { c with inq := c.inq.drop n })
/-- The state with some words appended to queue k, and its holder's wake bit set (R158, R186). -/
def pushed (s : State) (k : Nat) (ws : List Word) : State :=
  (s.modSlot s.thr.core k (fun c => { c with inq := c.inq ++ ws })).wakeSlot s.thr.tid.part s.thr.core k

/-- The TJ forms: number, guard and registers (R280). -/
def tjOf : Instr → Option (Nat × BitVec 4 × BitVec 4 × BitVec 4 × BitVec 4)
  | .tjins g d a b => some (0, g, d, a, b)
  | .tjsmp g d a b => some (1, g, d, a, b)
  | .tjpri g d a b => some (2, g, d, a, b)
  | .tjevt g d a b => some (3, g, d, a, b)
  | .tjver g d a b => some (4, g, d, a, b)
  | .tjqry g d a b => some (5, g, d, a, b)
  | .tjget g d a b => some (6, g, d, a, b)
  | _ => none

/-- The RO words of an answer stand in the block at a place of own scratchpad. -/
def blockWritten (s : State) (o : Nat) (ws : List (Nat × Word)) : State :=
  if ws = [] then s
  else s.scratchWrite s.thr.tid.part s.thr.core (ws.flatMap (fun iw =>
    (run 4 (o + 4 * iw.1)).zip (leBytes iw.2.toNat 4)))

/-- A travel context carries the focused thread's pc of the next instruction, its predicate word and s0–s9, and zero elsewhere
(R167). -/
def carries (t : Thread) (pc : DWord) (x : BitVec 512) : Prop :=
  x.toNat / 2 ^ 408 = 0 ∧ x.toNat / 2 ^ 400 % 2 ^ 8 = t.p.toNat / 2 * 2 + 1 ∧ x.toNat / 2 ^ 336 % 2 ^ 64 = pc.toNat ∧
  x.toNat / 2 ^ 320 % 2 ^ 16 = 0 ∧ ∀ i : Fin 10, x.toNat / 2 ^ (32 * i.val) % 2 ^ 32 = (t.s[i.val]).toNat

/-- A thread whose s0–s9, predicate word and pc are those of a travel context, and the other registers f's (R166, R167). -/
def unpacked (t : Thread) (x : BitVec 512) (f : BitVec 4 → Word) : Prop :=
  t.pc.toNat = x.toNat / 2 ^ 336 % 2 ^ 64 ∧ t.p.toNat = x.toNat / 2 ^ 400 % 2 ^ 8 ∧
  ∀ r : BitVec 4, t.rs r = if r.toNat < 10 then BitVec.ofNat 32 (x.toNat / 2 ^ (32 * r.toNat)) else f r

/-- A thread stands before the same instruction, with an answer awaited. -/
def awaits (s t : State) : Prop :=
  t.thr.phase = .parked .answer ∧ t.thr.expect = some s.seqno ∧ t.thr.pc = s.thr.pc ∧ t.thr.s = s.thr.s ∧
  t.thr.issued = s.thr.issued + 1

end Sys2Proof.Claims

namespace Sys2Proof.Claims

open Sys2Proof.Machine

/-! ## The tickets' events (R110–R115, R119) -/

/-- The thread and the slice of a packet that a slice takes in order (R111). -/
def headed (b : Body) : Option (Tid × Nat) :=
  match b with
  | .slice q => some (q.tid, q.dst)
  | .tkFetch q => some (q.tid, q.slice)
  | .redeem q => some (q.tid, q.slice)
  | _ => none

/-- Packet n carries b, and no earlier packet of its thread goes to its slice. -/
def arrives (s : State) (n : Nat) (b : Body) : Prop :=
  (∃ p src, s.packet? n = some { seq := n, part := p, src := src, body := b }) ∧
  (headed b ≠ none → ∀ k ∈ s.net, k.seq < n → headed k.body ≠ headed b)

/-- The units of 32 bytes that a kind of ticket holds (R110). -/
def kindUnits (kind : Nat) : Nat := if kind = 1 then 4 else if kind = 2 then 32 else 1

/-- The tombstones of a value at a slice, which a new entry of that value replaces, and the entries but for them (R111). -/
def isTomb (slice : Nat) (v : Word) (t : Ticket) : Bool :=
  t.slice == slice && t.val == v && (t.state == .spent || t.state == .expired)

/-- Packet n is gone. -/
def without (s : State) (n : Nat) : State := { s with net := s.net.filter (fun k => k.seq != n) }

/-- An entry has become the youngest tombstone, its units free; d says whether a fetch still under way is to be discarded.
The issuing core is told (R115). -/
def buried (s : State) (t : Ticket) (st : TkState) (d : Bool) : State :=
  { s with
    tickets := s.tickets.filter (fun x => x.n != t.n) ++
      [{ t with state := st, units := 0, data := [], claim := none, discard := d, delivering := false }]
    net := s.net ++ [{ seq := s.seqno, part := t.part, src := sliceCore t.slice, body := .retire t.val }]
    seqno := s.seqno + 1 }

/-- One entry changed. -/
def setTicket (s : State) (t u : Ticket) : State :=
  { s with tickets := s.tickets.map (fun x => if x.n == t.n then u else x) }

/-- Some lines as one value, the first lowest. -/
def linesValue (ls : List Line) : Nat := ls.foldr (fun l v => l.toNat + v * 2 ^ 256) 0

end Sys2Proof.Claims

namespace Sys2Proof.Claims

open Sys2Proof.Machine

/-! ## Engine commands (R63, R121–R142, R249–R263) -/

/-- The eight copy kinds and the three matrix kinds, each with its event and the check of its body. -/
def copyKinds : List (Nat × (Nat → Nat → Nat → Instr)) :=
  [(0x20, .copy), (0x21, .slab), (0x22, .gather), (0x23, .fill), (0x24, .ccvt), (0x25, .cred), (0x26, .optadam), (0x27, .optsgd)]
def matrixKinds : List (Nat × (Nat → Nat → Nat → Instr) × (Cmd → Bool)) :=
  [(1, .mma, (·.mmaOk false)), (2, .mmai, (·.mmaOk true)), (3, .mepi, (·.mepiOk))]

/-- The core of device coordinates, and the partition whose thread owns a queue. -/
def engineCore (x y : Nat) : Nat := x + 640 * y

/-- Command c is at the head of a queue, with rest behind it, and its queue may go on. -/
def atHead (s : State) (core slot : Nat) (mtx : Bool) (c : Cmd) (rest : List Cmd) : Prop :=
  (s.queueAt core slot mtx).cmds = c :: rest

/-- The state with that command as another. -/
def withHead (s : State) (core slot : Nat) (mtx : Bool) (c : Cmd) (rest : List Cmd) : State :=
  s.setQueueAt core slot mtx { s.queueAt core slot mtx with cmds := c :: rest }

/-- The header of a known kind is legal (R63, R255). -/
def legalHeader (s : State) (p core : Nat) (mtx : Bool) (w : Line) : Prop :=
  w.toNat / 2 ^ 23 % 2 ^ 9 = 0 ∧ w.getLsbD 11 = false ∧ w.toNat / 2 ^ 12 % 8 ≠ 7 ∧ (w.getLsbD 8 = true → mtx = true) ∧
  (w.getLsbD 9 = true → s.ownsSlot p core (w.toNat / 2 ^ 15 % 16) = true) ∧
  s.ownsSlot p core (w.toNat / 2 ^ 19 % 16) = true ∧ (mtx = true → w.toNat / 2 ^ 19 % 16 = 0)

/-- A command has ended with a code before any work. -/
def endedWith (c : Cmd) (code : Nat) (first : Option Nat) : Cmd := { c with state := .ending, code := code, first := first }

/-- Places of a core's scratchpad that partition p may use: in range, their banks its own (R66, R144). -/
def padOwned (s : State) (p core : Nat) (offs : List Nat) : Prop :=
  ∀ o ∈ offs, o < s.scratchSize p core ∧ Table.get? s.tags (s.sramAddr p core o / 4096) = some p

/-- No word of some places of a core's scratchpad is poisoned (R148), and the byte at one. -/
def padClean (s : State) (p core : Nat) (offs : List Nat) : Prop := ∀ o ∈ offs, s.sramAddr p core o / 4 * 4 ∉ s.sramPois
def padByte (s : State) (p core o : Nat) : Nat := (Memory.read s.sram (s.sramAddr p core o)).toNat

/-- SRAM m has the bytes f 0 … f (n − 1) at n places of a core's scratchpad from o, and is as that of s elsewhere. -/
def padFilled (s : State) (p core o n : Nat) (f : Nat → Nat) (m : Memory) : Prop :=
  (∀ k, k < n → (Memory.read m (s.sramAddr p core (o + k))).toNat = f k % 256) ∧
  (∀ x, (∀ k, k < n → x ≠ s.sramAddr p core (o + k)) → Memory.read m x = Memory.read s.sram x)

/-- The virtual address of an address field of a body: 56 bits, or a window address (R124). -/
def fieldAddr (c : Cmd) (lo : Nat) : Nat :=
  let a := c.word.toNat / 2 ^ lo % 2 ^ 57
  if a / 2 ^ 56 = 1 then 2 ^ 64 - 2 ^ 57 + a % 2 ^ 56 else a % 2 ^ 56

/-- A window address names n bytes from o of core k's scratchpad for a command of an engine of a core, all within one row, and no
write of L1CFG holds the command there (R146). -/
def namesRow (s : State) (p core : Nat) (c : Cmd) (va n k o : Nat) : Prop :=
  2 ^ 64 - 2 ^ 57 ≤ va ∧ va % 2 ^ 16 = o ∧ o % 32 + n ≤ 32 ∧ s.window p core va (run n o) = some (k, o) ∧
  padOwned s p k (run n o) ∧ (k ∈ c.cores ∨ s.l1cfgWaits p k = false)

/-- A command that keeps the cores that it reads or writes, with some more of them (R146). -/
def atHeadOn (s : State) (core slot : Nat) (c : Cmd) (more : List Nat) (rest : List Cmd) : Prop :=
  ∃ cs, (∀ q, q ∈ cs ↔ q ∈ c.cores ∨ q ∈ more) ∧ atHead s core slot false { c with cores := cs } rest

/-- SRAM m has each of some values, of n bytes at a place of a core's scratchpad, and is as that of s elsewhere. -/
structure PadPut where
  core : Nat
  o : Nat
  n : Nat
  v : Nat
def padPuts (s : State) (p : Nat) (xs : List PadPut) (m : Memory) : Prop :=
  (∀ x ∈ xs, ∀ k, k < x.n → (Memory.read m (s.sramAddr p x.core (x.o + k))).toNat = x.v / 2 ^ (8 * k) % 256) ∧
  (∀ a, (∀ x ∈ xs, ∀ k, k < x.n → a ≠ s.sramAddr p x.core (x.o + k)) → Memory.read m a = Memory.read s.sram a)

/-- The value of n bytes at a place of a core's scratchpad, the first lowest. -/
def padNat (s : State) (p core o n : Nat) : Nat := leNat ((run n o).map (fun o => BitVec.ofNat 8 (padByte s p core o)))

/-- CRED's new element from the old one and the source's: an exact sum, of integers modulo the width or clamped, of floats rounded
once with a draw (R139). -/
def reduced (t rm : Nat) (sat : Bool) (g old v : Nat) : Nat × Flags :=
  if t < 6 then
    let x := codeIntVal t old + codeIntVal t v
    if sat then (wrapInt (clampInt x (codeLo t) (codeHi t)).1 (codeWidth t), (clampInt x (codeLo t) (codeHi t)).2)
    else (wrapInt x (codeWidth t), 0)
  else (codeFmt t).finish rm sat g (sumVals rm [(codeFmt t).value old, (codeFmt t).value v])

/-- The element of OPTADAM in FP32, each operation rounded, with its parameters (R140): the new w, m and v, and the flags of all
operations. -/
def adamStep (q : Nat → Nat) (w m v g : Nat) : Nat × Nat × Nat × Flags :=
  let a := mulF (q 5) m
  let b := mulF (q 6) g
  let m2 := addF a.1 b.1
  let c := mulF (q 7) v
  let d := mulF (q 8) g
  let e := mulF d.1 g
  let v2 := addF c.1 e.1
  let h := mulF v2.1 (q 12)
  let r := sqrtF h.1
  let den := addF r.1 (q 9)
  let n := mulF m2.1 (q 11)
  let u := divF n.1 den.1
  let x := mulF (q 10) w
  let y := addF u.1 x.1
  let z := mulF (q 4) y.1
  let w2 := subF w z.1
  (w2.1, m2.1, v2.1, a.2 ||| b.2 ||| m2.2 ||| c.2 ||| d.2 ||| e.2 ||| v2.2 ||| h.2 ||| r.2 ||| den.2 ||| n.2 ||| u.2 ||| x.2
    ||| y.2 ||| z.2 ||| w2.2)

/-- The element of OPTSGD: the new w and m; with NOM no momentum (R140). -/
def sgdStep (q : Nat → Nat) (nom : Bool) (w m g : Nat) : Nat × Nat × Flags :=
  let a := mulF (q 5) m
  let m2 : Nat × Flags := if nom then (g, 0) else addF a.1 g
  let x := mulF (q 10) w
  let y := addF m2.1 x.1
  let z := mulF (q 4) y.1
  let w2 := subF w z.1
  (w2.1, m2.1, (if nom then 0 else a.2) ||| m2.2 ||| x.2 ||| y.2 ||| z.2 ||| w2.2)

/-- Word k of a parameter block, and the addresses in it (R140). -/
def paramWord (b : BitVec 512) (k : Nat) : Nat := b.toNat / 2 ^ (32 * k) % 2 ^ 32
def paramAddr (b : BitVec 512) (k : Nat) : Nat := b.toNat / 2 ^ (64 * k) % 2 ^ 64

/-- The bits and the exact value of element k of a row of a matrix operand, its scales from a place, its codes decoded by the
issuing core's table (R253, R256). -/
def operandBits (s : State) (p core row t k : Nat) : Nat :=
  if t = 11 ∨ t = 14 then padByte s p core (row + k / 2) / 16 ^ (k % 2) % 16
  else padNat s p core (row + k * codeWidth t / 8) (codeWidth t / 8)
def operandVal (s : State) (p home : Nat) (tblp : Word) (core row t sc k : Nat) : Val :=
  let x := operandBits s p core row t k
  if t = 12 then s.tableVal p home tblp x
  else if t = 14 then scaleVal (padByte s p core (sc + k / 32)) (fmtE2.value x)
  else codeVal t x

/-- Groups of g products in ascending order, each summed exactly with the accumulator and rounded to FP32 (R212, R256). -/
def dotGroups (g n : Nat) (a b : Nat → Val) (c : Nat) : Nat × Flags :=
  (List.range n).foldl (fun x j =>
    let r := fmtF.finish 0 false 0 (groupSum (fmtF.value x.1)
      ((List.range g).map (fun k => (a (g * j + k), b (g * j + k)))))
    (r.1, x.2 ||| r.2)) (c, 0)

/-- Element (i, j) of MMA's result, and its flags (R256). -/
def mmaResult (s : State) (p core : Nat) (c : Cmd) (i j : Nat) : Nat × Flags :=
  let a := c.sideA core
  let b := c.sideB core
  let g := if c.at_ = 14 ∨ c.bt = 14 then 32 else 16
  dotGroups g (c.k / g) (operandVal s p core c.cap.tblp a.core (a.off + i * a.str) c.at_ (a.sc + i * (c.k / 32)))
    (operandVal s p core c.cap.tblp b.core (b.off + j * b.str) c.bt (b.sc + j * (c.k / 32)))
    (if c.word.getLsbD 126 then padNat s p core (c.word.toNat / 2 ^ 196 % 2 ^ 16 + 64 * i + 4 * j) 4 else 0)

/-- The operands of MMA and MMAI in the order of R261: number, core and places. -/
def tileOperands (core : Nat) (c : Cmd) : List (Nat × Nat × List Nat) :=
  let a := c.sideA core
  let b := c.sideB core
  [(0, a.core, a.offs c.k), (1, b.core, b.offs c.k), (2, core, run 1024 (c.word.toNat / 2 ^ 196 % 2 ^ 16)),
   (3, a.core, a.scales c.k), (3, b.core, b.scales c.k)]

/-- The places of MEPI (R259): C, its destination, the scale vector and the bias vector. -/
def mepiC0 (c : Cmd) : Nat := c.word.toNat / 2 ^ 240 % 2 ^ 16
def mepiDst (c : Cmd) : Nat := c.word.toNat / 2 ^ 224 % 2 ^ 16
def mepiScale (c : Cmd) : Nat :=
  if c.word.toNat / 2 ^ 146 % 4 = 1 then c.word.toNat / 2 ^ 208 % 2 ^ 16 else c.cap.sclp.toNat % 2 ^ 16
def mepiOperands (core : Nat) (c : Cmd) : List (Nat × Nat × List Nat) :=
  [(2, core, run 1024 (mepiC0 c)), (2, core, run (32 * codeWidth c.dt) (mepiDst c)),
   (3, core, if c.word.toNat / 2 ^ 146 % 4 = 0 then [] else run 64 (mepiScale c)),
   (3, core, if c.word.getLsbD 145 then run 64 (c.word.toNat / 2 ^ 192 % 2 ^ 16) else [])]

/-- Element e of MEPI's result, and its flags (R260): C times the scale plus the bias, exact, rounded once; an integer result is
clamped (the model's reading, log entry 107). -/
def mepiResult (s : State) (p core : Nat) (c : Cmd) (e : Nat) : Nat × Flags :=
  let rm := c.word.toNat / 2 ^ 149 % 8
  let x := codeVal (c.word.toNat / 2 ^ 156 % 16) (padNat s p core (mepiC0 c + 4 * e) 4)
  let sv := fmtF.value (if c.word.toNat / 2 ^ 146 % 4 = 0 then c.word.toNat / 2 ^ 160 % 2 ^ 32
    else padNat s p core (mepiScale c + 4 * (e % 16)) 4)
  let bv := if c.word.getLsbD 145 then fmtF.value (padNat s p core (c.word.toNat / 2 ^ 192 % 2 ^ 16 + 4 * (e % 16)) 4)
    else .fin false 0 0
  let g := if rm = 5 then drawAt c.cap.rkey c.cap.rstr (c.cap.rpos + BitVec.ofNat 64 e) 0 else 0
  let t := mulVals x sv
  let r := sumVals rm [t.1, bv]
  let y := toCode c.dt rm (c.word.getLsbD 148) g r.1
  (y.1, y.2 ||| r.2 ||| (t.2 &&& fNV))

/-- An operand runs past its scratchpad, or holds a poisoned word (R261). -/
def beyond (s : State) (p : Nat) (o : Nat × Nat × List Nat) : Bool := o.2.2.any (fun x => decide (s.scratchSize p o.2.1 ≤ x))
def tainted (s : State) (p : Nat) (o : Nat × Nat × List Nat) : Bool :=
  o.2.2.any (fun x => s.sramPois.contains (s.sramAddr p o.2.1 x / 4 * 4))

/-- Element (i, j) of MMAI's result (R254, R256): operand rows of 16·(KG + 1) elements from each side's core, summed with the
accumulator's element when ACC is set, modulo 2^32. -/
def mmaiElement (s : State) (p core : Nat) (c : Cmd) (i j : Nat) : Nat :=
  let f (hi lo : Nat) : Nat := c.word.toNat / 2 ^ lo % 2 ^ (hi + 1 - lo)
  let mate (x y : Nat) : Nat := engineCore (core % 640 / 16 * 16 + x) (core / 640 / 4 * 4 + y)
  let elem (t x : Nat) : Int := if t = 0 then (BitVec.ofNat 8 x).toInt else x
  let a (k : Nat) : Int := elem c.at_ (padByte s p (mate (f 239 236) (f 235 234)) (f 255 240 + i * f 195 184 + k))
  let b (k : Nat) : Int := elem c.bt (padByte s p (mate (f 217 214) (f 213 212)) (f 233 218 + j * f 183 172 + k))
  let c0 : Nat := leNat ((run 4 (f 211 196 + 64 * i + 4 * j)).map (fun o => BitVec.ofNat 8 (padByte s p core o)))
  (((if c.word.getLsbD 126 then (c0 : Int) else 0) +
    (List.range (16 * (f 139 135 + 1))).foldl (fun t k => t + a k * b k) 0) % (2 ^ 32 : Nat)).toNat

/-- The places of the operands of MMA and MMAI at their cores (R253, R254). -/
def tilePlaces (core : Nat) (c : Cmd) : List (Nat × List Nat) :=
  [((c.sideA core).core, (c.sideA core).offs c.k), ((c.sideB core).core, (c.sideB core).offs c.k),
   (core, run 1024 (c.f 211 196))]

/-- The completion of a command, its owner the focused thread (R126, R127, R346). -/
def completed (s : State) (core slot : Nat) (mtx : Bool) (c : Cmd) (rest : List Cmd) : State :=
  let q := s.queueAt core slot mtx
  let first := if c.code ∈ [0, 2, 3, 4, 7] then 0 else Nat.min (c.first.getD 0) 0xFFFFF
  let status : Word := BitVec.ofNat 32 (2 ^ 31 + c.flags.toNat * 2 ^ 24 + c.code * 2 ^ 20 + first)
  let d : Done := { id := c.id, status := status, sig := c.sig, release := c.word.getLsbD 10
                    sc := c.word.toNat / 2 ^ 12 % 8 }
  withThr (s.setQueueAt core slot mtx
    { q with cmds := rest, hist := (d :: q.hist).take 8, posting := false, sigs := q.sigs ||| c.sig
             past := (q.hist.drop 7).foldl (fun g x => g ||| x.sig) q.past
             pastSc := (q.hist.drop 7).foldl (fun n x => Nat.max n x.sc) q.pastSc
             err := if 2 ≤ c.code then q.err.or (some (c.word0 slot, status)) else q.err })
    (s.thr.wakeAt core slot)

end Sys2Proof.Claims

namespace Sys2Proof.Claims

open Sys2Proof.Machine

/-! ## The slices' events (R78–R83, R98–R107, R150, R153) -/

/-- The arrival of request r at its slice: a store or an ATOM comes by die, y, x and slot among those of one fabric cycle to a sector,
and a read after them (R103). -/
def arrivalAt (r : Req) : Met :=
  { home := r.dst, place := sectorNo r.va, rank := if r.op.writes then slotRank r.core r.slot else readRank }

/-- Request r is packet n, and nothing before it holds it back, nor a later-ranked one of its fabric cycle (R103, R153). -/
def served (s : State) (n : Nat) (r : Req) : Prop :=
  (∃ p src, s.packet? n = some { seq := n, part := p, src := src, body := .slice r }) ∧ s.heldBack n r = false ∧
  s.overtaken (arrivalAt r) = false ∧ ∀ h ∈ s.held, h.seq ≠ n

/-- The request of n bytes from an address lies in one row of a resident sector that the access hits, by rows, all valid. -/
def hitRow (s : State) (r : Req) (n : Nat) (c : Sector) : Prop :=
  r.va % 32 + n ≤ 32 ∧ 0 < n ∧ s.sector? r.dst r.part r.va = some c ∧ c.whole = false ∧ c.valid = BitVec.allOnes 32

/-- The row of an address in its sector, and n bytes of a row from an address as a value. -/
def rowNo (va : Nat) : Nat := va % 1024 / 32
def rowValue (l : Line) (va n : Nat) : Nat := l.toNat / 2 ^ (8 * (va % 32)) % 2 ^ (8 * n)

/-- The line that a load asks for: by rows or by columns of a width, and its first byte (R97). -/
def lineAsked (r : Req) : Option (LineKind × Nat) :=
  match r.op with
  | .read .row _ => some (.row, r.va / 32 * 32)
  | .read (.col w) _ => some (.col w, r.va)
  | _ => none

/-- A packet once a later answer for a line has left its slice: an earlier answer for the line installs nothing (R292). -/
def overtaken (r : Req) (k : Packet) : Packet :=
  match k.body with
  | .answer q a g =>
    if q.core = r.core ∧ q.part = r.part ∧ lineAsked r ≠ none ∧ lineAsked q = lineAsked r then
      { k with body := .answer { q with install := false } a g } else k
  | _ => k

/-- Packet n has become the answer of request r, under a GEN. -/
def answeredWith (s u : State) (n : Nat) (r : Req) (gen : Half) (a : Answer) : Prop :=
  u.net = (s.net.map (overtaken r)).filter (fun k => k.seq != n) ++
    [{ seq := n, part := r.part, src := sliceCore r.dst, body := .answer r a gen }] ∧
  u.held = s.held.filter (fun h => h.seq != n)

/-- The signature that a response about a sector carries: all ones when its slice has lost one (R296). -/
def sectorSig (s : State) (c : Sector) : Sig := if 64 * c.slice + c.asn ∈ s.lost then BitVec.allOnes 512 else c.sig

/-- The sectors but those of a sector's page in its slice. -/
def otherSectors (s : State) (c : Sector) : List Sector :=
  s.sectors.filter (fun d => !(d.slice == c.slice && d.asn == c.asn && d.vpn == c.vpn && d.gen == c.gen))

/-- Sector d is c with the n bytes of a row from an address changed to those of v, the row dirty, and a signature added; a store
of the whole row ends its poison. -/
def storedIn (c d : Sector) (va n v : Nat) (g : Sig) : Prop :=
  d = { c with rows := d.rows, used := d.used, sig := c.sig ||| g, dirty := c.dirty ||| 1#32 <<< rowNo va
               pois := if n = 32 then c.pois &&& ~~~(1#32 <<< rowNo va) else c.pois } ∧
  (∀ k, k < n → (d.byte (va % 1024 + k)).toNat = v / 2 ^ (8 * k) % 256) ∧
  (∀ o, o < 1024 → (o < va % 1024 ∨ va % 1024 + n ≤ o) → d.byte o = c.byte o)

/-- Request n, which reached its slice, is held there at a stage, the last to come. -/
def newlyHeld (s u : State) (n : Nat) (r : Req) (st : HeldStage) : Prop :=
  u.held = s.held ++ [{ seq := n, req := r, stage := st, gen := s.genAt r.part r.dst }] ∧
  u.net = s.net.filter (fun k => k.seq != n)

/-- A request at a stage waits for a page answer, or for an entry that asks for one (R90). -/
def waitsForPage (st : HeldStage) : Bool :=
  match st with
  | .faulted | .noEntry .. => true
  | _ => false

/-- Held request h has gone on to a stage, in its place. -/
def movedOn (s u : State) (h : Held) (st : HeldStage) (pf : Pf) : Prop :=
  u.held = s.held.map (fun x => if x.seq = h.seq then
    { seq := h.seq, req := h.req, stage := st, pf := pf, gen := h.gen
      again := waitsForPage st || s.held.any (fun y => y.seq == h.seq && y.again) } else x) ∧
  u.net = s.net.filter (fun k => k.seq != h.seq)

end Sys2Proof.Claims

namespace Sys2Proof.Claims

open Sys2Proof.Machine

/-! ## The comb units and the sluice engines (R71–R76, R276–R288) -/

/-- Operation o is the only one of the comb units, has arrived and not linearised, and its partition runs. -/
def aloneAt (s : State) (o : TjOp) : Prop :=
  s.comb = [o] ∧ o.linearised = false ∧ o.finished = false ∧ o.arrived = true ∧ o.pf = .clear ∧ o.tasks = [] ∧ s.partRuns o.part = true

/-- Operation o is the only one of the comb units, and has linearised, of a partition that runs. -/
def goesOn (s : State) (o : TjOp) : Prop :=
  s.comb = [o] ∧ o.linearised = true ∧ o.arrived = true ∧ o.finished = false ∧ o.pf = .clear ∧ s.partRuns o.part = true

/-- Its store is granted to its partition and loaded (R282). -/
def storeReady (s : State) (o : TjOp) (k : Store) : Prop :=
  (s.part o.part).grant.getLsbD o.sid = true ∧ Table.get? s.stores o.sid = some k ∧ k.part = o.part

/-- Its checks have passed: the store is not broken and its block is legal; the record of a TJINS has been read (R281, R282). -/
def checksPass (s : State) (o : TjOp) (k : Store) : Prop :=
  storeReady s o k ∧ k.broken = false ∧ s.blockOk o k = true ∧ (o.form = 0 → ∃ ls, o.src = some ls ∧ ls.length * 32 = k.recLen)

/-- A field of an operation's block, and the handle that a TJPRI, TJEVT or TJGET names: its slot and generation (R274, R281). -/
def blockField (o : TjOp) (lo n : Nat) : Nat := o.block.toNat / 2 ^ lo % 2 ^ n
def namedSlot (o : TjOp) : Nat := blockField o 32 24
def namedGen (o : TjOp) : Nat := blockField o 64 32

/-- The operation once it has linearised: it keeps the descriptor and the policy version, and its message's handle (R281). -/
def tookPlace (o : TjOp) (k : Store) (handle : Nat) : TjOp :=
  { o with checked := true, arrived := true, linearised := true, desc := k.desc, ver := k.ver, handle := BitVec.ofNat 64 handle }

/-- Leaf i of a store reads as a generation and a priority; the comb units and the stores stay as they are (R273). -/
def leafReads (s : State) (o : TjOp) (k : Store) (i : Nat) (s1 : State) (gen prio : Nat) : Prop :=
  ∃ v, s.codedRead o.engine (k.tbase + 8 * i) 8 = .ok s1 (.ok v) ∧ gen = v / 2 ^ 32 ∧ prio = v % 2 ^ 32 ∧
    s1.comb = s.comb ∧ s1.stores = s.stores

/-- Leaf i takes a generation and a priority, and its level-5 node the difference d from the old one (R273); g is the signature. -/
def leafWritten (s1 : State) (o : TjOp) (k : Store) (i gen prio d : Nat) (s3 : State) (g : Sig) : Prop :=
  ∃ s2 a b, s1.treeOp o.engine .swp (k.tbase + 8 * i) (gen % 2 ^ 32 * 2 ^ 32 + prio) = .ok s2 (.ok a) ∧
    s2.treeOp o.engine .add (k.tbase + 8 * k.cap + 8 * (i / 16)) d = .ok s3 (.ok b) ∧ g = a ||| b ∧
    s3.comb = s1.comb ∧ k.badAbove (i / 16) = false

/-- A descriptor's RBASE and the length of its records; the address of a slot's record (R270, R272). -/
def recordLen (d : BitVec 1024) : Nat := (d.toNat / 2 ^ 293 % 2 ^ 7 + 1) * 64
def recordAt (d : BitVec 1024) (slot : Nat) : Nat := d.toNat % 2 ^ 64 + slot * recordLen d

/-- The operation after its first task (R278). -/
def taskDone (o : TjOp) (g : Sig) : TjOp :=
  { o with tasks := o.tasks.drop 1, buf := none, copied := 0, sig := o.sig ||| g, arrived := true
           finished := (o.tasks.drop 1).isEmpty }

/-- The status word of an operation (R278). -/
def tjStatus (o : TjOp) : Word := BitVec.ofNat 32 (o.flags.toNat * 2 ^ 24 + (if o.perr then 2 ^ 8 else 0) + o.code)

/-- An AX operation has been answered. -/
def axAnswered (s u : State) (die : Nat) (o : StackOp) (a : Answer) : Prop :=
  u.stackOps = s.stackOps.filter (fun q => q.n != o.n) ∧
  ∃ n, u.net = s.net ++ [{ seq := n, part := o.part, src := dieCore die, body := .wake o.tid o.seq a }]

end Sys2Proof.Claims

namespace Sys2Proof.Claims

open Sys2Proof.Machine

/-! ## Launches, clocks, translation (R85–R93, R101, R307–R316, R327–R329) -/

/-- A launch of a partition by its id. -/
def launchOf (s : State) (p lid : Nat) (l : Launch) : Prop := s.launches.find? (fun l => l.part == p && l.lid == lid) = some l

/-- A field of a launch's descriptor (R307). -/
def descField (l : Launch) (hi lo : Nat) : Nat := l.desc.toNat / 2 ^ lo % 2 ^ (hi + 1 - lo)

/-- Thread i of a launch as it begins on a core's slot (R165, R168, R314). -/
def begun (s : State) (l : Launch) (i : Nat) (t : Thread) : Prop :=
  t.tid = { part := l.part, lid := l.lid, idx := i } ∧ t.phase = .run ∧ t.pc.toNat = descField l 1023 960 ∧
  (t.rs 0).toNat = i % 2 ^ 32 ∧ (t.rs 1).toNat = l.count % 2 ^ 32 ∧
  (t.rs 3).toNat * 2 ^ 32 + (t.rs 2).toNat = descField l 959 896 ∧
  (t.rs 4).toNat = relX (s.shape l.part) t.core % 2 ^ 32 ∧ (t.rs 5).toNat = relY (s.shape l.part) t.core % 2 ^ 32 ∧
  (∀ r : BitVec 4, 6 ≤ r.toNat → t.rs r = 0) ∧ (∀ r : BitVec 7, t.rv r = 0) ∧ (∀ r : BitVec 3, t.rk r = 0) ∧ t.p = 1 ∧
  t.acc = BitVec.allOnes 512 ∧ t.seen = 0 ∧ t.told = 0 ∧ t.csr.tvecl = 0 ∧ t.csr.tvech = 0 ∧ t.csr.fmode = 0 ∧ t.csr.fstat = 0 ∧
  t.csr.fmtd.toNat = descField l 236 225 ∧ t.prv = l.desc.getLsbD 222 ∧ t.home = none

/-- A partition with some of its record changed. -/
def withPart (s : State) (p : Nat) (x : Part) : State := s.setPart p x

/-- The length of a quad's cycle in units of 1/224 tick: 35 at 640 MHz, and 32 at the nominal rate, which a stretch of one
eighth lengthens by 4 (R327, R328). -/
def cycleLength (c : Clock) : Nat := if c.pinned then 35 else 32 + 4 * Nat.min 4 (Nat.max c.stretch c.limit)

/-- The clock of a quad that keeps the cycle under way and has other stretches from the next one on (R327). -/
def reclocked (s : State) (q : Nat) (pinned : Bool) (stretch limit : Nat) : State :=
  let c := s.clock q
  let past := 224 * s.gtime + s.frac - c.since
  let k := if 224 * s.gtime + s.frac < c.since then 0 else (past + cycleLength c - 1) / cycleLength c
  { s with clocks := Table.set s.clocks q { cycles := c.cycles + k, since := c.since + k * cycleLength c
                                            pinned := pinned, stretch := stretch, limit := limit } }

end Sys2Proof.Claims

namespace Sys2Proof.Claims

open Sys2Proof.Machine

/-! ## Partitions, management, the host (R350–R382) -/

/-- A partition command as it begins: logged, and BUSY set (R353, R354). -/
def begunCommand (s : State) (p op : Nat) : State :=
  (s.logEntry 1 p op).setPart p { (s.logEntry 1 p op).part p with busy := true }

/-- A partition command that ends at once: logged, its code written, BUSY as it was, and a management event posted. -/
def codeOf (s u : State) (p op code : Nat) : Prop :=
  (u.part p).code = code ∧ (u.part p).busy = false ∧ (u.part p).claim = none ∧ (u.part p).working = none ∧
  u.log = (s.logEntry 1 p op).log ∧ u.mgmt.logcnt = s.mgmt.logcnt + 1

/-- The seven partition commands, each with its OP and the states that allow it (R353). -/
def partCommand (op : Nat) (i : Nat → Instr) (allowed : List PState) : Prop :=
  (op = 1 ∧ i = .create ∧ allowed = [.free]) ∨ (op = 2 ∧ i = .reshape ∧ allowed = [.running, .stopped]) ∨
  (op = 3 ∧ i = .destroy ∧ allowed = [.running, .stopped, .saved]) ∨ (op = 4 ∧ i = .stop ∧ allowed = [.running]) ∨
  (op = 5 ∧ i = .resume ∧ allowed = [.stopped]) ∨ (op = 6 ∧ i = .save ∧ allowed = [.running, .stopped]) ∨
  (op = 7 ∧ i = .restore ∧ allowed = [.saved])

/-- A firmware command, logged (R380). -/
def fwLogged (s : State) (op : Nat) : State := s.logEntry 2 op 0
def withMgmt (s : State) (m : Mgmt) : State := { s with mgmt := m }

/-- What the module sends, and nothing else, is added. -/
def sent (s : State) (o : Out) : State := { s with out := s.out ++ [o] }

end Sys2Proof.Claims
end

