-- ==== Sys2Proof/Certificates/Slice0/Obligations.lean ====
section
/-! DEFINITION. The statements for the provers. Each docstring names the rules that its statement formalises; the states that
they speak of are defined in Sys2Proof/Safety.lean. -/

open Sys2Proof Sys2Proof.Machine Sys2Proof.Claims

/-! ## Encoding -/

/-- Decode of encode: for every instruction whose word passes the decode checks that the word alone decides (R60), the
bytes of its encoding decode to it, every operand at every value that its field admits. -/
def Obligations.RoundTrip : Prop :=
  ∀ i : Instr, formCheck i = none → encode i ≠ [] →
    decodeBytes ((encode i).flatMap bytesOfWord) = .ok (i, 4 * (encode i).length)

/-- Words of the manual's own examples (R171, R173, R175, R177, R180, R182, R184), written in binary, decode to the
instructions that the manual names beside them; CLZ with a nonzero B is refused; and a word 0 of a reserved major opcode,
0x1F or 0x37–0x3F, does not decode, whatever its other bits and whatever follows it (R55, R56, R60). -/
def Obligations.DecodedWords : Prop :=
  decodeTableWord 32 0b00000100000110010001010000000000 = some (.add 0 6 4 5) ∧
  decodeTableWord 32 0b00000100000010001101000000001100 = some (.mulhu 0 2 3 4) ∧
  decodeTableWord 32 0b00000100000011000100100000001101 = some (.div 0 3 1 2) ∧
  decodeTableWord 32 0b00001000000001000111111111111100 = some (.addi 0 1 1 0x3FFC) ∧
  decodeTableWord 32 0b00011000000101011000000001011111 = some (.sari 0 5 6 31) ∧
  decodeTableWord 32 0b00011100000111011010100000100111 = some (.lih 0 7 0x1A827) ∧
  decodeTableWord 32 0b00100000000100000100110010000000 = some (.cmp 0 2 0 1 3 2) ∧
  decodeTableWord 32 0b00101000000010010000000000000010 = some (.pxor 0 1 1 0) ∧
  decodeTableWord 32 0b00111000000010001000110000110001 = some (.padds 0 2 2 3 3) ∧
  decodeTableWord 32 0b01110100000110011011111111100000 = some (.paddi 0 6 6 0x3FE0) ∧
  decodeTableWord 32 0b01100100000011001010000000010000 = some (.csrs 0 3 2 0x010) ∧
  decodeTableWord 32 0b00000000000000000000000000000000 = some (.nop 0) ∧
  decodeTableWord 32 0b00000100000010011100010000010101 = none ∧
  ∀ w0 w1 : Word, w0.toNat / 2 ^ 26 ∈ [0x1F, 0x37, 0x38, 0x39, 0x3A, 0x3B, 0x3C, 0x3D, 0x3E, 0x3F] →
    decodeWords w0.toNat w1.toNat = .error .illegal

/-! ## The step and reset -/

/-- A step runs the decoded instruction. The agenda is empty, the turn of the focused thread is not over (both are the model's
own, log entry 1), and the thread issues and has no pending engine error. Outside a repeat: the words that its core holds
for the pc, one or two as the first word says, decode to i; i passes the checks of R60 and reads no poisoned register
(R341); then the step is `exec` of i, with one more issue counted. Within a repeat the same holds of the words of the next
issue (R58). -/
def Obligations.StepRunsDecoded : Prop :=
  ∀ (s : State) (i : Instr), s.agenda = [] → s.canIssue = true → s.thr.phase = .run → s.turnOver = false →
    s.pendingErrs = [] →
    (∀ w0 w1 : Word, s.thr.rep = none → s.word? s.thr.pc.toNat = some w0 →
      (if twoWord w0.toNat then s.word? (s.thr.pc + 4).toNat = some w1 else w1 = 0) →
      decodeWords w0.toNat w1.toNat = .ok i → shapeCheck s.thr.vregs s.thr.prv s.thr.lperm i = none →
      s.thr.poisonRead w0.toNat i = none → step s = exec i { s with turn := s.turn + 1 }) ∧
    (∀ (r : Rep) (w : Word), s.thr.rep = some r →
      w = BitVec.ofNat 32 (stepWord r.w0.toNat r.i r.id r.ia r.ib) →
      decodeWords w.toNat r.w1.toNat = .ok i → shapeCheck s.thr.vregs s.thr.prv s.thr.lperm i = none →
      s.thr.poisonRead w.toNat i = none → step s = exec i { s with turn := s.turn + 1 })

/-- What R60 refuses at the pc: words that decode to nothing trap ILLEGAL, SCOPE or FORMAT with the word as the detail, a
decoded instruction that the thread's shape refuses traps PRIV, or REGRANGE with the register number, and one that reads a
poisoned register traps POISON, before anything else of it happens, after the last of its issue cycles (R60, R161, R339,
R341). -/
def Obligations.DecodeTraps : Prop :=
  ∀ (s : State) (w0 w1 : Word), s.agenda = [] → s.canIssue = true → s.thr.phase = .run → s.turnOver = false →
    s.pendingErrs = [] → s.thr.rep = none → s.word? s.thr.pc.toNat = some w0 → s.thr.tvec ≠ 0 →
    (if twoWord w0.toNat then s.word? (s.thr.pc + 4).toNat = some w1 else w1 = 0) →
    (decodeWords w0.toNat w1.toNat = .error .illegal →
      step s = .next (entered { s with turn := s.turn + 1 } (issueCycles s.thr w0) 0x01 (w0.setWidth 64) s.thr.pc 0)) ∧
    (decodeWords w0.toNat w1.toNat = .error .scope →
      step s = .next (entered { s with turn := s.turn + 1 } (issueCycles s.thr w0) 0x0B (w0.setWidth 64) s.thr.pc 0)) ∧
    (decodeWords w0.toNat w1.toNat = .error .format →
      step s = .next (entered { s with turn := s.turn + 1 } (issueCycles s.thr w0) 0x17 (w0.setWidth 64) s.thr.pc 0)) ∧
    (∀ i, decodeWords w0.toNat w1.toNat = .ok i → shapeCheck s.thr.vregs s.thr.prv s.thr.lperm i = some .priv →
      step s = .next (entered { s with turn := s.turn + 1 } (issueCycles s.thr w0) 0x02 (w0.setWidth 64) s.thr.pc 0)) ∧
    (∀ i r, decodeWords w0.toNat w1.toNat = .ok i →
      shapeCheck s.thr.vregs s.thr.prv s.thr.lperm i = some (.regRange r) →
      step s = .next (entered { s with turn := s.turn + 1 } (issueCycles s.thr w0) 0x0E (BitVec.ofNat 64 r) s.thr.pc 0)) ∧
    (∀ i r, decodeWords w0.toNat w1.toNat = .ok i → shapeCheck s.thr.vregs s.thr.prv s.thr.lperm i = none →
      s.thr.poisonRead w0.toNat i = some r → step s = .next (entered { s with turn := s.turn + 1 } (issueCycles s.thr w0) 0x06
        (0xFFFFFFFF#32 ++ BitVec.ofNat 32 (r % 2 ^ 16)) s.thr.pc 0))

/-- No instruction and no event stops the machine: each has a next state in every state, whether by its effect, by a trap or
by waiting. An event at the head of the agenda is the next step, an encoded instruction there is not run, and an error that
strikes or a read by the host may stand there too; first its time passes, in units of which a tick of GTIME has 224. An event of
a packet that is not in the mesh changes nothing. The agenda is the model's own, and so are what an encoded instruction there and
an event that cannot happen do (log entries 1, 16, 17, 88, 116). -/
def Obligations.StepRunsEvent : Prop :=
  (∀ (i : Instr) (s : State), ∃ t, exec i s = .next t) ∧
  (∀ (s : State) (n : Nat) (rest : List Turn),
    let past : State := { s with agenda := rest, gtime := s.gtime + (s.frac + n) / 224, frac := (s.frac + n) % 224 }
    (∀ i, s.agenda = .event i n :: rest → encode i = [] → step s = exec i past) ∧
    (∀ i, s.agenda = .event i n :: rest → encode i ≠ [] → step s = .fault .notAnEvent) ∧
    (∀ u, s.agenda = .upset u n :: rest → step s = .next (past.upset u)) ∧
    (∀ fn config a, s.agenda = .hostRead fn config a n :: rest → step s = .next (past.hostReads fn config a))) ∧
  (∀ (s : State) (n : Nat), s.packet? n = none → ∀ i ∈ [Instr.sliceRequest n, .lineArrival n, .remoteScratchpadRequest n,
    .messageArrival n, .barrierArrival n, .migrationArrival n, .ticketFetch n, .redemption n, .rdmsDelivery n,
    .wakeReachesCore n, .retireNotice n], exec i s = .next s)

/-- What module reset leaves (R378, R379, R380, R381): no thread runs; no bank of SRAM has an owner and no sector is held; no
partition, launch, saved image or key but the management key exists; the management block stands at its reset values, its images
as the module left its factory (log entry 6: both are the model's free values); GTIME is 0; every memory is in canonical form
and every pc is aligned. -/
def Obligations.ResetState : Prop :=
  let s := State.reset
  s.thr.phase = .none ∧ s.threads = [] ∧ s.tags = [] ∧ s.sectors = [] ∧ s.l1 = [] ∧ s.live = [] ∧ s.tickets = [] ∧
  s.net = [] ∧ s.parts = [] ∧ s.fns = [] ∧ s.launches = [] ∧ s.images = [] ∧ s.stores = [] ∧ s.stackTab = [] ∧
  s.devKey = [] ∧ s.hostKey = [] ∧ s.gtime = 0 ∧ s.errs = [] ∧ s.links = [] ∧ s.log = [] ∧ s.capgen = 0 ∧
  (∀ p, (s.part p).state = .free ∧ (s.part p).key = none ∧ (s.part p).gen = 0 ∧ (s.part p).busy = false) ∧
  s.mgmt.stage = 0 ∧ s.mgmt.dready = 0 ∧ s.mgmt.dfail = 0 ∧ s.mgmt.fwaddr = 0 ∧ s.mgmt.fwlen = 0 ∧
  s.mgmt.fwbusy = false ∧ s.mgmt.fwcode = 0 ∧ s.mgmt.ataddr = 0 ∧ s.mgmt.atpart = 0 ∧ s.mgmt.atend = 0 ∧
  s.mgmt.atcode = 0 ∧ s.mgmt.pwr = 0 ∧ s.mgmt.tmax = 0 ∧ s.mgmt.logcnt = 0 ∧
  s.mgmt.svnmin = Config.factorySvnMin ∧ s.mgmt.imga = Config.factoryImage false ∧ s.mgmt.imgb = Config.factoryImage true ∧
  s.mgmt.svna = Config.imageSvn s.mgmt.imga ∧ s.mgmt.svnb = Config.imageSvn s.mgmt.imgb ∧
  s.mgmt.aval = (imageSigned s.mgmt.imga && decide (s.mgmt.svnmin.toNat ≤ s.mgmt.svna.toNat)) ∧
  s.mgmt.bval = (imageSigned s.mgmt.imgb && decide (s.mgmt.svnmin.toNat ≤ s.mgmt.svnb.toNat)) ∧
  s.hdm = [] ∧ s.devErr = [] ∧ s.hostErr = [] ∧ s.modnum = 0 ∧
  s.memWf = true ∧ s.pcAligned = true

/-! ## Guards, scalar forms -/

/-- A guard enables when its predicate's value, exclusive-or G[25], is 1, and p0 reads true (R49). A disabled form of any
guarded format consumes one issue cycle, whatever its own cost, and does nothing else: the pc moves past it, or the next
issue of a repeat follows, and every other part of the machine is as before. -/
def Obligations.DisabledPasses : Prop :=
  (∀ (t : Thread) (g : BitVec 4), t.enabled g =
    ((if g.toNat % 8 = 0 then true else t.p.getLsbD (g.toNat % 8)) != g.getLsbD 3)) ∧
  (∀ (i : Instr) (s : State) (g : BitVec 4) (len : Nat), guardLen i = some (g, len) → s.thr.enabled g = false →
    exec i s = .next (done s len 1))

/-- ADD to MAXU, SLT and SLTU: sD receives the value of R170, in one issue cycle, and nothing else changes. DIV, DIVU, REM
and REMU: the quotient and the remainder of R171, zero divisors and the overflowing signed case included, in 8 issue cycles,
and nothing else changes. -/
def Obligations.AluThree : Prop :=
  (∀ p ∈ aluThree, ∀ (s : State) (g d a b : BitVec 4), on s g →
    exec (p.1 g d a b) s = .next (done (withThr s (s.thr.ws d (p.2 (s.thr.rs a) (s.thr.rs b)))) 4 1)) ∧
  (∀ (s : State) (g d a b : BitVec 4), on s g →
    exec (.div g d a b) s = .next (done (withThr s (s.thr.ws d (quotient true (s.thr.rs a) (s.thr.rs b)))) 4 8) ∧
    exec (.divu g d a b) s = .next (done (withThr s (s.thr.ws d (quotient false (s.thr.rs a) (s.thr.rs b)))) 4 8) ∧
    exec (.rem g d a b) s = .next (done (withThr s (s.thr.ws d (remainder true (s.thr.rs a) (s.thr.rs b)))) 4 8) ∧
    exec (.remu g d a b) s = .next (done (withThr s (s.thr.ws d (remainder false (s.thr.rs a) (s.thr.rs b)))) 4 8))

/-- The one-source forms of R170: CLZ and CTZ count the zero bits before the first set bit from the top and from the bottom,
POPC counts the set bits, BREV moves bit i to bit 31 − i; SEXTB, SEXTH, ZEXTB, ZEXTH and MOV. Nothing but sD changes.
The immediate forms and LIH (R172, R173): sD receives the value of the rule, and nothing else changes. -/
def Obligations.AluTwo : Prop :=
  (∀ p ∈ aluTwo, ∀ (s : State) (g d a : BitVec 4), on s g →
    exec (p.1 g d a) s = .next (done (withThr s (s.thr.ws d (p.2 (s.thr.rs a)))) 4 1)) ∧
  (∀ (s : State) (g d a : BitVec 4), on s g →
    (∃ n, n ≤ 32 ∧ (∀ i, i < n → (s.thr.rs a).getLsbD (31 - i) = false) ∧
      (n < 32 → (s.thr.rs a).getLsbD (31 - n) = true) ∧
      exec (.clz g d a) s = .next (done (withThr s (s.thr.ws d (BitVec.ofNat 32 n))) 4 1)) ∧
    (∃ n, n ≤ 32 ∧ (∀ i, i < n → (s.thr.rs a).getLsbD i = false) ∧ (n < 32 → (s.thr.rs a).getLsbD n = true) ∧
      exec (.ctz g d a) s = .next (done (withThr s (s.thr.ws d (BitVec.ofNat 32 n))) 4 1)) ∧
    exec (.popc g d a) s = .next (done (withThr s (s.thr.ws d
      (BitVec.ofNat 32 ((List.range 32).countP (fun i => (s.thr.rs a).getLsbD i))))) 4 1) ∧
    (∃ x : Word, (∀ i, i < 32 → x.getLsbD (31 - i) = (s.thr.rs a).getLsbD i) ∧
      exec (.brev g d a) s = .next (done (withThr s (s.thr.ws d x)) 4 1))) ∧
  (∀ p ∈ immFour, ∀ (s : State) (g d a : BitVec 4) (i : BitVec 14), on s g →
    exec (p.1 g d a i) s = .next (done (withThr s (s.thr.ws d (p.2 (s.thr.rs a) i))) 4 1)) ∧
  (∀ p ∈ immShift, ∀ (s : State) (g d a : BitVec 4) (i : BitVec 5), on s g →
    exec (p.1 g d a i) s = .next (done (withThr s (s.thr.ws d (p.2 (s.thr.rs a) i.toNat))) 4 1)) ∧
  (∀ (s : State) (g d : BitVec 4) (i : BitVec 18), on s g →
    exec (.lih g d i) s = .next (done (withThr s (s.thr.ws d (BitVec.ofNat 32 (i.toNat * 2 ^ 14)))) 4 1))

/-- CMP and CMPI under the assigned conditions of R53 (R174), and the predicate forms (R175): the predicate receives the
condition, or with Z its conjunction with the old value; a PD of 0 writes nothing; PRDW reads the predicate word with
bit 0 as 1; PWRW writes p1–p7. Nothing else changes. -/
def Obligations.ComparesPredicates : Prop :=
  (∀ (s : State) (g : BitVec 4) (p : BitVec 3) (z : BitVec 1) (a b c : BitVec 4) (r : Bool), on s g → c.toNat < 12 →
    (r = true ↔ holds c.toNat (s.thr.rs a) (s.thr.rs b)) →
    exec (.cmp g p z a b c) s = .next (done (withThr s (setPred s.thr p (if z = 0 then r else s.thr.rp p && r))) 4 1)) ∧
  (∀ (s : State) (g : BitVec 4) (p : BitVec 3) (z : BitVec 1) (a : BitVec 4) (i : BitVec 10) (c : BitVec 4) (r : Bool),
    on s g → c.toNat < 12 → (r = true ↔ holds c.toNat (s.thr.rs a) (BitVec.ofInt 32 i.toInt)) →
    exec (.cmpi g p z a i c) s = .next (done (withThr s (setPred s.thr p (if z = 0 then r else s.thr.rp p && r))) 4 1)) ∧
  (∀ (s : State) (g : BitVec 4) (p a b : BitVec 3), on s g →
    exec (.pand g p a b) s = .next (done (withThr s (setPred s.thr p (s.thr.rp a && s.thr.rp b))) 4 1) ∧
    exec (.por g p a b) s = .next (done (withThr s (setPred s.thr p (s.thr.rp a || s.thr.rp b))) 4 1) ∧
    exec (.pxor g p a b) s = .next (done (withThr s (setPred s.thr p (s.thr.rp a ^^ s.thr.rp b))) 4 1) ∧
    exec (.pandn g p a b) s = .next (done (withThr s (setPred s.thr p (s.thr.rp a && !s.thr.rp b))) 4 1)) ∧
  (∀ (s : State) (g d : BitVec 4), on s g →
    exec (.prdw g d) s = .next (done (withThr s (s.thr.ws d (BitVec.ofNat 32 (s.thr.p.toNat / 2 * 2 + 1)))) 4 1) ∧
    ∃ q : BitVec 8, q.getLsbD 0 = true ∧ (∀ n, 1 ≤ n → n < 8 → q.getLsbD n = (s.thr.rs d).getLsbD n) ∧
      exec (.pwrw g d) s =
        .next (done (withThr s { s.thr with p := q, poison := s.thr.poison.filter (· != 4096 * 3) }) 4 1))

/-- The address-pair forms (R179, R180): aD receives the 64-bit value of the rule, modulo 2^64, all operands read first, and
nothing else changes. A pair's value has its high word in the odd register (R164). -/
def Obligations.Pairs : Prop :=
  ∀ (s : State) (g : BitVec 4) (d a b sh : BitVec 3) (i : BitVec 14), on s g →
    let v (n : BitVec 3) : Nat := (s.thr.rs (n ++ 1#1)).toNat * 2 ^ 32 + (s.thr.rs (n ++ 0#1)).toNat
    exec (.padd g d a b) s = .next (done (withThr s (setPair s.thr d (BitVec.ofNat 64 (v a + v b)))) 4 1) ∧
    exec (.psub g d a b) s = .next (done (withThr s (setPair s.thr d (BitVec.ofInt 64 (v a - v b)))) 4 1) ∧
    exec (.pmov g d a) s = .next (done (withThr s (setPair s.thr d (BitVec.ofNat 64 (v a)))) 4 1) ∧
    exec (.padds g d a b sh) s = .next (done (withThr s (setPair s.thr d
      (BitVec.ofInt 64 (v a + (s.thr.rs (b ++ 0#1)).toInt * 2 ^ sh.toNat)))) 4 1) ∧
    exec (.paddu g d a b sh) s = .next (done (withThr s (setPair s.thr d
      (BitVec.ofNat 64 (v a + (s.thr.rs (b ++ 0#1)).toNat * 2 ^ sh.toNat)))) 4 1) ∧
    exec (.paddi g d a i) s = .next (done (withThr s (setPair s.thr d (BitVec.ofInt 64 (v a + i.toInt)))) 4 1)

/-! ## Branches, CSRs, system forms, traps -/

/-- BR and BRL go to P + 4·sext(OFF22), modulo 2^64; BRL writes the low word of P + 4 to s15. JR and JRL go to the register
below the high word of their own address, which JRL reads before it writes s15. Nothing else changes (R176, R177). A JR or
JRL to a target with a nonzero bit in [1:0] traps MISALIGN with the target as its detail: s15 is as before, and
single-stepping does not add a trap of its own (R46, R345). -/
def Obligations.BranchesJumps : Prop :=
  (∀ (s : State) (g : BitVec 4) (o : BitVec 22), on s g →
    exec (.br g o) s = .next (jumped s (BitVec.ofInt 64 (s.thr.pc.toNat + o.toInt * 4))) ∧
    exec (.brl g o) s = .next (jumped (withThr s (s.thr.ws 15 ((s.thr.pc + 4).setWidth 32)))
      (BitVec.ofInt 64 (s.thr.pc.toNat + o.toInt * 4)))) ∧
  (∀ (s : State) (g a : BitVec 4) (t : DWord), on s g →
    t = BitVec.ofNat 64 (s.thr.pc.toNat / 2 ^ 32 * 2 ^ 32 + (s.thr.rs a).toNat) → t.toNat % 4 = 0 →
    exec (.jr g a) s = .next (jumped s t) ∧
    exec (.jrl g a) s = .next (jumped (withThr s (s.thr.ws 15 ((s.thr.pc + 4).setWidth 32))) t)) ∧
  (∀ (s : State) (g a : BitVec 4) (t : DWord), s.thr.enabled g = true → s.thr.tvec ≠ 0 →
    t = BitVec.ofNat 64 (s.thr.pc.toNat / 2 ^ 32 * 2 ^ 32 + (s.thr.rs a).toNat) → t.toNat % 4 ≠ 0 →
    exec (.jr g a) s = .next (entered s 1 0x03 t s.thr.pc (repstAt s.thr.rep)) ∧
    exec (.jrl g a) s = .next (entered s 1 0x03 t s.thr.pc (repstAt s.thr.rep)))

/-- The CSR forms on the RW CSRs that a thread holds: CSRR reads one; CSRW stores the bits that R59 and R168 mark RW, an RM
of 6 or 7 as 0; CSRS and CSRC deliver the old value and store it with bits set or cleared. On RO CSRs, CSRR reads the
value of R168, and a write is ignored while CSRS and CSRC still deliver the old value (R64, R182).
The channel registers of a slot (R130, R168): a write of CHBASE stores bits [15:5], a write of CHLEN bits [16:5], in the
slot of the thread's queue; a LEN above 2,048 units, or a channel past the partition's scratchpad on the core, stores LEN 0;
the channel starts empty. CSRR reads them back, and CSRS and CSRC write them with bits set or cleared.
L1CFG (R145, R146): CSRR reads the partition's copy on the core; a write parks while an engine command of the partition uses the
core's SRAM, and otherwise sets the bits of the partition's own banks, invalidates its lines on the core, clears the banks that
change their use, and disables the channels that run past the scratchpad. -/
def Obligations.CsrForms : Prop :=
  (∀ r ∈ ownCsrs, ∀ (s : State) (g d a : BitVec 4), on s g →
    exec (.csrr g d r.n) s = .next (done (withThr s (s.thr.ws d (r.get s.thr.csr))) 4 1) ∧
    exec (.csrw g a r.n) s = .next (done (withThr s (setCsr s.thr r (s.thr.rs a))) 4 1) ∧
    exec (.csrs g d a r.n) s = .next (done (withThr s (setCsr (s.thr.ws d (r.get s.thr.csr)) r
      (r.get s.thr.csr ||| s.thr.rs a))) 4 1) ∧
    exec (.csrc g d a r.n) s = .next (done (withThr s (setCsr (s.thr.ws d (r.get s.thr.csr)) r
      (r.get s.thr.csr &&& ~~~(s.thr.rs a)))) 4 1) ∧
    (∀ v, r.get (r.put s.thr.csr v) = v)) ∧
  (∀ r ∈ roCsrs, ∀ (s : State) (g d a : BitVec 4), on s g →
    exec (.csrr g d r.1) s = .next (done (withThr s (s.thr.ws d (r.2 s))) 4 1) ∧
    exec (.csrw g a r.1) s = .next (done s 4 1) ∧
    exec (.csrs g d a r.1) s = .next (done (withThr s (s.thr.ws d (r.2 s))) 4 1) ∧
    exec (.csrc g d a r.1) s = .next (done (withThr s (s.thr.ws d (r.2 s))) 4 1)) ∧
  (∀ (s : State) (g d a : BitVec 4) (k : Slot), on s g → k = s.slotAt s.thr.core s.thr.slot →
    let size := s.scratchSize s.thr.tid.part s.thr.core
    let put (t : Thread) (c b n : Nat) : State := withThr (s.setSlot s.thr.core s.thr.slot
      { k with chbase := b, chlen := if n ≤ 65536 ∧ b + n ≤ size then n else 0, wm := 0, filled := 0 })
      { t with poison := t.poison.filter (· != 4096 * 4 + c) }
    let base (t : Thread) (v : Word) : State := put t 0x040 (v.toNat / 32 % 2048 * 32) k.chlen
    let len (t : Thread) (v : Word) : State := put t 0x041 k.chbase (v.toNat / 32 % 4096 * 32)
    let b := BitVec.ofNat 32 k.chbase
    let n := BitVec.ofNat 32 k.chlen
    let x := s.thr.rs a
    exec (.csrr g d 0x040) s = .next (done (withThr s (s.thr.ws d b)) 4 1) ∧
    exec (.csrr g d 0x041) s = .next (done (withThr s (s.thr.ws d n)) 4 1) ∧
    exec (.csrw g a 0x040) s = .next (done (base s.thr x) 4 1) ∧
    exec (.csrw g a 0x041) s = .next (done (len s.thr x) 4 1) ∧
    exec (.csrs g d a 0x040) s = .next (done (base (s.thr.ws d b) (b ||| x)) 4 1) ∧
    exec (.csrs g d a 0x041) s = .next (done (len (s.thr.ws d n) (n ||| x)) 4 1) ∧
    exec (.csrc g d a 0x040) s = .next (done (base (s.thr.ws d b) (b &&& ~~~x)) 4 1) ∧
    exec (.csrc g d a 0x041) s = .next (done (len (s.thr.ws d n) (n &&& ~~~x)) 4 1)) ∧
  (∀ (s : State) (g d a : BitVec 4), on s g →
    let p := s.thr.tid.part
    let c := s.thr.core
    let old : Word := (s.l1m p c).setWidth 32
    exec (.csrr g d 0x080) s = .next (done (withThr s (s.thr.ws d old)) 4 1) ∧
    ∀ x ∈ [(Instr.csrw g a 0x080, s.thr, s.thr.rs a), (Instr.csrs g d a 0x080, s.thr.ws d old, old ||| s.thr.rs a),
        (Instr.csrc g d a 0x080, s.thr.ws d old, old &&& ~~~(s.thr.rs a))],
      (s.sramQuiet p c = true → ∃ u, exec x.1 s = .next (done u 4 1) ∧ l1cfgWritten s u x.2.2 ∧
        u.thr = { x.2.1 with poison := x.2.1.poison.filter (· != 4096 * 4 + 0x080) }) ∧
      (atIssue s → s.sramQuiet p c = false →
        exec x.1 s = .next (parkedAt (withThr s { s.thr with stage := { sent := true } }) .l1cfg)))

/-- NOP does nothing. IDLE with the wake bit set clears it and retires. RDCYC and RDTIME with W = 0 deliver the low word of
their count and latch the high word, with W = 1 deliver the latch. RDSIG delivers SIGL or SIGH. L1INV takes the partition's
lines from the core's L1 and its words from the core's instruction buffer, and those of no other partition or core. Each
retires in one issue cycle, and nothing else changes (R184, R186, R189, R190, R192). -/
def Obligations.SystemForms : Prop :=
  ∀ (s : State) (g d : BitVec 4), on s g →
    exec (.nop g) s = .next (done s 4 1) ∧
    (s.thr.wake = true → exec (.idle g) s = .next (done (withThr s { s.thr with wake := false }) 4 1)) ∧
    exec (.rdcyc g d 0) s = .next (done (withThr s
      { s.thr.ws d ((s.rdcyc s.thr).setWidth 32) with cycHi := (s.rdcyc s.thr >>> 32).setWidth 32 }) 4 1) ∧
    exec (.rdcyc g d 1) s = .next (done (withThr s (s.thr.ws d s.thr.cycHi)) 4 1) ∧
    exec (.rdtime g d 0) s = .next (done (withThr s
      { s.thr.ws d (BitVec.ofNat 32 s.gtime) with timeHi := BitVec.ofNat 32 (s.gtime / 2 ^ 32) }) 4 1) ∧
    exec (.rdtime g d 1) s = .next (done (withThr s (s.thr.ws d s.thr.timeHi)) 4 1) ∧
    exec (.rdsig g d 0) s = .next (done (withThr s (s.thr.ws d (s.thr.sigHL.setWidth 32))) 4 1) ∧
    exec (.rdsig g d 1) s = .next (done (withThr s (s.thr.ws d ((s.thr.sigHL >>> 32).setWidth 32))) 4 1) ∧
    ∃ t, exec (.l1inv g) s = .next t ∧
      t.l1 = s.l1.filter (fun l => !(l.core == s.thr.core && l.part == s.thr.tid.part)) ∧
      (∀ a, a < 2 ^ 64 → Table.get? t.ibuf (2 ^ 64 * (64 * s.thr.core + s.thr.tid.part) + a) = none) ∧
      (∀ k, k / 2 ^ 64 ≠ 64 * s.thr.core + s.thr.tid.part → Table.get? t.ibuf k = Table.get? s.ibuf k) ∧
      t.thr = (done s 4 1).thr ∧ t.dev = s.dev ∧ t.sram = s.sram ∧ t.sectors = s.sectors ∧ t.slots = s.slots

/-- HALT ends the thread: it is halted, its inbound queues are empty, an excuse goes to each of its groups behind what is in the
mesh (the model's reading, log entry 54), and no register, CSR, memory byte or sector changes (R185, R158, R322). -/
def Obligations.Halt : Prop :=
  ∀ (s : State) (g : BitVec 4), s.thr.enabled g = true →
    ∃ t, exec (.halt g) s = .next t ∧ t.thr.phase = .halted ∧ t.thr.s = s.thr.s ∧ t.thr.v = s.thr.v ∧ t.thr.k = s.thr.k ∧
      t.thr.p = s.thr.p ∧ t.thr.csr = s.thr.csr ∧ t.thr.acc = s.thr.acc ∧ t.thr.issued = s.thr.issued + 1 ∧
      t.dev = s.dev ∧ t.sram = s.sram ∧ t.sectors = s.sectors ∧ t.launches = s.launches ∧
      (∀ k, k < 16 → s.thr.ownsHere k = true → (t.slotAt s.thr.core k).inq = []) ∧
      ∃ ks, t.net = s.net ++ ks ∧ ks.map (fun k => (k.part, k.src, k.body)) =
        (s.thr.grp.toList.filter (· != 0xFFFF)).map (fun m => (s.thr.tid.part, s.thr.core, Body.arrive
          { tid := s.thr.tid, gid := m.toNat, phase := 0, kind := .excuse, seq := none }))

/-- TRAP raises TRAPI and BKPT raises BKPT, each with its IMM8 as the detail: EPC names the instruction, or the repeat's
prefix, REPST the issue or 0, ECAUSE the cause; single-step is cleared; and the pc is TVEC with bits [1:0] taken as zero.
No other register, CSR, memory byte or accumulator changes (R187, R336, R59). With a TVEC of zero the thread stops: it saves
EPC, REPST, ECAUSE and EADDR and clears single-step as at any trap, its pc stays, it issues no more, and an event of the
trap's cause is posted to the partition (R337, R372). -/
def Obligations.TrapEntry : Prop :=
  ∀ (s : State) (g : BitVec 4) (i : BitVec 8), s.thr.enabled g = true →
    (s.thr.tvec ≠ 0 →
      exec (.trap g i) s = .next (entered s 1 0x11 (BitVec.ofNat 64 i.toNat) s.thr.pc (repstAt s.thr.rep)) ∧
      exec (.bkpt g i) s = .next (entered s 1 0x0F (BitVec.ofNat 64 i.toNat) s.thr.pc (repstAt s.thr.rep))) ∧
    (s.thr.tvec = 0 →
      let stop (c : Nat) : State := { entered s 1 c (BitVec.ofNat 64 i.toNat) s.thr.pc (repstAt s.thr.rep) with
        thr := { (entered s 1 c (BitVec.ofNat 64 i.toNat) s.thr.pc (repstAt s.thr.rep)).thr with
          pc := s.thr.pc, phase := .stopped, entered := false } }
      let after (c : Nat) : State :=
        (((stop c).postEvent (s.thr.tid.part + 1) 2 c s.thr.tid.idx s.thr.tid.lid s.thr.pc (BitVec.ofNat 64 i.toNat)).undelivered
          (stop c).thr).excuse (stop c).thr
      exec (.trap g i) s = .next (after 0x11) ∧ exec (.bkpt g i) s = .next (after 0x0F))

/-- ERET with REPST.ACT = 0: the pc becomes EPC, REPST is cleared, every other CSR is as before, and ERET itself is not
single-stepped. With an EPC of nonzero bits [1:0] it traps MISALIGN. With ACT = 1 and the prefix and its target at EPC
passing R58, the issues STEP to STEP + REM of the target come next, and the prefix's issue cycle is not consumed again; a
word at EPC that is no prefix traps ILLEGAL with EPC and REPST as they were (R188, R59, R46). -/
def Obligations.Eret : Prop :=
  ∀ (s : State) (g : BitVec 4) (epc : DWord), s.thr.enabled g = true →
    epc = BitVec.ofNat 64 (s.thr.csr.epch.toNat * 2 ^ 32 + s.thr.csr.epcl.toNat) →
    (epc.toNat % 4 = 0 → s.thr.csr.repst.getLsbD 31 = false →
      exec (.eret g) s = .next (jumped (withThr s { s.thr with csr := { s.thr.csr with repst := 0 } }) epc)) ∧
    (epc.toNat % 4 ≠ 0 → s.thr.tvec ≠ 0 →
      exec (.eret g) s = .next (entered s 1 0x03 epc s.thr.pc (repstAt s.thr.rep))) ∧
    (∀ (w w0 w1 : Word) (c : BitVec 6) (i j k : BitVec 3), epc.toNat % 4 = 0 → s.thr.csr.repst.getLsbD 31 = true →
      s.word? epc.toNat = some w → decodeRaw w.toNat 0 = .ok (.rep c i j k) → s.word? (epc + 4).toNat = some w0 →
      (if twoWord w0.toNat then s.word? (epc + 8).toNat = some w1 else w1 = 0) →
      repeatAllowed w.toNat w0.toNat = true →
      let st := s.thr.csr.repst.toNat % 64
      exec (.eret g) s = .next { jumped (withThr s { s.thr with csr := { s.thr.csr with repst := 0 } }) epc with
        thr := { (jumped (withThr s { s.thr with csr := { s.thr.csr with repst := 0 } }) epc).thr with
          rep := some { i := st, last := st + s.thr.csr.repst.toNat / 256 % 64, w0 := w0, w1 := w1
                        id := i.toNat, ia := j.toNat, ib := k.toNat } } }) ∧
    (∀ (w : Word), epc.toNat % 4 = 0 → s.thr.csr.repst.getLsbD 31 = true → s.thr.tvec ≠ 0 →
      s.word? epc.toNat = some w → (∀ c i j k, decodeRaw w.toNat 0 ≠ .ok (.rep c i j k)) →
      exec (.eret g) s = .next (entered s 1 0x01 (BitVec.ofNat 64 w.toNat) epc s.thr.csr.repst))

/-- REP before a target that passes R58: the prefix takes one issue cycle, changes nothing but the repeat state, and the
target's issues 0 to CNT follow at the same pc. Before a target that does not pass, it traps ILLEGAL at the prefix with the
prefix word as the detail (R58, R181). -/
def Obligations.RepeatPrefix : Prop :=
  ∀ (s : State) (c : BitVec 6) (i j k : BitVec 3) (w0 w1 : Word),
    s.word? (s.thr.pc + 4).toNat = some w0 →
    (if twoWord w0.toNat then s.word? (s.thr.pc + 8).toNat = some w1 else w1 = 0) →
    let w : Nat := 0x0F * 2 ^ 26 + c.toNat * 2 ^ 20 + i.toNat * 2 ^ 17 + j.toNat * 2 ^ 14 + k.toNat * 2 ^ 11
    (repeatAllowed w w0.toNat = true →
      exec (.rep c i j k) s = .next { s with thr := { s.thr with
        rep := some { i := 0, last := c.toNat, w0 := w0, w1 := w1, id := i.toNat, ia := j.toNat, ib := k.toNat }
        phase := .run, stage := {}, answer := none, expect := none, entered := false, latch := []
        waited := 0, issued := s.thr.issued + 1 } }) ∧
    (repeatAllowed w w0.toNat = false → s.thr.tvec ≠ 0 →
      exec (.rep c i j k) s = .next (entered s 1 0x01 (BitVec.ofNat 64 w) s.thr.pc (repstAt s.thr.rep)))

/-- Single-step (R345): with DBGCTL.SS set, an enabled instruction that retires has its effect and then raises SSTEP: EPC
names the next instruction, fall-through or branch target, or the repeat's prefix with REPST naming the next issue; EADDR
names the stepped instruction; and SS is cleared. That holds of every encoded form that leaves its thread running and has
taken no trap, whatever its effect u is with SS clear; but for REP and ERET, which are not stepped (R58, R188), and writes of
DBGCTL and reads of it, whose effect is another with SS clear (R169). For the forms of R170 and the branch the effect is
written out. -/
def Obligations.SingleStep : Prop :=
  (∀ (s : State) (g : BitVec 4), s.thr.enabled g = true → s.thr.csr.dbgctl = 1 → s.thr.tvec ≠ 0 →
    (∀ p ∈ aluThree, ∀ (d a b : BitVec 4),
      let u := done (withThr s (s.thr.ws d (p.2 (s.thr.rs a) (s.thr.rs b)))) 4 1
      exec (p.1 g d a b) s = .next (entered u 0 0x10 s.thr.pc u.thr.pc (repstAt u.thr.rep))) ∧
    (∀ o : BitVec 22, exec (.br g o) s =
      .next (entered (jumped s (BitVec.ofInt 64 (s.thr.pc.toNat + o.toInt * 4))) 0 0x10 s.thr.pc
        (BitVec.ofInt 64 (s.thr.pc.toNat + o.toInt * 4)) 0))) ∧
  (∀ (i : Instr) (s u : State), encode i ≠ [] → (∀ g n, guardLen i = some (g, n) → s.thr.enabled g = true) →
    (∀ c x y z, i ≠ .rep c x y z) → (∀ g, i ≠ .eret g) → (∀ g d, i ≠ .csrr g d 0x070) → (∀ g a, i ≠ .csrw g a 0x070) →
    (∀ g d a, i ≠ .csrs g d a 0x070) → (∀ g d a, i ≠ .csrc g d a 0x070) → s.thr.csr.dbgctl = 1 →
    exec i (withThr s { s.thr with csr := { s.thr.csr with dbgctl := 0 } }) = .next u →
    u.thr.phase = .run → u.thr.entered = false → s.thr.issued < u.thr.issued → u.thr.tvec ≠ 0 →
    exec i s = .next (entered u 0 0x10 s.thr.pc u.thr.pc (repstAt u.thr.rep)))

/-! ## Vector forms -/

/-- The bit-moving forms of R218 to R226: each result is the rule's, element by element, no flag is set, and nothing but the
destination changes, whose poison marks go, VINS's of the word that it writes in. VEXT sign-extends b and h, and delivers w, f
and the other types as they are. -/
def Obligations.VectorMoves : Prop :=
  (∀ (s : State) (d a b : BitVec 7), plain s →
    exec (.vand d a b) s = .next (done (withThr s (s.thr.wv d (s.thr.rv a &&& s.thr.rv b))) 4 1) ∧
    exec (.vor d a b) s = .next (done (withThr s (s.thr.wv d (s.thr.rv a ||| s.thr.rv b))) 4 1) ∧
    exec (.vxor d a b) s = .next (done (withThr s (s.thr.wv d (s.thr.rv a ^^^ s.thr.rv b))) 4 1) ∧
    exec (.vandn d a b) s = .next (done (withThr s (s.thr.wv d (s.thr.rv a &&& ~~~(s.thr.rv b)))) 4 1)) ∧
  (∀ p ∈ moveTwo, ∀ (s : State) (d a b : BitVec 7) (ty : BitVec 3), plain s →
    ∃ x, lanes x ty (p.2 ty (el (s.thr.rv a) ty) (el (s.thr.rv b) ty) (s.thr.rk 0)) ∧
      exec (p.1 d a b ty) s = .next (done (withThr s (s.thr.wv d x)) 4 1)) ∧
  (∀ p ∈ moveOne, ∀ (s : State) (d a : BitVec 7) (ty : BitVec 3), plain s →
    ∃ x, lanes x ty (p.2 ty (el (s.thr.rv a) ty)) ∧
      exec (p.1 d a ty) s = .next (done (withThr s (s.thr.wv d x)) 4 1)) ∧
  (∀ p ∈ moveImm, ∀ (s : State) (d a : BitVec 7) (i : BitVec 8) (ty : BitVec 3), plain s →
    ∃ x, lanes x ty (fun n => p.2 ty (el (s.thr.rv a) ty n) i) ∧
      exec (p.1 d a i ty) s = .next (done (withThr s (s.thr.wv d x)) 4 1)) ∧
  (∀ (s : State) (d a : BitVec 7) (i : BitVec 8), plain s →
    ∃ x : VReg, (∀ j, j < 16 → elem x 8 j =
        if j + i.toNat < 16 then elem (s.thr.rv a) 8 (j + i.toNat)
        else if j + i.toNat < 32 then elem (s.thr.rv d) 8 (j + i.toNat - 16) else 0) ∧
      exec (.vextb d a i) s = .next (done (withThr s (s.thr.wv d x)) 4 1)) ∧
  (∀ (s : State) (d : BitVec 7) (r : BitVec 4) (i : BitVec 4) (ty : BitVec 3), plain s →
    (∃ x, lanes x ty (fun _ => (s.thr.rs r).toNat) ∧
      exec (.vmovs d r ty) s = .next (done (withThr s (s.thr.wv d x)) 4 1)) ∧
    (i.toNat < tElems ty.toNat →
      (∃ x, lanes x ty (fun j => if j = i.toNat then (s.thr.rs r).toNat else el (s.thr.rv d) ty j) ∧
        exec (.vins d i r ty) s = .next (done (withThr s { s.thr.wv d x with
          poison := s.thr.poison.filter (· != 65536 * (i.toNat * tWidth ty.toNat / 32) + 4096 + d.toNat) }) 4 1)) ∧
      exec (.vext i d r ty) s = .next (done (withThr s (s.thr.ws r
        (if ty.toNat < 2 then BitVec.ofInt 32 (sel ty (el (s.thr.rv d) ty i.toNat))
         else BitVec.ofNat 32 (el (s.thr.rv d) ty i.toNat)))) 4 1))) ∧
  (∀ (s : State) (k : BitVec 3) (r : BitVec 4), plain s →
    exec (.kmovs k r) s = .next (done (withThr s (s.thr.wk k ((s.thr.rs r).setWidth 16))) 4 1) ∧
    exec (.kext k r) s = .next (done (withThr s (s.thr.ws r ((s.thr.rk k).setWidth 32))) 4 1)) ∧
  (∀ (s : State) (d a b : BitVec 3), plain s →
    exec (.kand d a b) s = .next (done (withThr s (s.thr.wk d (s.thr.rk a &&& s.thr.rk b))) 4 1) ∧
    exec (.kor d a b) s = .next (done (withThr s (s.thr.wk d (s.thr.rk a ||| s.thr.rk b))) 4 1) ∧
    exec (.kxor d a b) s = .next (done (withThr s (s.thr.wk d (s.thr.rk a ^^^ s.thr.rk b))) 4 1) ∧
    exec (.knot d a) s = .next (done (withThr s (s.thr.wk d (~~~(s.thr.rk a)))) 4 1))

/-- VADD, VSUB, VMUL, VFMA, VFMS and VFNMA: each integer element is the exact result modulo its width, each float element the
exact sum, product or fused product-sum rounded once under FMODE with the element's draw; the flags of all elements go into
FSTAT; a float form under SR advances the position by one; and nothing else changes (R215, R216, R217). VMIN and VMAX pick the
smaller or larger element, integers as signed; VADDS and VSUBS clamp with OF and NX; VMULH gives the high half of the signed
product; VABS gives the magnitude, of an integer modulo its width, of a float with its sign cleared, a NaN canonical. Flags go
into FSTAT, a float form under SR advances the position, and nothing else changes (R215, R216, R217). -/
def Obligations.VectorArithmetic : Prop :=
  (∀ p ∈ vecRound, ∀ (s : State) (d a b : BitVec 7) (ty : BitVec 3), plain s →
    let r (i : Nat) : Nat × Flags := roundLane s.thr.csr ty p.2.1 p.2.2 i
      (el (s.thr.rv a) ty i) (el (s.thr.rv b) ty i) (el (s.thr.rv d) ty i)
    ∃ (x : VReg) (fl : Flags), lanes x ty (fun i => (r i).1) ∧ flagsOf fl (tElems ty.toNat) (fun i => (r i).2) ∧
      exec (p.1 d a b ty) s = .next (done (withThr s (arith (s.thr.wv d x) ty fl)) 4 1)) ∧
  (∀ p ∈ vecRaw, ∀ (s : State) (d a b : BitVec 7) (ty : BitVec 3), plain s →
    let r (i : Nat) : Nat × Flags := p.2 ty (el (s.thr.rv a) ty i) (el (s.thr.rv b) ty i)
    ∃ (x : VReg) (fl : Flags), lanes x ty (fun i => (r i).1) ∧ flagsOf fl (tElems ty.toNat) (fun i => (r i).2) ∧
      exec (p.1 d a b ty) s = .next (done (withThr s (arith (s.thr.wv d x) ty fl)) 4 1)) ∧
  (∀ p ∈ vecInt, ∀ (s : State) (d a b : BitVec 7) (ty : BitVec 3), plain s → ty.toNat < 3 →
    let r (i : Nat) : Nat × Flags := p.2 ty (el (s.thr.rv a) ty i) (el (s.thr.rv b) ty i)
    ∃ (x : VReg) (fl : Flags), lanes x ty (fun i => (r i).1) ∧ flagsOf fl (tElems ty.toNat) (fun i => (r i).2) ∧
      exec (p.1 d a b ty) s = .next (done (withThr s (arith (s.thr.wv d x) ty fl)) 4 1)) ∧
  (∀ (s : State) (d a : BitVec 7) (ty : BitVec 3), plain s →
    let r (i : Nat) : Nat × Flags :=
      let x := el (s.thr.rv a) ty i
      if ty.toNat < 3 then (wrap ty (sel ty x).natAbs, 0)
      else if (fval ty x).isNan then ((codeFmt (tCode ty.toNat)).nan.getD 0, fNF)
      else (x % 2 ^ (tWidth ty.toNat - 1), if (fval ty x).isInf then fNF else 0)
    ∃ (x : VReg) (fl : Flags), lanes x ty (fun i => (r i).1) ∧ flagsOf fl (tElems ty.toNat) (fun i => (r i).2) ∧
      exec (.vabs d a ty) s = .next (done (withThr s (arith (s.thr.wv d x) ty fl)) 4 1))


/-- The compares write every mask bit of an element with the element's condition, and a float compare sets NF when an element
that it reads is infinite or NaN; nothing else changes (R219). -/
def Obligations.VectorCompares : Prop :=
  (∀ p ∈ compares, ∀ (s : State) (d : BitVec 3) (a b : BitVec 7) (ty : BitVec 3), plain s →
    let A := el (s.thr.rv a) ty
    let B := el (s.thr.rv b) ty
    ∃ m : Half,
      maskIs m ty (fun i => if ty.toNat < 3 then p.2.1 ty (A i) (B i) else p.2.2 (fval ty (A i)) (fval ty (B i))) ∧
      exec (p.1 d a b ty) s = .next (done (withThr s (flagged (s.thr.wk d m)
        (if decide (3 ≤ ty.toNat) && (List.range (tElems ty.toNat)).any
          (fun i => (fval ty (A i)).nonFinite || (fval ty (B i)).nonFinite) then fNF else 0))) 4 1)) ∧
  (∀ (s : State) (d : BitVec 3) (a b : BitVec 7) (ty : BitVec 3), plain s → ty.toNat < 3 →
    (∃ m, maskIs m ty (fun i => el (s.thr.rv a) ty i < el (s.thr.rv b) ty i) ∧
      exec (.vcltu d a b ty) s = .next (done (withThr s (s.thr.wk d m)) 4 1)) ∧
    (∃ m, maskIs m ty (fun i => el (s.thr.rv a) ty i ≤ el (s.thr.rv b) ty i) ∧
      exec (.vcleu d a b ty) s = .next (done (withThr s (s.thr.wk d m)) 4 1))) ∧
  (∀ (s : State) (d : BitVec 3) (a b : BitVec 7) (ty : BitVec 3), plain s → 3 ≤ ty.toNat →
    let A (i : Nat) : Val := fval ty (el (s.thr.rv a) ty i)
    let B (i : Nat) : Val := fval ty (el (s.thr.rv b) ty i)
    (∃ m, maskIs m ty (fun i => A i = .nan ∨ B i = .nan) ∧
      exec (.vcun d a b ty) s = .next (done (withThr s (flagged (s.thr.wk d m)
        (if (List.range (tElems ty.toNat)).any (fun i => (A i).nonFinite || (B i).nonFinite) then fNF else 0))) 4 1)) ∧
    (∃ m, maskIs m ty (fun i => (A i).nonFinite = true) ∧
      exec (.vcnf d a ty) s = .next (done (withThr s (flagged (s.thr.wk d m)
        (if (List.range (tElems ty.toNat)).any (fun i => (A i).nonFinite) then fNF else 0))) 4 1)))

/-- The widening forms write 2·w-bit elements into a pair, for the source types that have a wide type (R214, R221). The
reductions VHADD, VHMAX and VHMIN combine element 0 of vb with every element of va into element 0 and clear the others;
VSCAN gives the running sums from the last element of vb (R222). Flags and the position are as R215 states, and nothing else
changes. -/
def Obligations.WideningReductions : Prop :=
  (∀ p ∈ widening, ∀ (s : State) (d : BitVec 6) (a b : BitVec 7) (ty : BitVec 3), plain s →
    ty.toNat ≠ 2 → ty.toNat ≠ 5 →
    let ww := 2 * tWidth ty.toNat
    let r (i : Nat) : Nat × Flags := wideLane s.thr.csr ty p.2.1 p.2.2 i
      (el (s.thr.rv a) ty i) (el (s.thr.rv b) ty i) ((s.thr.rvp d).toNat / 2 ^ (ww * i) % 2 ^ ww)
    ∃ (x : Line) (fl : Flags), (∀ i, i < tElems ty.toNat → x.toNat / 2 ^ (ww * i) % 2 ^ ww = (r i).1 % 2 ^ ww) ∧
      flagsOf fl (tElems ty.toNat) (fun i => (r i).2) ∧
      exec (p.1 d a b ty) s = .next (done (withThr s (arith (s.thr.wvp d x) ty fl)) 4 1)) ∧
  (∀ (s : State) (d a b : BitVec 7) (ty : BitVec 3), plain s →
    let all : List Nat := el (s.thr.rv b) ty 0 :: (List.range (tElems ty.toNat)).map (el (s.thr.rv a) ty)
    let least (y z : Nat) : Nat × Flags :=
      if ty.toNat < 3 then (if sel ty y ≤ sel ty z then y else z, 0) else pickFloat ty.toNat true y z
    let most (y z : Nat) : Nat × Flags :=
      if ty.toNat < 3 then (if sel ty y ≤ sel ty z then z else y, 0) else pickFloat ty.toNat false y z
    let fold (f : Nat → Nat → Nat × Flags) : Nat × Flags := all.tail.foldl
      (fun (q : Nat × Flags) y => ((f q.1 y).1, q.2 ||| (f q.1 y).2)) (f (all.headD 0) (all.headD 0))
    let first (r : Nat × Flags) (i : Nat) : Nat := if i = 0 then r.1 else 0
    (∃ x, lanes x ty (first (sumOf s.thr.csr ty 0 all)) ∧ exec (.vhadd d a b ty) s =
      .next (done (withThr s (arith (s.thr.wv d x) ty (sumOf s.thr.csr ty 0 all).2)) 4 1)) ∧
    (∃ x, lanes x ty (first (fold most)) ∧ exec (.vhmax d a b ty) s =
      .next (done (withThr s (arith (s.thr.wv d x) ty (fold most).2)) 4 1)) ∧
    (∃ x, lanes x ty (first (fold least)) ∧ exec (.vhmin d a b ty) s =
      .next (done (withThr s (arith (s.thr.wv d x) ty (fold least).2)) 4 1)) ∧
    (let r (i : Nat) : Nat × Flags := sumOf s.thr.csr ty i (el (s.thr.rv b) ty (tElems ty.toNat - 1) ::
       (List.range (i + 1)).map (el (s.thr.rv a) ty))
     ∃ (x : VReg) (fl : Flags), lanes x ty (fun i => (r i).1) ∧ flagsOf fl (tElems ty.toNat) (fun i => (r i).2) ∧
       exec (.vscan d a b ty) s = .next (done (withThr s (arith (s.thr.wv d x) ty fl)) 4 1)))

/-- VDOT4 and VDOT4U add four byte products to each lane of vd modulo 2^32, signed and unsigned, with no flag; VDOT2B and
VDOT2H add two products to each lane as one exact group, rounded once under RNE (R223, R212, R213). Nothing else changes. -/
def Obligations.DotProducts : Prop :=
  ∀ (s : State) (d a b : BitVec 7), plain s →
    let c (i : Nat) : Nat := elem (s.thr.rv d) 32 i
    let s8 (x : Nat) : Int := if x < 128 then x else (x : Int) - 256
    (∃ x : VReg, (∀ i, i < 4 → elem x 32 i = (((c i : Int) + ((List.range 4).map (fun k =>
          s8 (elem (s.thr.rv a) 8 (4 * i + k)) * s8 (elem (s.thr.rv b) 8 (4 * i + k)))).sum) % 2 ^ 32).toNat) ∧
      exec (.vdot4 d a b) s = .next (done (withThr s (s.thr.wv d x)) 4 1)) ∧
    (∃ x : VReg, (∀ i, i < 4 → elem x 32 i = (c i + ((List.range 4).map (fun k =>
          elem (s.thr.rv a) 8 (4 * i + k) * elem (s.thr.rv b) 8 (4 * i + k))).sum) % 2 ^ 32) ∧
      exec (.vdot4u d a b) s = .next (done (withThr s (s.thr.wv d x)) 4 1)) ∧
    (let r (f : Fmt) (i : Nat) : Nat × Flags := fmtF.finish 0 false 0 (groupSum (fmtF.value (c i))
       ((List.range 2).map (fun k =>
         (f.value (elem (s.thr.rv a) 16 (2 * i + k)), f.value (elem (s.thr.rv b) 16 (2 * i + k))))))
     (∃ (x : VReg) (fl : Flags), (∀ i, i < 4 → elem x 32 i = (r fmtBf i).1 % 2 ^ 32) ∧
        flagsOf fl 4 (fun i => (r fmtBf i).2) ∧
        exec (.vdot2b d a b) s = .next (done (withThr s (flagged (s.thr.wv d x) fl)) 4 1)) ∧
     (∃ (x : VReg) (fl : Flags), (∀ i, i < 4 → elem x 32 i = (r fmtHf i).1 % 2 ^ 32) ∧
        flagsOf fl 4 (fun i => (r fmtHf i).2) ∧
        exec (.vdot2h d a b) s = .next (done (withThr s (flagged (s.thr.wv d x) fl)) 4 1)))

/-- VCVT between types other than tc converts N = 128 / max(ws, wd) elements and clears the bits above them; under SR it
advances the position unless both types are integers; from and to tc it does so by the decode table, when that can be read, and
has seen all ones, but that a NaN needs no entry (R228, R230, R232, R296). VSPLI writes its immediate to every element, as an
integer or as the exact float value, and a float T under SR advances the position (R225, R215). Nothing else changes. -/
def Obligations.Conversions : Prop :=
  (∀ (s : State) (d a : BitVec 7) (st dt : BitVec 4) (rm : BitVec 3) (sat : BitVec 1), plain s →
    (st ≠ 12 ∧ dt ≠ 12 ∨ tableReady s) →
    let ws := codeWidth st.toNat
    let wd := codeWidth dt.toNat
    let n := 128 / Nat.max ws wd
    let src (i : Nat) : Nat := if st = 13 then elem (s.thr.rv a) ws i % 2 ^ 19 else elem (s.thr.rv a) ws i
    let g (i : Nat) : Nat := s.thr.csr.draw rm.toNat i
    let r (i : Nat) : Nat × Flags :=
      if dt = 12 then ((tcEncode (entry s) rm.toNat (g i) (codeVal st.toNat (src i))).1,
        (tcEncode (entry s) rm.toNat (g i) (codeVal st.toNat (src i))).2.1)
      else if st = 12 then toCode dt.toNat rm.toNat (sat == 1) (g i) (entry s (src i))
      else convert st.toNat dt.toNat rm.toNat (sat == 1) (g i) (src i)
    let t := if st ≠ 12 ∧ dt ≠ 12 ∨ dt = 12 ∧ ∀ i, i < n → codeVal st.toNat (src i) = .nan then s.thr else sawPad s.thr
    ∃ (x : VReg) (fl : Flags),
      (∀ i, i < 128 / wd → elem x wd i = if i < n then (r i).1 % 2 ^ wd else 0) ∧ flagsOf fl n (fun i => (r i).2) ∧
      exec (.vcvt d a st dt rm sat) s = .next (done (withThr s (drawn (t.wv d x)
        (if st.toNat < 6 ∧ dt.toNat < 6 then 0 else rm.toNat) fl)) 4 1)) ∧
  (∀ (s : State) (d : BitVec 7) (i : BitVec 8) (ty : BitVec 3), plain s → ty.toNat < 6 →
    ∃ x, lanes x ty (fun _ => if ty.toNat < 3 then wrap ty i.toInt
        else ((codeFmt (tCode ty.toNat)).round 0 false 0 (.fin (decide (i.toInt < 0)) i.toInt.natAbs 0)).1) ∧
      exec (.vspli d i ty) s = .next (done (withThr s (arith (s.thr.wv d x) ty 0)) 4 1))

/-- The special functions give their results on every FP32 element in 4 or 8 issue cycles; VFLR and VRND round to the integer
grid; VRNG delivers the generator's output at RPOS + zext(sS) and VRNGF its uniform values, and neither moves the position
(R239, R240, R241, R242, R248). Flags go into FSTAT, and nothing else changes. -/
def Obligations.SpecialFunctions : Prop :=
  (∀ p ∈ special, ∀ (s : State) (d a : BitVec 7), plain s →
    ∃ (x : VReg) (fl : Flags), (∀ i, i < 4 → elem x 32 i = (p.2.2 (elem (s.thr.rv a) 32 i)).1 % 2 ^ 32) ∧
      flagsOf fl 4 (fun i => (p.2.2 (elem (s.thr.rv a) 32 i)).2) ∧
      exec (p.1 d a) s = .next (done (withThr s (flagged (s.thr.wv d x) fl)) 4 p.2.1)) ∧
  (∀ (s : State) (d a b : BitVec 7), plain s →
    let r (i : Nat) : Nat × Flags := divF (elem (s.thr.rv a) 32 i) (elem (s.thr.rv b) 32 i)
    ∃ (x : VReg) (fl : Flags), (∀ i, i < 4 → elem x 32 i = (r i).1 % 2 ^ 32) ∧ flagsOf fl 4 (fun i => (r i).2) ∧
      exec (.vdiv d a b) s = .next (done (withThr s (flagged (s.thr.wv d x) fl)) 4 8)) ∧
  (∀ (s : State) (d a : BitVec 7) (ty : BitVec 3), plain s →
    let m := s.thr.csr.fmode.toNat % 8
    let r (rm i : Nat) : Nat × Flags :=
      toIntegral (codeFmt (tCode ty.toNat)) rm (s.thr.csr.draw rm i) (el (s.thr.rv a) ty i)
    (∃ (x : VReg) (fl : Flags), lanes x ty (fun i => (r 3 i).1) ∧ flagsOf fl (tElems ty.toNat) (fun i => (r 3 i).2) ∧
      exec (.vflr d a ty) s = .next (done (withThr s (flagged (s.thr.wv d x) fl)) 4 1)) ∧
    (∃ (x : VReg) (fl : Flags), lanes x ty (fun i => (r m i).1) ∧ flagsOf fl (tElems ty.toNat) (fun i => (r m i).2) ∧
      exec (.vrnd d a ty) s = .next (done (withThr s (drawn (s.thr.wv d x) m fl)) 4 1))) ∧
  (∀ (s : State) (d : BitVec 7) (r : BitVec 4) (ty : BitVec 3), plain s →
    let out := mix (join s.thr.csr.rkeyh s.thr.csr.rkeyl) s.thr.csr.rstr
      (join s.thr.csr.rposh s.thr.csr.rposl + (s.thr.rs r).setWidth 64)
    let p := (codeFmt (tCode ty.toNat)).m + 1
    exec (.vrng d r) s = .next (done (withThr s (s.thr.wv d out)) 4 1) ∧
    ∃ x, lanes x ty (fun i => ((codeFmt (tCode ty.toNat)).roundMag 0 false 0 false
        (Mag.of (el out ty i / 2 ^ (tWidth ty.toNat - p)) (-(p : Int)))).1) ∧
      exec (.vrngf d r ty) s = .next (done (withThr s (s.thr.wv d x)) 4 1))

/-- VQBLK quantises the 32 elements of a group into codes and a scale; VMXDEC decodes 32 codes under a scale; VDEC and VENC
decode and encode 16 table codes when the table can be read, and VDEC reads no entry under the NaN scale, nor
VENC for a NaN; a thread that reads the table has seen all ones (R296). Registers outside
the group, the code vector and sD are as before (R234, R235, R236, R237, R238). -/
def Obligations.BlockForms : Prop :=
  (∀ (s : State) (d : BitVec 7) (a r : BitVec 4) (ty : BitVec 3), plain s → tBlock ty = true → (ty = 1 ∨ d.toNat % 2 = 0) →
    let c := blockCode ty.toNat
    let q := quantise c ((List.range 32).map (groupEl s.thr (8 * a.toNat)))
    ∃ x y : VReg, (∀ i, i < 32 → (if ty = 1 then elem x 4 i else if i < 16 then elem x 8 i else elem y 8 (i - 16)) =
        q.2.1.getD i 0 % 2 ^ codeWidth c) ∧
      exec (.vqblk d a r ty) s = .next (done (withThr s (flagged
        ((if ty = 1 then s.thr.wv d x else (s.thr.wv d x).wv (d + 1) y).ws r (BitVec.ofNat 32 q.1)) q.2.2)) 4 8)) ∧
  (∀ (s : State) (d r : BitVec 4) (a : BitVec 7) (ty : BitVec 3), plain s → tBlock ty = true →
    let c := blockCode ty.toNat
    let code (i : Nat) : Nat :=
      if ty = 1 then elem (s.thr.rv a) 4 i else if i < 16 then elem (s.thr.rv a) 8 i else elem (s.thr.rv (a + 1)) 8 (i - 16)
    let f (i : Nat) : Nat × Flags := f32 (scaleVal ((s.thr.rs r).toNat % 256) (blockVal c (code i)))
    ∃ (t : Thread) (fl : Flags), groupWritten t s.thr (8 * d.toNat) 8 (fun i => (f i).1) ∧ flagsOf fl 32 (fun i => (f i).2) ∧
      exec (.vmxdec d a r ty) s = .next (done (withThr s (flagged t fl)) 4 4)) ∧
  (∀ (s : State) (d : BitVec 5) (r : BitVec 4) (a : BitVec 7), plain s →
    ((s.thr.rs r).toNat % 256 = 0xFF ∨ tableReady s) →
    let f (i : Nat) : Nat × Flags := f32 (scaleVal ((s.thr.rs r).toNat % 256) (entry s (elem (s.thr.rv a) 8 i)))
    s.thr.phase = .run →
    ∃ (t : Thread) (fl : Flags), groupWritten t (if (s.thr.rs r).toNat % 256 = 0xFF then s.thr else sawPad s.thr) (4 * d.toNat) 4 (fun i => (f i).1) ∧
      flagsOf fl 16 (fun i => (f i).2) ∧
      exec (.vdec d a r) s = .next (done (withThr s (flagged t fl)) 4 4)) ∧
  (∀ (s : State) (d : BitVec 7) (a : BitVec 5) (r : BitVec 4), plain s → tableReady s → (s.thr.rs r).toNat % 256 ≠ 0xFF →
    let m := s.thr.csr.fmode.toNat % 8
    let v (i : Nat) : Val := unscale ((s.thr.rs r).toNat % 256) (fmtF.value (groupEl s.thr (4 * a.toNat) i))
    let f (i : Nat) : Nat × Flags × List Nat := tcEncode (entry s) m (s.thr.csr.draw m i) (v i)
    let t := if ∀ i ∈ List.range 16, v i = .nan then s.thr else sawPad s.thr
    ∃ (x : VReg) (fl : Flags), (∀ i, i < 16 → elem x 8 i = (f i).1 % 256) ∧ flagsOf fl 16 (fun i => (f i).2.1) ∧
      exec (.venc d a r) s = .next (done (withThr s (drawn (t.wv d x) m fl)) 4 8)) ∧
  (∀ (s : State) (d : BitVec 7) (a : BitVec 5) (r : BitVec 4), plain s → s.thr.phase = .run →
    (s.thr.rs r).toNat % 256 = 0xFF →
    exec (.venc d a r) s = .next (done (withThr s (drawn (s.thr.wv d 0) (s.thr.csr.fmode.toNat % 8) (fNV ||| fNF))) 4 8))

/-! ## Memory forms -/

/-- The loads. When the answer has come, the register takes its value: bytes and halfwords extended as R154 states, a pair's low
half in the even register, LDVB's element in every element. A load of own scratchpad that the checks of R152 pass takes the
bytes there, lowest first, and has seen all ones; a translated load whose line is in the L1 takes them from that line, and has
seen the SIG kept with it (the model's reading, log entry 131; R149, R150, R154, R156). Nothing else changes but the pc and the
issue cycle. -/
def Obligations.Loads : Prop :=
  ∀ (i : Instr) (m : MemForm) (put : Thread → Nat → Thread), loadOf i = some (m, put) → ∀ s : State, on s m.g →
    (∀ a, answeredBy s a → exec i s = .next (done (withThr s (put s.thr a.val)) 8 1)) ∧
    (atIssue s → m.ok (m.va s.thr) = true →
      (inPad s (m.va s.thr) (m.bytes (m.va s.thr % 2 ^ 16)) → unpoisoned s (m.bytes (m.va s.thr % 2 ^ 16)) →
        exec i s = .next (done (withThr s (put (sawPad s.thr) (padValue s (m.bytes (m.va s.thr % 2 ^ 16))))) 8 1)) ∧
      (∀ (n : Nat) (d : L1Line), m.va s.thr < 2 ^ 56 → m.op s.thr (m.va s.thr) = .read .row n →
        s.l1Hit s.thr.core s.thr.tid.part .row (m.va s.thr / 32 * 32) = some d →
        exec i s = .next (done (withThr s
          (put (sawLine s.thr d) (d.data.toNat / 2 ^ (8 * (m.va s.thr % 32)) % 2 ^ (8 * n)))) 8 1)) ∧
      (∀ (w n : Nat) (d : L1Line), m.va s.thr < 2 ^ 56 → m.op s.thr (m.va s.thr) = .read (.col w) n →
        s.l1Hit s.thr.core s.thr.tid.part (.col w) (m.va s.thr) = some d →
        exec i s = .next (done (withThr s (put (sawLine s.thr d) d.data.toNat)) 8 1)))

/-- The stores. A store to own scratchpad that the checks of R152 pass writes its bytes at the places of its address, lowest
first, and no other byte of SRAM; a store whose answer has come retires. No register but the pc changes (R148, R153, R154,
R156). -/
def Obligations.Stores : Prop :=
  ∀ (i : Instr) (m : MemForm) (data : Thread → Line), storeOf i = some (m, data) → ∀ s : State, on s m.g →
    (∀ a, answeredBy s a → exec i s = .next (done s 8 1)) ∧
    (atIssue s → m.ok (m.va s.thr) = true → inPad s (m.va s.thr) (m.bytes (m.va s.thr % 2 ^ 16)) →
      ∃ (sram : Memory) (pois : List Nat), padWritten s (m.bytes (m.va s.thr % 2 ^ 16)) (data s.thr).toNat sram pois ∧
        exec i s = .next (done { s with sram := sram, sramPois := pois } 8 1))

/-- The atomics. On own scratchpad the bytes become the new value of R155, no other byte of SRAM changes, and the old value goes
into the register, unless the form is .nr; AADDF's flags go into FSTAT, and the thread has seen all ones. When the answer of
another home has come, the register takes its value and FSTAT its flags; VAADD takes flags alone (R155, R157). Nothing else
changes. -/
def Obligations.Atomics : Prop :=
  (∀ (i : Instr) (m : AtomForm), atomOf i = some m → ∀ s : State, on s m.form.g →
    (∀ a, answeredBy s a → exec i s = .next (done (withThr s
      (flagged (if m.returns then m.put s.thr a.val else s.thr) ((a.words.headD 0).setWidth 6))) 8 1)) ∧
    (atIssue s → m.form.ok (m.form.va s.thr) = true → inPad s (m.form.va s.thr) (run m.n (m.form.va s.thr % 2 ^ 16)) →
      unpoisoned s (run m.n (m.form.va s.thr % 2 ^ 16)) →
      let old := padValue s (run m.n (m.form.va s.thr % 2 ^ 16))
      ∃ (sram : Memory) (pois : List Nat),
        padWritten s (run m.n (m.form.va s.thr % 2 ^ 16)) (m.new s.thr old).1 sram pois ∧
        exec i s = .next (done (withThr { s with sram := sram, sramPois := pois }
          (flagged (if m.returns then m.put (sawPad s.thr) old else sawPad s.thr) (m.new s.thr old).2)) 8 1))) ∧
  (∀ (s : State) (d : BitVec 7) (bp : BitVec 3) (bs : BitVec 1) (rm ty : BitVec 3) (h : BitVec 5) (o : BitVec 24) (a : Answer),
    plain s → answeredBy s a →
    exec (.vaadd d bp bs rm ty h o) s = .next (done (withThr s (flagged s.thr ((a.words.headD 0).setWidth 6))) 8 1))

/-- A translated access that misses the L1 goes to the slice that R94 gives its sector, and one of another core's scratchpad
to that core; the thread parks for the answer, and nothing else changes (R150, R152, R153, R162). A write to a slice carries
the signature that a REL or FENCE attached (R294). -/
def Obligations.MemoryRequests : Prop :=
  ∀ (i : Instr) (m : MemForm), memOf i = some m → ∀ s : State, on s m.g → atIssue s → m.ok (m.va s.thr) = true →
    let va := m.va s.thr
    let op := m.op s.thr va
    let req (dst : Nat) (sig : Sig) (install : Bool) : Req :=
      { tid := s.thr.tid, part := s.thr.tid.part, core := s.thr.core, slot := s.thr.slot, dst := dst, va := va, op := op
        sig := sig, install := install }
    (va < 2 ^ 56 →
      (∀ n, op = .read .row n → s.l1Hit s.thr.core s.thr.tid.part .row (va / 32 * 32) = none) →
      (∀ w n, op = .read (.col w) n → s.l1Hit s.thr.core s.thr.tid.part (.col w) va = none) →
      s.fetchRefused (s.sliceOf s.thr.tid.part va) = false →
      exec i s = .next (waiting s (.slice (req (s.sliceOf s.thr.tid.part va)
        (if (loadOf i).isSome then 0 else s.thr.attach) m.install)))) ∧
    (∀ c off, m.pad = true → 2 ^ 64 - 2 ^ 57 ≤ va → c ≠ s.thr.core →
      s.window s.thr.tid.part s.thr.core va (m.bytes (va % 2 ^ 16)) = some (c, off) →
      exec i s = .next (waiting s (.scratch (req c 0 false))))

/-- The first checks of R152, in their order: an address of the unimplemented range traps XLATE; an address that breaks the
form's alignment traps MISALIGN; a window address that breaks a rule of R65 or R66, or any of VAADD's, traps PERM, unless the
size of the scratchpad it names waits for a write of L1CFG, which holds the access (R146). The detail is the address, and
nothing is accessed. -/
def Obligations.AddressChecks : Prop :=
  ∀ (i : Instr) (m : MemForm), memOf i = some m → ∀ s : State, on s m.g → atIssue s → s.thr.tvec ≠ 0 →
    let va := m.va s.thr
    (2 ^ 56 ≤ va → va < 2 ^ 64 - 2 ^ 57 →
      exec i s = .next (entered s 1 0x04 (BitVec.ofNat 64 va) s.thr.pc (repstAt s.thr.rep))) ∧
    ((va < 2 ^ 56 ∨ 2 ^ 64 - 2 ^ 57 ≤ va) → m.ok va = false →
      exec i s = .next (entered s 1 0x03 (BitVec.ofNat 64 va) s.thr.pc (repstAt s.thr.rep))) ∧
    (2 ^ 64 - 2 ^ 57 ≤ va → m.ok va = true →
      (m.pad = false ∨ s.window s.thr.tid.part s.thr.core va (m.bytes (va % 2 ^ 16)) = none ∧
        ∀ c off, s.window s.thr.tid.part s.thr.core va [] = some (c, off) → s.l1cfgWaits s.thr.tid.part c = false) →
      exec i s = .next (entered s 1 0x05 (BitVec.ofNat 64 va) s.thr.pc (repstAt s.thr.rep)))


/-! ## Ordering and tickets -/

/-- ACQ, REL, FENCE, FENCEE, LDA and STR (R293–R295, R297, R298, R301, R302). ACQ applies the seen signature and clears it;
REL attaches the accumulator, with what the thread's earlier releases said (the model's reading, log entry 108), to later
writes and clears it; FENCE does both; FENCEE first acquires the thread's completed commands, once its queues are empty. A
release waits while a ticket fetch of the thread is unserved or an access of it unacknowledged. LDA acquires with its
response's signature, or all ones for a window. STR releases, and its store carries what the release says. A capped scope is
executed at scope 4, and SCOPEDEM counts it (R291). Nothing else changes. What a core drops when it applies a signature:
exactly the partition's L1 lines whose sector matches it (R295). -/
def Obligations.Ordering : Prop :=
  (∀ (s : State) (g : BitVec 4) (sc : BitVec 3), on s g → uncapped s sc.toNat →
    exec (.acq g sc) s = .next (done (if sc = 0 then s else unseen (acquiredAt s sc.toNat s.thr.seen)) 4 1)) ∧
  (∀ (s : State) (g : BitVec 4), on s g → ¬ uncapped s 6 →
    exec (.acq g 6) s = .next (done (unseen (acquired
      (withThr s { s.thr with csr := { s.thr.csr with scopedem := s.thr.csr.scopedem + 1 } }) s.thr.seen)) 4 1)) ∧
  (∀ (s : State) (g : BitVec 4) (sc : BitVec 3), on s g → atIssue s → uncapped s sc.toNat → publishes s sc.toNat →
    exec (.rel g sc) s = .next (done (attached s sc.toNat) 4 1) ∧
    exec (.fence g sc) s = .next (done (if sc = 0 then s else
      unseen (acquiredAt (attached s sc.toNat) sc.toNat s.thr.seen)) 4 1)) ∧
  (∀ (s : State) (g : BitVec 4) (sc : BitVec 3), on s g → atIssue s → (s.thr.unserved ≠ 0 ∨ ¬acknowledged s) →
    exec (.rel g sc) s = .next (parkedAt s .release) ∧ exec (.fence g sc) s = .next (parkedAt s .release)) ∧
  (∀ (s : State) (g : BitVec 4) (sc : BitVec 3), on s g → atIssue s → idleQueues s → uncapped s sc.toNat →
    publishes (ownAcquired s) sc.toNat →
    exec (.fencee g sc) s = .next (done (if sc = 0 then ownAcquired s else
      unseen (acquiredAt (attached (ownAcquired s) sc.toNat) sc.toNat s.thr.seen)) 4 1)) ∧
  (∀ (s : State) (g d : BitVec 4) (bp sc : BitVec 3) (h : BitVec 5) (o : BitVec 24) (a : Answer), on s g → answeredBy s a →
    uncapped s sc.toNat →
    let va := (rowForm g bp o 4 (fun _ _ => .readHome false)).va s.thr
    exec (.lda g d bp sc h o) s = .next (done
      (acquiredAt (withThr s (s.thr.ws d (BitVec.ofNat 32 a.val))) sc.toNat
        (if 2 ^ 64 - 2 ^ 57 ≤ va then BitVec.allOnes 512 else a.sig)) 8 1) ∧
    exec (.str g d bp sc h o) s = .next (done s 8 1)) ∧
  (∀ (s : State) (g d : BitVec 4) (bp sc : BitVec 3) (h : BitVec 5) (o : BitVec 24), on s g → atIssue s → uncapped s sc.toNat →
    let va := (rowForm g bp o 4 (fun _ _ => .readHome false)).va s.thr
    let req (op : MemOp) (sig : Sig) : Body := .slice
      { tid := s.thr.tid, part := s.thr.tid.part, core := s.thr.core, slot := s.thr.slot, dst := s.sliceOf s.thr.tid.part va
        va := va, op := op, sig := sig, install := false }
    va < 2 ^ 56 → va % 4 = 0 → s.fetchRefused (s.sliceOf s.thr.tid.part va) = false →
    exec (.lda g d bp sc h o) s = .next (waiting s (req (.readHome (decide (5 ≤ sc.toNat))) 0)) ∧
    (publishes s sc.toNat → ∃ t, exec (.str g d bp sc h o) s = .next t ∧ t.thr.phase = .parked .answer ∧
      t.net = s.net ++ [{ seq := s.seqno, part := s.thr.tid.part, src := s.thr.core
                          body := req (.write 4 ((s.thr.rs d).setWidth 256) (decide (5 ≤ sc.toNat)))
                            (if sc = 0 then s.thr.attach else said s.thr) }] ∧
      t.thr.expect = some s.seqno ∧ t.thr.acc = (published s sc.toNat).thr.acc ∧
      t.thr.attach = (published s sc.toNat).thr.attach ∧ t.thr.told = (published s sc.toNat).thr.told ∧ t.thr.s = s.thr.s ∧ t.thr.pc = s.thr.pc)) ∧
  (∀ (s : State) (core p : Nat) (g : Sig),
    (∀ l, l ∈ (s.applySig core p g).l1 ↔ l ∈ s.l1 ∧ ¬(l.core = core ∧ l.part = p ∧ sigHit g (sectorNo l.va) = true)) ∧
    (s.applySig core p g).thr = s.thr ∧ (s.applySig core p g).threads = s.threads ∧
    (s.applySig core p g).sectors = s.sectors ∧ (s.applySig core p g).dev = s.dev ∧ (s.applySig core p g).host = s.host ∧
    (s.applySig core p g).sram = s.sram ∧ (s.applySig core p g).slots = s.slots ∧
    (s.applySig core p g).net.map (·.seq) = s.net.map (·.seq))

/-- The LDT forms check their address as R118 states, then issue: the register takes the ticket of R108 with a number free
toward the slice, the ticket is live and charged to a slot of the thread, and the fetch goes to the slice. The TKT forms
(R113, R119): RDMV, RDMS and TKTST ask the ticket's slice and take its answer, TKDROP asks and goes on, RDMW waits for the
deliveries of RDMS. -/
def Obligations.TicketForms : Prop :=
  (∀ (i : Instr) (m : LdtForm), ldtOf i = some m → ∀ s : State, on s m.g →
    let va := m.va s.thr
    let slice := s.sliceOf s.thr.tid.part va
    let trap (c : Nat) : State := entered s 1 c (BitVec.ofNat 64 va) s.thr.pc (repstAt s.thr.rep)
    (s.thr.tvec ≠ 0 → 2 ^ 56 ≤ va → va < 2 ^ 64 - 2 ^ 57 → exec i s = .next (trap 0x04)) ∧
    (s.thr.tvec ≠ 0 → (va < 2 ^ 56 ∨ 2 ^ 64 - 2 ^ 57 ≤ va) → m.ok va = false → exec i s = .next (trap 0x03)) ∧
    (s.thr.tvec ≠ 0 → 2 ^ 64 - 2 ^ 57 ≤ va → m.ok va = true → exec i s = .next (trap 0x05)) ∧
    (∀ q, va < 2 ^ 56 → m.ok va = true → (s.live.filter (fun l => l.tid == s.thr.tid)).length < 4 * s.thr.vregs →
      s.fetchRefused slice = false → s.freeSeq s.thr.core slice = some q →
      let v := ticketOf (s.sliceIx s.thr.tid.part va) s.thr.core q
      let k := s.chargeSlot s.thr
      exec i s = .next (done (withThr
        { sends s (.tkFetch { tid := s.thr.tid, part := s.thr.tid.part, core := s.thr.core, slot := k, slice := slice
                              ticket := v, kind := m.kind, cw := m.cw, va := va }) with
          live := s.live ++ [{ ticket := v, core := s.thr.core, part := s.thr.tid.part, slot := k, tid := s.thr.tid }] }
        { s.thr.ws m.d v with unserved := s.thr.unserved + 1 }) 8 1))) ∧
  (∀ (s : State) (g : BitVec 4) (v : BitVec 6) (a : BitVec 4) (b p : BitVec 3), on s g →
    (∀ r, answeredBy s r →
      exec (.rdmv g v a) s = .next (done (withThr s (s.thr.wvp v r.data)) 4 1) ∧
      exec (.rdms g a b) s = .next (done s 4 1) ∧
      exec (.tktst g p a) s = .next (done (withThr s (setPred s.thr p (decide (r.val = 1)))) 4 1)) ∧
    (atIssue s → redeemable s (s.thr.rs a) →
      exec (.rdmv g v a) s = .next (waiting s (.redeem (redeemOf s (s.thr.rs a) .rdmv))) ∧
      exec (.tktst g p a) s = .next (waiting s (.redeem (redeemOf s (s.thr.rs a) .test))) ∧
      (∀ c off, 2 ^ 64 - 2 ^ 57 ≤ (s.thr.ra b).toNat →
        s.window s.thr.tid.part s.thr.core (s.thr.ra b).toNat [(s.thr.ra b).toNat % 2 ^ 16] = some (c, off) →
        c = s.thr.core → off % 32 = 0 →
        exec (.rdms g a b) s = .next (waiting s (.redeem (redeemOf s (s.thr.rs a)
          (.rdms (s.thr.ra b).toNat (s.scratchSize s.thr.tid.part c - off))))))) ∧
    ((s.thr.rs a).toNat / 2 ^ 21 < shSlices (s.shape s.thr.tid.part) →
      exec (.tkdrop g a) s = .next (done (sends s (.redeem (redeemOf s (s.thr.rs a) .drop))) 4 1)) ∧
    (shSlices (s.shape s.thr.tid.part) ≤ (s.thr.rs a).toNat / 2 ^ 21 → exec (.tkdrop g a) s = .next (done s 4 1)) ∧
    (s.thr.rdmsDue = 0 → exec (.rdmw g) s = .next (done s 4 1)) ∧
    (atIssue s → s.thr.rdmsDue ≠ 0 → exec (.rdmw g) s = .next (parkedAt s .rdmw)))


/-! ## Messages, groups, commands, queues -/

/-- SEND releases at partition scope and its message goes to the class that its target word names, or traps QUEUE with the
reason of R320; WAITM and POLLM take the oldest message and acquire with its signature, or wait, or write 0; MBIND and
MUNBIND bind and unbind a class. Nothing else changes (R317–R320, R298). -/
def Obligations.MessageForms : Prop :=
  (∀ (s : State) (g a : BitVec 4) (b : BitVec 2), on s g →
    let d := s.thr.rs a
    let x := d.toNat / 2 ^ 10 % 2 ^ 10
    let y := d.toNat / 2 ^ 20 % 2 ^ 10
    let sh := s.shape s.thr.tid.part
    let legal := d.toNat / 2 ^ 30 = 0 ∧ d.toNat / 2 ^ 4 % 2 ^ 6 = 0 ∧ x < 32 * shQw sh ∧ y < 40 * shQh sh
    let core := 32 * shQx sh + x + 640 * (40 * shQy sh + y)
    (∀ r, answeredBy s r → exec (.send g a b) s = .next (done s 4 1)) ∧
    (atIssue s → s.thr.tvec ≠ 0 → ¬legal → exec (.send g a b) s = .next (trapped s 0x0A (16 * 5 + d.toNat % 16))) ∧
    (atIssue s → s.thr.tvec ≠ 0 → legal → s.ownsSlot s.thr.tid.part core (d.toNat % 16) = false →
      exec (.send g a b) s = .next (trapped s 0x0A (16 * 4 + d.toNat % 16))) ∧
    (atIssue s → legal → s.ownsSlot s.thr.tid.part core (d.toNat % 16) = true → publishes s 4 →
      exec (.send g a b) s = .next (releasedFor s .send (.msg
        { core := core, cls := d.toNat % 16, msg := fourRegs s.thr b (said s.thr), sender := .thread s.thr.tid s.seqno })))) ∧
  (∀ (s : State) (g : BitVec 4) (d : BitVec 2) (a c : BitVec 4), on s g →
    let k := s.classAt s.thr.core c.toNat
    (boundTo s c.toNat → k.waiting = [] → ∀ m rest, k.queue = m :: rest →
      let u := taken s c.toNat rest m
      exec (.waitm g d c) s = .next (done (withThr u (setFour u.thr d m)) 4 1) ∧
      exec (.pollm g d a c) s = .next (done (withThr u ((setFour u.thr d m).ws a 1)) 4 1)) ∧
    (boundTo s c.toNat → k.queue = [] →
      (atIssue s → exec (.waitm g d c) s = .next (parkedAt s .message)) ∧
      exec (.pollm g d a c) s = .next (done (withThr s (s.thr.ws a 0)) 4 1)) ∧
    (¬boundTo s c.toNat → s.thr.tvec ≠ 0 →
      exec (.waitm g d c) s = .next (trapped s 0x0A (16 * 6 + c.toNat)) ∧
      exec (.pollm g d a c) s = .next (trapped s 0x0A (16 * 6 + c.toNat)))) ∧
  (∀ (s : State) (g a c : BitVec 4), on s g →
    let k := s.classAt s.thr.core c.toNat
    (s.ownsSlot s.thr.tid.part s.thr.core c.toNat = true → s.thr.ownsHere ((s.thr.rs a).toNat % 16) = true →
      (∀ x, k.bound = some x → s.thr.ownsHere x = true) →
      let u := s.setClass s.thr.core c.toNat { k with bound := some ((s.thr.rs a).toNat % 16) }
      exec (.mbind g a c) s =
        .next (done (if k.queue = [] then u else withThr u { u.thr with wake := true }) 4 1)) ∧
    (boundTo s c.toNat → exec (.munbind g c) s =
      .next (done (s.setClass s.thr.core c.toNat { k with bound := none }) 4 1)) ∧
    (¬boundTo s c.toNat → exec (.munbind g c) s = .next (done s 4 1)))

/-- MESSAGE_ARRIVAL: when no earlier message of its sender's core to its class is on the way, a message joins its class behind
the others, or waits at the core while the queue holds four; its thread is told when it is accepted (R317). BARRIER_ARRIVAL of a
BAR, or of a BARX whose reduction agrees, in the phase in progress: it counts, with its signature; when every member has arrived
or is excused, the phase completes: every member that waits is answered with the reduction and the union of signatures, and the
next phase is empty (R322). -/
def Obligations.MeshArrivals : Prop :=
  (∀ (s : State) (n p src : Nat) (m : MsgPkt), s.packet? n = some ⟨n, p, src, .msg m⟩ →
    (∀ k ∈ s.net, k.seq < n → k.src = src → ∀ q, k.body = .msg q → q.core = m.core → q.cls ≠ m.cls) →
    let c := s.classAt m.core m.cls
    ∃ t, exec (.messageArrival n) s = .next t ∧ ⟨n, p, src, .msg m⟩ ∉ t.net ∧ (∀ k ∈ s.net, k.seq ≠ n → k ∈ t.net) ∧
      (c.queue.length < 4 → c.waiting = [] →
        (t.classAt m.core m.cls).queue = c.queue ++ [m.msg] ∧ (t.classAt m.core m.cls).waiting = [] ∧
        (∀ tid q, m.sender = .thread tid q → ∃ k ∈ t.net, k.body = .wake tid q {} ∧ k.part = p)) ∧
      ((4 ≤ c.queue.length ∨ c.waiting ≠ []) →
        (t.classAt m.core m.cls).queue = c.queue ∧ (t.classAt m.core m.cls).waiting = c.waiting ++ [m])) ∧
  (∀ (s : State) (n p src : Nat) (a : Arrive) (b : Bar), s.packet? n = some ⟨n, p, src, .arrive a⟩ →
    (∀ k ∈ s.net, k.seq < n → ∀ q, k.body = .arrive q → q.tid = a.tid → q.gid ≠ a.gid) →
    s.bar? a.tid.part a.tid.lid a.gid = some b → b.early = [] → a.phase ≤ b.c →
    (a.kind = .bar ∨ ∃ r v, a.kind = .barx r v ∧ (b.red = none ∨ b.red = some r)) →
    let here := b.arrived.length + 1 + (b.excused.filter (fun t => !(b.arrived ++ [a.tid]).contains t)).length
    let acc := match a.kind with
      | .barx r v => redCombine r (if b.red = none then redIdentity r else b.acc) v
      | _ => b.acc
    ∃ t b', exec (.barrierArrival n) s = .next t ∧ b' ∈ t.bars ∧ b'.part = b.part ∧ b'.lid = b.lid ∧ b'.gid = b.gid ∧
      (here < b.count → b'.c = b.c ∧ b'.arrived = b.arrived ++ [a.tid] ∧ b'.sig = b.sig ||| a.sig ∧ b'.acc = acc ∧
        t.net = (s.dropPacket n).net) ∧
      (b.count ≤ here → b'.c = b.c + 1 ∧ b'.arrived = [] ∧ b'.sigs = b.sigs ++ [b.sig ||| a.sig] ∧
        ∀ w ∈ b.waiting ++ [a], (w.kind = .bar ∨ ∃ r v, w.kind = .barx r v) → ∀ q, w.seq = some q →
          ∃ k ∈ t.net, k.seq = q ∧ k.body = .wake w.tid q { val := acc.toNat, sig := b.sig ||| a.sig }))

/-- The GRP forms. An unset group traps GROUP. BAR and BARX publish, arrive at the group's home and wait; when their phase
has completed they acquire its signature and BARX's register takes the reduction; a second reduction of a phase is refused
with GROUP. GARV waits only while its phase is above the completed-phase count, and its register takes the phase. GWT for a
completed phase acquires and goes on at once; another asks the home, waits, and acquires (R322, R323). Nothing else
changes. -/
def Obligations.GroupForms : Prop :=
  ∀ (s : State) (g d a : BitVec 4) (m : BitVec 2) (r : BitVec 3), on s g →
    (groupOf s.thr m = 0xFFFF → s.thr.tvec ≠ 0 →
      exec (.bar g m) s = .next (trapped s 0x14 (16 + m.toNat)) ∧
      exec (.barx g d a m r) s = .next (trapped s 0x14 (16 + m.toNat)) ∧
      exec (.garv g d m) s = .next (trapped s 0x14 (16 + m.toNat)) ∧
      exec (.gwt g a m) s = .next (trapped s 0x14 (16 + m.toNat))) ∧
    (groupOf s.thr m ≠ 0xFFFF → ∀ x, answeredBy s x →
      exec (.bar g m) s = .next (done (barred s m x.sig) 4 1) ∧
      exec (.barx g d a m r) s =
        .next (done (withThr (barred s m x.sig) ((barred s m x.sig).thr.ws d (BitVec.ofNat 32 x.val))) 4 1) ∧
      ((s.thr.stage.sent = true ∨ countOf s m < phaseOf s.thr m) → exec (.garv g d m) s = .next (done (withThr s
        ((setPhase s.thr m (phaseOf s.thr m + 1)).ws d (BitVec.ofNat 32 (phaseOf s.thr m)))) 4 1)) ∧
      exec (.gwt g a m) s = .next (done (caughtUp s m x.val x.sig) 4 1)) ∧
    (groupOf s.thr m ≠ 0xFFFF → s.thr.tvec ≠ 0 → ∀ x c z, s.thr.answer = some x → x.verdict = .trap c z →
      exec (.barx g d a m r) s = .next (trapped s 0x14 (16 * 2 + m.toNat))) ∧
    (groupOf s.thr m ≠ 0xFFFF → atIssue s → publishes s 4 →
      exec (.bar g m) s = .next (releasedFor s .barrier (.arrive (arrivalOf s m .bar (said s.thr) true))) ∧
      exec (.barx g d a m r) s =
        .next (releasedFor s .barrier (.arrive (arrivalOf s m (.barx r.toNat (s.thr.rs a)) (said s.thr) true))) ∧
      (countOf s m < phaseOf s.thr m → exec (.garv g d m) s =
        .next (releasedFor s .barrier (.arrive (arrivalOf s m .garv (said s.thr) true)))) ∧
      (phaseOf s.thr m ≤ countOf s m → exec (.garv g d m) s = .next (done (withThr
        (sends s (.arrive (arrivalOf s m .garv (said s.thr) false)))
        ((setPhase (spoken s.thr) m (phaseOf s.thr m + 1)).ws d (BitVec.ofNat 32 (phaseOf s.thr m)))) 4 1))) ∧
    (groupOf s.thr m ≠ 0xFFFF → atIssue s →
      let at_ := s.bar? s.thr.tid.part s.thr.tid.lid (groupOf s.thr m).toNat
      (∀ b, at_ = some b → pastPhase b (s.thr.rs a).toNat →
        exec (.gwt g a m) s = .next (done (caughtUp s m b.c (unionFrom b (ackOf s.thr m))) 4 1)) ∧
      ((∀ b, at_ = some b → ¬pastPhase b (s.thr.rs a).toNat) →
        exec (.gwt g a m) s = .next (waitingFor s .barrier (.arrive { arrivalOf s m (.gwt (ackOf s.thr m)) 0 true with
          phase := (s.thr.rs a).toNat }))))


/-- ENQC and ENQM append the command of their pair to the copy or the matrix queue of the thread's slot, with the captured
CSRs, and return its transfer id; the .r forms release at the command's scope first, what the release says goes with the
command into its completion's signature (the model's reading, log entries 20, 27 and 108), and SCOPE 7 traps; a full queue
parks.
CWAIT, MWAIT and CSTAT wait for a queued command, or acquire its completion and return its status; of a command that has left
the history the completion is acquired with those of all that left it (R143, R267, R298). -/
def Obligations.CommandForms : Prop :=
  (∀ (s : State) (g d : BitVec 4) (v : BitVec 6), on s g →
    let w := s.thr.rvp v
    let sc := w.toNat / 2 ^ 12 % 8
    let len (m : Bool) : Nat := (s.queueAt s.thr.core s.thr.slot m).cmds.length
    (len false < 2 → exec (.enqc g d v) s = .next (done (enqueued s d w false s.thr.stage.sig) 4 1)) ∧
    (len true < 2 → exec (.enqm g d v) s = .next (done (enqueued s d w true s.thr.stage.sig) 4 1)) ∧
    (atIssue s → 2 ≤ len false → exec (.enqc g d v) s = .next (parkedAt s .queueFull)) ∧
    (atIssue s → 2 ≤ len true → exec (.enqm g d v) s = .next (parkedAt s .queueFull)) ∧
    (s.thr.tvec ≠ 0 → sc = 7 →
      exec (.enqcR g d v) s = .next (trapped s 0x0B (w.toNat % 2 ^ 32)) ∧
      exec (.enqmR g d v) s = .next (trapped s 0x0B (w.toNat % 2 ^ 32))) ∧
    (atIssue s → sc < 7 → uncapped s sc → publishes s sc →
      let g0 : Sig := if sc = 0 then 0 else said s.thr
      (len false < 2 → exec (.enqcR g d v) s = .next (done (enqueued (published s sc) d w false g0) 4 1)) ∧
      (len true < 2 → exec (.enqmR g d v) s = .next (done (enqueued (published s sc) d w true g0) 4 1)))) ∧
  (∀ (s : State) (g d a : BitVec 4), on s g →
    let id : Half := (s.thr.rs a).setWidth 16
    let q (m : Bool) : Queue := s.queueAt s.thr.core s.thr.slot m
    let idle (m : Bool) : Prop := ∀ c ∈ (q m).cmds, c.id ≠ id
    (atIssue s → ¬idle false → exec (.cwait g a) s = .next (parkedAt s .command)) ∧
    (atIssue s → ¬idle true → exec (.mwait g d a) s = .next (parkedAt s .command)) ∧
    (idle false → (q false).done? id = none → uncapped s (q false).pastSc →
      exec (.cwait g a) s = .next (done (acquiredAt s (Nat.max 1 (q false).pastSc) (q false).past) 4 1) ∧
      exec (.cstat g d a) s = .next (done (withThr s (s.thr.ws d 0xC0000000)) 4 1)) ∧
    (idle true → (q true).done? id = none → uncapped s (q true).pastSc →
      let u := acquiredAt s (Nat.max 1 (q true).pastSc) (q true).past
      exec (.mwait g d a) s = .next (done (withThr u (u.thr.ws d 0xC0000000)) 4 1)) ∧
    (∀ e, idle false → (q false).done? id = some e → uncapped s e.sc →
      let u := acquiredAt s (Nat.max 1 e.sc) e.sig
      exec (.cwait g a) s = .next (done u 4 1) ∧
      exec (.cstat g d a) s = .next (done (if e.release then withThr u (u.thr.ws d e.status)
        else withThr s (s.thr.ws d e.status)) 4 1)) ∧
    (∀ e, idle true → (q true).done? id = some e → uncapped s e.sc →
      let u := acquiredAt s (Nat.max 1 e.sc) e.sig
      exec (.mwait g d a) s = .next (done (withThr u (u.thr.ws d e.status)) 4 1)) ∧
    (∀ c, (q false).cmds.find? (fun c => c.id == id) = some c →
      exec (.cstat g d a) s = .next (done (withThr s (s.thr.ws d
        (if c.state = .queued then 0 else BitVec.ofNat 32 (2 ^ 30 + c.flags.toNat * 2 ^ 24)))) 4 1)))

/-- The QUE forms. A push into an owned queue with a live holder and room appends its words and sets the holder's wake bit,
and waits without room; a pop takes the oldest words, and QPOP and QPOPV wait for them, where QTRY says whether there was
one. A queue that the partition does not own, one without a live holder, and a pop from another thread's queue trap QUEUE
(R158, R159). -/
def Obligations.QueueForms : Prop :=
  (∀ (s : State) (g d q : BitVec 4) (v : BitVec 7), on s g → s.thr.answer = none →
    let words (vec : Bool) : List Word :=
      if vec then (List.range 4).map (fun i => BitVec.ofNat 32 (elem (s.thr.rv v) 32 i)) else [s.thr.rs d]
    let form (vec : Bool) : Instr := if vec then .qpushv g v q else .qpush g d q
    let used := (s.slotAt s.thr.core q.toNat).inq.length
    ∀ vec,
      (s.ownsSlot s.thr.tid.part s.thr.core q.toNat = false → s.thr.tvec ≠ 0 →
        exec (form vec) s = .next (trapped s 0x0A (16 + q.toNat))) ∧
      (s.ownsSlot s.thr.tid.part s.thr.core q.toNat = true → s.liveIn s.thr.tid.part s.thr.core q.toNat = none →
        s.thr.phase = .run → s.thr.tvec ≠ 0 → exec (form vec) s = .next (trapped s 0x0A (16 * 2 + q.toNat))) ∧
      (s.ownsSlot s.thr.tid.part s.thr.core q.toNat = true → s.liveIn s.thr.tid.part s.thr.core q.toNat ≠ none →
        (used + (words vec).length ≤ 8 → s.pushBehind q.toNat = false →
          exec (form vec) s = .next (done (pushed s q.toNat (words vec)) 4 1)) ∧
        (atIssue s → 8 < used + (words vec).length → exec (form vec) s = .next (parkedAt s (.push q.toNat))))) ∧
  (∀ (s : State) (g d q : BitVec 4) (p : BitVec 3) (v : BitVec 7), on s g →
    let have_ := (s.slotAt s.thr.core q.toNat).inq
    (s.thr.ownsHere q.toNat = false → s.thr.tvec ≠ 0 →
      exec (.qpop g d q) s = .next (trapped s 0x0A (16 + q.toNat)) ∧
      exec (.qtry g d p q) s = .next (trapped s 0x0A (16 + q.toNat)) ∧
      exec (.qpopv g v q) s = .next (trapped s 0x0A (16 + q.toNat))) ∧
    (s.thr.ownsHere q.toNat = true →
      (∀ x rest, have_ = x :: rest →
        exec (.qpop g d q) s = .next (done (withThr (popped s q.toNat 1) (s.thr.ws d x)) 4 1) ∧
        exec (.qtry g d p q) s = .next (done (withThr (popped s q.toNat 1) (setPred (s.thr.ws d x) p true)) 4 1)) ∧
      (have_ = [] →
        (atIssue s → exec (.qpop g d q) s = .next (parkedAt s (.pop q.toNat))) ∧
        exec (.qtry g d p q) s = .next (done (withThr s (setPred s.thr p false)) 4 1)) ∧
      (∀ x y z w rest, have_ = x :: y :: z :: w :: rest →
        exec (.qpopv g v q) s = .next (done (withThr (popped s q.toNat 4) (s.thr.wv v (w ++ z ++ y ++ x))) 4 1)) ∧
      (have_.length < 4 → atIssue s → exec (.qpopv g v q) s = .next (parkedAt s (.pop q.toNat)))))

/-! ## Units, launches, migration -/

/-- The TJ forms: a block off a 64-byte place traps MISALIGN and one past the scratchpad PERM; a block that can be read goes,
after a release, to the comb unit of its store's die as an operation with what the release said (the model's reading, log entries
27 and 108), and the thread waits; store ids from 64 return NOSTORE.
The answer's RO words go into the block, the thread acquires, and sD takes the status (R277, R280, R281). -/
def Obligations.TjForms : Prop :=
  ∀ (i : Instr) (form : Nat) (g d a b : BitVec 4), tjOf i = some (form, g, d, a, b) → ∀ s : State, on s g →
    let o := (s.thr.rs a).toNat
    let sid := (s.thr.rs b).toNat
    (∀ r, answeredBy s r → ∀ ws : List (Nat × Word), (∀ x ∈ ws, x.1 < 16) →
      r.words = ws.flatMap (fun x => [BitVec.ofNat 32 x.1, x.2]) →
      (ws = [] ∨ s.l1cfgWaits s.thr.tid.part s.thr.core = false) →
      let u := acquired (blockWritten s o ws) r.sig
      exec i s = .next (done (withThr u (u.thr.ws d (BitVec.ofNat 32 r.val))) 4 1)) ∧
    (atIssue s → s.thr.tvec ≠ 0 → o % 64 ≠ 0 → exec i s = .next (trapped s 0x03 (2 ^ 64 - 2 ^ 56 + o))) ∧
    (atIssue s → s.thr.tvec ≠ 0 → o % 64 = 0 → s.l1cfgWaits s.thr.tid.part s.thr.core = false →
      s.scratchSize s.thr.tid.part s.thr.core < o + 64 →
      exec i s = .next (trapped s 0x05 (2 ^ 64 - 2 ^ 56 + o))) ∧
    (atIssue s → o % 64 = 0 → inPad s (2 ^ 64 - 2 ^ 56 + o) (run 64 o) → o < 2 ^ 16 → unpoisoned s (run 64 o) → publishes s 4 →
      (form = 1 → padValue s (run 64 o) / 2 ^ 40 % 2 = 0) →
      (64 ≤ sid → exec i s = .next (done (withThr (acquired (published s 4) 0)
        ((acquired (published s 4) 0).thr.ws d 3)) 4 1)) ∧
      (sid < 64 → ∃ t op, exec i s = .next t ∧ awaits s t ∧ t.thr.acc = 0 ∧ t.thr.attach = 0 ∧ t.thr.told = said s.thr ∧
        t.comb = s.comb ++ [op] ∧ op.sig = said s.thr ∧ op.arrived = false ∧ op.form = form ∧ op.sid = sid ∧ op.die = sid / 4 ∧
        op.block = BitVec.ofNat 512 (padValue s (run 64 o)) ∧ op.tid = s.thr.tid ∧ op.seq = s.seqno ∧
        op.core = s.thr.core ∧ op.linearised = false ∧ op.finished = false))

/-- The AX forms: an illegal length, stack or selector traps STACK with reason 4; a push or pop waits while the copy queue is
full; AXPUSH releases; the operation goes to the sluice engines and the thread waits; sD takes the answer, or the thread
traps with the answer's cause (R74). -/
def Obligations.AxForms : Prop :=
  (∀ (s : State) (g d : BitVec 4) (a : BitVec 3) (b c : BitVec 4) (r : Answer), on s g → s.thr.answer = some r →
    (r.verdict = .ok →
      let t := done (withThr s (s.thr.ws d (BitVec.ofNat 32 r.val))) 4 1
      exec (.axpush g d a b) s = .next t ∧ exec (.axpop g d a b) s = .next t ∧ exec (.axdepth g d c b) s = .next t ∧
      exec (.axdrop g d c b) s = .next t) ∧
    (∀ cause va, r.verdict = .trap cause va → cause < 256 → s.thr.tvec ≠ 0 →
      exec (.axpush g d a b) s = .next (trapped s cause va) ∧ exec (.axpop g d a b) s = .next (trapped s cause va) ∧
      exec (.axdepth g d c b) s = .next (trapped s cause va) ∧ exec (.axdrop g d c b) s = .next (trapped s cause va))) ∧
  (∀ (s : State) (g d : BitVec 4) (a : BitVec 3) (b : BitVec 4), on s g → atIssue s →
    let w := s.thr.rs b
    let st := w.toNat / 2 ^ 28
    let len := w.toNat % 2 ^ 27
    let legal := len ≠ 0 ∧ len % 256 = 0 ∧ len ≤ 2 ^ 26
    let room := (s.queueAt s.thr.core s.thr.slot false).cmds.length < 2
    (s.thr.tvec ≠ 0 → (¬legal ∨ w.toNat / 2 ^ 27 % 2 = 1) → exec (.axpush g d a b) s = .next (trapped s 0x12 (4 * 256 + st))) ∧
    (s.thr.tvec ≠ 0 → ¬legal → exec (.axpop g d a b) s = .next (trapped s 0x12 (4 * 256 + st))) ∧
    (legal → ¬room →
      (w.toNat / 2 ^ 27 % 2 = 0 → exec (.axpush g d a b) s = .next (parkedAt s .queueFull)) ∧
      exec (.axpop g d a b) s = .next (parkedAt s .queueFull)) ∧
    (legal → room → w.toNat / 2 ^ 27 % 2 = 0 → publishes s 4 → ∃ t op, exec (.axpush g d a b) s = .next t ∧ awaits s t ∧
      t.thr.acc = 0 ∧ (∀ q, q ∈ t.stackOps ↔ q = op ∨ q ∈ s.stackOps) ∧ op.form = 0 ∧ op.stack = st ∧ op.arg = len ∧
      op.addr = (s.thr.ra a).toNat ∧ op.sig = said s.thr ∧ op.tid = s.thr.tid ∧ op.seq = s.seqno ∧ op.core = s.thr.core) ∧
    (legal → room → ∃ t op, exec (.axpop g d a b) s = .next t ∧ awaits s t ∧
      (∀ q, q ∈ t.stackOps ↔ q = op ∨ q ∈ s.stackOps) ∧ op.form = 1 ∧ op.stack = st ∧ op.arg = len ∧
      (op.w = true ↔ w.toNat / 2 ^ 27 % 2 = 1) ∧ op.addr = (s.thr.ra a).toNat ∧ op.tid = s.thr.tid ∧ op.seq = s.seqno)) ∧
  (∀ (s : State) (g d a b : BitVec 4), on s g → atIssue s →
    let st := (s.thr.rs a).toNat
    let arg := (s.thr.rs b).toNat
    (s.thr.tvec ≠ 0 → (15 < st ∨ 3 < arg) → exec (.axdepth g d a b) s = .next (trapped s 0x12 (4 * 256 + st % 16))) ∧
    (s.thr.tvec ≠ 0 → 15 < st → exec (.axdrop g d a b) s = .next (trapped s 0x12 (4 * 256 + st % 16))) ∧
    (st ≤ 15 → arg ≤ 3 → ∃ t op, exec (.axdepth g d a b) s = .next t ∧ awaits s t ∧
      (∀ q, q ∈ t.stackOps ↔ q = op ∨ q ∈ s.stackOps) ∧ op.form = 2 ∧ op.stack = st ∧ op.arg = arg ∧ op.seq = s.seqno) ∧
    (st ≤ 15 → ∃ t op, exec (.axdrop g d a b) s = .next t ∧ awaits s t ∧
      (∀ q, q ∈ t.stackOps ↔ q = op ∨ q ∈ s.stackOps) ∧ op.form = 3 ∧ op.stack = st ∧ op.arg = arg ∧ op.seq = s.seqno))

/-- LNCH reads a 128-byte descriptor of own scratchpad, releases, and traps LAUNCH with the number of the failing check, or
the launch enters its ring's waiting set and sD takes its id (R191, R308, R309). -/
def Obligations.LaunchForm : Prop :=
  ∀ (s : State) (g d a : BitVec 4) (r : BitVec 2), on s g → atIssue s →
    let o := (s.thr.rs a).toNat
    let p := s.thr.tid.part
    let desc := BitVec.ofNat 1024 (padValue s (run 128 o))
    let check := s.descCheck p desc s.thr.prv s.thr.lperm
    (s.thr.tvec ≠ 0 → o % 128 ≠ 0 → exec (.lnch g d a r) s = .next (trapped s 0x03 (2 ^ 64 - 2 ^ 56 + o))) ∧
    (s.thr.tvec ≠ 0 → o % 128 = 0 → s.l1cfgWaits p s.thr.core = false → s.scratchSize p s.thr.core < o + 128 →
      exec (.lnch g d a r) s = .next (trapped s 0x05 (2 ^ 64 - 2 ^ 56 + o))) ∧
    (o % 128 = 0 → o < 2 ^ 16 → inPad s (2 ^ 64 - 2 ^ 56 + o) (run 128 o) → unpoisoned s (run 128 o) → publishes s 4 →
      (check ≠ 0 → s.thr.tvec ≠ 0 → exec (.lnch g d a r) s =
        .next (trapped (published s 4) 0x16 check)) ∧
      (check = 0 → s.ringFull p r.toNat = false → ∃ t l, exec (.lnch g d a r) s = .next t ∧ l ∈ t.launches ∧
        l.part = p ∧ l.lid = (s.part p).nextLid ∧ l.desc = desc ∧ l.ring = r.toNat ∧ l.level = r.toNat ∧
        t.thr = { (done (published s 4) 4 1).thr.ws d (BitVec.ofNat 32 (s.part p).nextLid) with issued := s.thr.issued + 1 }))

/-- GO to the own core retires at once, to no core of the partition traps PERM, and traps MIGRATE when no visitor slot can
take the thread; else the thread fences at partition scope and its travel context leaves, with the pc, the predicate word
and s0–s9 in its bits (R167). GOHOME at home retires at once. On arrival the thread takes its place: at home with what its
home slot kept, single-stepped when both slots say so; elsewhere with the context and dispatch values, behind those that
arrived before it, or it waits there from then on (R166, R324, R325, R345; the step of a GOHOME is the model's reading, log
entry 109). -/
def Obligations.MigrationForms : Prop :=
  (∀ (s : State) (g : BitVec 4) (a : BitVec 3), on s g →
    let va := (s.thr.ra a).toNat
    let p := s.thr.tid.part
    let target := if 2 ^ 64 - 2 ^ 57 ≤ va then s.window p s.thr.core va [va % 2 ^ 16] else none
    (s.thr.tvec ≠ 0 → target = none → exec (.go g a) s = .next (trapped s 0x05 va)) ∧
    (∀ off, target = some (s.thr.core, off) → exec (.go g a) s = .next (done s 4 1)) ∧
    (∀ c off, target = some (c, off) → c ≠ s.thr.core →
      (s.thr.tvec ≠ 0 → (s.takesVisitors p s.thr.step = false ∨ (s.thr.fix = true ∧ (s.clock (quadOf c)).pinned = false)) →
        exec (.go g a) s = .next (trapped s 0x15 va)) ∧
      (atIssue s → publishes s 4 → s.thr.home = none → s.takesVisitors p s.thr.step = true →
        (s.thr.fix = true → (s.clock (quadOf c)).pinned = true) → ∃ t, exec (.go g a) s = .next t ∧
          t.thr.travelling = true ∧ t.thr.phase = .parked .visitor ∧ t.thr.pc = s.thr.pc + 4 ∧ t.thr.acc = s.thr.seen ∧
          t.thr.attach = said s.thr ∧ t.thr.told = said s.thr ∧ t.thr.seen = 0 ∧ t.thr.s = s.thr.s ∧ t.thr.v = s.thr.v ∧
          (∃ h, t.thr.home = some h ∧ h.core = s.thr.core ∧ h.slot = s.thr.slot ∧ h.v = s.thr.v ∧ h.k = s.thr.k) ∧
          ∃ k ∈ t.net, k.seq = s.seqno ∧ k.part = p ∧ ∃ x, carries s.thr (s.thr.pc + 4) x ∧
            k.body = .travel { tid := s.thr.tid, core := c, back := false, ctx := x }))) ∧
  (∀ (s : State) (g : BitVec 4), on s g → s.thr.home = none → exec (.gohome g) s = .next (done s 4 1)) ∧
  (∀ (s : State) (g : BitVec 4) (h : Home), on s g → atIssue s → s.thr.home = some h → publishes s 4 → s.thr.rdmsDue = 0 →
    (∀ m, (s.queueAt s.thr.core s.thr.slot m).cmds = [] ∧ (s.queueAt s.thr.core s.thr.slot m).posting = false) →
    ∃ t, exec (.gohome g) s = .next t ∧ t.thr.travelling = true ∧ t.thr.pc = s.thr.pc + 4 ∧ t.thr.home = some h ∧
      t.thr.s = s.thr.s ∧
      ∃ k ∈ t.net, k.seq = s.seqno ∧ ∃ x, carries s.thr (s.thr.pc + 4) x ∧
        k.body = .travel { tid := s.thr.tid, core := h.core, back := true, ctx := x }) ∧
  (∀ (s : State) (n p src : Nat) (v : Travel) (u : Thread), s.packet? n = some ⟨n, p, src, .travel v⟩ → s.partRuns p = true →
    s.thread? v.tid = some u →
    (v.back = true → ∀ h, u.home = some h →
      (¬(u.csr.dbgctl = 1 ∧ h.csr.dbgctl = 1) → ∃ t w, exec (.migrationArrival n) s = .next t ∧ w ∈ t.allThreads ∧
        w.tid = v.tid ∧ w.core = h.core ∧ w.slot = h.slot ∧ w.home = none ∧ w.travelling = false ∧ w.phase = .run ∧
        w.acc = BitVec.allOnes 512 ∧ w.v = h.v ∧ w.csr = h.csr ∧ unpacked w v.ctx (fun r => (h.s)[r.toNat])) ∧
      (u.csr.dbgctl = 1 → h.csr.dbgctl = 1 → h.csr.tvecl ≠ 0 ∨ h.csr.tvech ≠ 0 → ∃ t w, exec (.migrationArrival n) s = .next t ∧
        w ∈ t.allThreads ∧ w.tid = v.tid ∧ w.core = h.core ∧ w.csr.ecause = 0x10 ∧ w.csr.dbgctl = 0 ∧ w.entered = true ∧
        (w.csr.epch ++ w.csr.epcl).toNat = v.ctx.toNat / 2 ^ 336 % 2 ^ 64 ∧
        w.csr.eaddrh ++ w.csr.eaddrl = BitVec.ofNat 64 (v.ctx.toNat / 2 ^ 336) - 4)) ∧
    (v.back = false →
      ((∀ k ∈ s.net, ∀ x, k.body = .travel x → k.part = p → x.core = v.core → x.back = false → ∀ i, x.arrived = some i →
          ∃ j, v.arrived = some j ∧ j ≤ i) → ∀ j, s.freeVisitorSet p v.core u.step = some j →
        ∃ t w, exec (.migrationArrival n) s = .next t ∧ w ∈ t.allThreads ∧ w.tid = v.tid ∧ w.core = v.core ∧ w.slot = j ∧
          w.travelling = false ∧ w.phase = .run ∧ w.acc = BitVec.allOnes 512 ∧ w.home = u.home ∧
          unpacked w v.ctx (fun _ => 0) ∧ ∀ r : BitVec 7, w.rv r = 0) ∧
      (v.arrived = none → s.freeVisitorSet p v.core u.step = none → ∃ t, exec (.migrationArrival n) s = .next t ∧
        (∃ k ∈ t.net, k.seq = n ∧ k.body = .travel { v with arrived := some s.seqno }) ∧ t.seqno = s.seqno + 1 ∧
        t.thr = s.thr ∧ t.threads = s.threads)))


/-! ## Events of the tickets -/

/-- A ticket fetch arrives (R111, R115): it is accepted as a PENDING entry that holds its units when they and an entry are
free, a tombstone of its value going; without room for its units it is refused, and the core keeps it to send again. A
retire notice clears the ticket's charge. An entry PENDING or READY for 2^20 fabric cycles, each 28 of the units of which a tick
has 224, expires and is told to its core while its partition runs; it comes last in its cycle (log entry 132). -/
def Obligations.TicketEvents : Prop :=
  (∀ (s : State) (n : Nat) (r : TkReq), arrives s n (.tkFetch r) →
    let rest := s.tickets.filter (fun t => !isTomb r.slice r.ticket t)
    let used := (rest.filter (fun t => t.slice == r.slice)).foldl (fun u t => u + t.units) 0
    (∀ t ∈ s.tickets, isTomb r.slice r.ticket t = true → t.discard = false) →
    (used + kindUnits r.kind ≤ 2048 → (rest.filter (fun t => t.slice == r.slice)).length < 2048 →
      exec (.ticketFetch n) s = .next { (without s n).meet { home := r.slice, place := sectorNo r.va, rank := readRank } with
        tickets := rest ++
        [{ n := n, slice := r.slice, val := r.ticket, part := r.part, lid := r.tid.lid, core := r.core, slot := r.slot
           tid := r.tid, kind := r.kind, cw := r.cw, va := r.va, state := .pending, units := kindUnits r.kind
           since := s.now }] }) ∧
    (2048 < used + kindUnits r.kind →
      exec (.ticketFetch n) s = .next { s with net := s.net.map (fun k =>
        if k.seq == n then { k with body := .tkFetch { r with refused := true } } else k) })) ∧
  (∀ (s : State) (n : Nat) (v : Word) (p src : Nat), s.packet? n = some { seq := n, part := p, src := src, body := .retire v } →
    exec (.retireNotice n) s = .next { without s n with live := s.live.filter (fun l => !(l.ticket == v && l.part == p)) }) ∧
  (∀ (s : State) (n : Nat) (t : Ticket), s.tickets.find? (fun t => t.n == n) = some t →
    (t.state = .pending ∨ t.state = .ready) → (s.part t.part).state = .running → 2 ^ 20 ≤ s.now / 28 - t.since / 28 →
    exec (.ticketReclaim n) s = .next ((buried s t .expired (t.discard || t.state == .pending)).meet
      { home := t.slice, place := 2 ^ 46 + t.val.toNat, rank := readRank + 1 }))

/-- What a ticket's fetch and its redemption give (R112–R115, R119). A fetch whose reads deliver its lines is acknowledged,
and its entry is READY with them; a page answer of failure leaves it READY with the mark of XLATE and without units. A
redemption meets the first outcome of R113 in its order: none claims a ticket twice, and a refused one leaves the ticket as
it was, but that a failed fetch and a poisoned one are consumed. A claimed entry keeps its units while its bytes are on the
way, and is SPENT when they have reached the core. TKDROP makes a PENDING or READY entry SPENT. RDMS's bytes reach the
redeemer's scratchpad, and nothing else there changes. In one fabric cycle the redemptions of a ticket come by die, y, x and slot
(R114; how the model keeps that order: log entry 132). -/
def Obligations.Redemptions : Prop :=
  (∀ (s : State) (n : Nat) (t : Ticket), s.tickets.find? (fun t => t.n == n) = some t → t.state = .pending →
    t.discard = false → t.claim = none → s.slicesRun t.part = true →
    (∀ page acc, t.pf = .failed page acc → ∃ u, exec (.ticketFetchEnd n) s = .next u ∧
      u.tickets = (setTicket s t { t with state := .ready, pf := .clear, fail := some 0x04, units := 0 }).tickets ∧
      u.net = s.net ++ [{ seq := s.seqno, part := t.part, src := sliceCore t.slice, body := .served t.tid }]) ∧
    (∀ s1 ls pois, t.pf = .clear → s.held = [] → s.readLines t t.reads [] false = .data s1 ls pois →
      ∃ u, exec (.ticketFetchEnd n) s = .next u ∧
        u.tickets = (setTicket s1 t { t with state := .ready, pf := .clear, data := ls, pois := pois }).tickets ∧
        u.net = s1.net ++ [{ seq := s1.seqno, part := t.part, src := sliceCore t.slice, body := .served t.tid }])) ∧
  (∀ (s : State) (n : Nat) (r : Redeem), arrives s n (.redeem r) →
    let m : Met := { home := r.slice, place := 2 ^ 46 + r.ticket.toNat, rank := slotRank r.core r.slot }
    s.overtaken m = true → exec (.redemption n) s = .next s) ∧
  (∀ (s : State) (n : Nat) (r : Redeem), arrives s n (.redeem r) →
    let m : Met := { home := r.slice, place := 2 ^ 46 + r.ticket.toNat, rank := slotRank r.core r.slot }
    s.overtaken m = false →
    let s0 := (without s n).meet m
    let z := r.ticket.toNat
    let answer (u : State) (a : Answer) : State := replies u n r.part (sliceCore r.slice) (.wake r.tid n a)
    let refuse (u : State) (c a : Nat) : State := answer u { verdict := .trap c a }
    let at_ := s.tickets.find? (fun t => t.slice == r.slice && t.val == r.ticket)
    (at_ = none → exec (.redemption n) s = .next (if r.kind = .drop then s0 else refuse s0 0x08 z)) ∧
    (∀ t, at_ = some t →
      (r.kind = .drop → exec (.redemption n) s = .next
        (if t.part = r.part ∧ (t.state = .pending ∨ t.state = .ready)
          then buried s0 t .spent (t.discard || t.state == .pending) else s0)) ∧
      (r.kind ≠ .drop →
        (t.part ≠ r.part → exec (.redemption n) s = .next (refuse s0 0x09 z)) ∧
        (t.part = r.part → t.state = .expired → exec (.redemption n) s = .next (refuse s0 0x08 z)) ∧
        (t.part = r.part → (t.state = .spent ∨ t.state = .claimed) → exec (.redemption n) s = .next (refuse s0 0x07 z)) ∧
        (t.part = r.part → (t.state = .pending ∨ t.state = .ready) →
          (r.kind = .test → exec (.redemption n) s =
            .next (answer s0 { val := if t.state = .ready then 1 else 0 })) ∧
          (r.kind = .rdmv → (t.kind = 1 ∨ t.kind = 2) → exec (.redemption n) s = .next (refuse s0 0x03 t.va)) ∧
          (∀ dst room, r.kind = .rdms dst room → room < 32 * kindUnits t.kind →
            exec (.redemption n) s = .next (refuse s0 0x05 dst)) ∧
          ((r.kind = .rdmv ∧ t.kind ≠ 1 ∧ t.kind ≠ 2 ∨ ∃ dst room, r.kind = .rdms dst room ∧ 32 * kindUnits t.kind ≤ room) →
            (t.state = .pending →
              exec (.redemption n) s = .next (setTicket s0 t { t with state := .claimed, claim := some (r, n) })) ∧
            (t.state = .ready → t.discard = false →
              (∀ c, t.fail = some c → exec (.redemption n) s = .next (refuse (buried s0 t .spent false) c t.va)) ∧
              (t.fail = none → t.pois = true →
                exec (.redemption n) s = .next (refuse (buried s0 t .spent false) 0x06 t.va)) ∧
              (t.fail = none → t.pois = false → t.data ≠ [] →
                let kept := setTicket s0 t { t with state := .claimed, claim := some (r, n), delivering := true }
                (r.kind = .rdmv → exec (.redemption n) s = .next (answer kept { data := t.data.headD 0 })) ∧
                (∀ dst room, r.kind = .rdms dst room → s.thr.tid = r.tid → s.thr.phase ≠ .none →
                  ∃ u, exec (.redemption n) s = .next u ∧ u.thr = { s.thr with rdmsDue := s.thr.rdmsDue + 1 } ∧
                    u.tickets = kept.tickets ∧
                    u.net = (answer kept {}).net ++
                      [{ seq := s.seqno, part := r.part, src := sliceCore r.slice
                         body := .rdms r.tid r.core (dst % 2 ^ 16) t.data t.n }])))))))) ∧
  (∀ (s : State) (n p src core dst entry : Nat) (ls : List Line),
    s.packet? n = some { seq := n, part := p, src := src, body := .rdms s.thr.tid core dst ls entry } → s.thr.core = core →
    s.thr.phase ≠ .none → s.l1cfgWaits s.thr.tid.part core = false →
    dst + 32 * ls.length ≤ s.scratchSize s.thr.tid.part core →
    (∀ o ∈ run (32 * ls.length) dst, Table.get? s.tags (padAddr s o / 4096) = some s.thr.tid.part) →
    ∃ u, exec (.rdmsDelivery n) s = .next u ∧ u.thr = { s.thr with rdmsDue := s.thr.rdmsDue - 1 } ∧
      padWritten s (run (32 * ls.length) dst) (linesValue ls) u.sram u.sramPois ∧
      ((∀ t ∈ s.tickets, t.n ≠ entry) → u.net = (without s n).net ∧ u.tickets = s.tickets) ∧
      (∀ t, s.tickets.find? (fun t => t.delivering && t.n == entry) = some t → t.discard = false → t.data ≠ [] →
        t.state = .claimed →
        u.net = (buried (without s n) t .spent false).net ∧ u.tickets = (buried s t .spent false).tickets)) ∧
  (∀ (s : State) (n p src : Nat) (t : Ticket) (r : Redeem) (a : Answer),
    s.packet? n = some { seq := n, part := p, src := src, body := .wake r.tid n a } → s.tickets = [t] → t.delivering = true →
    t.claim = some (r, n) → r.kind = .rdmv → t.discard = false → t.data ≠ [] → t.state = .claimed →
    ∃ u, exec (.wakeReachesCore n) s = .next u ∧ u.tickets = (buried s t .spent false).tickets ∧
      u.net = (buried (without s n) t .spent false).net)

/-! ## Events of the engines -/

/-- The copy kinds at the head of a queue (R63, R121–R142). One whose header, body and armed channel pass starts; one that
fails completes with BADHDR, BADBODY or BADHDR, touching nothing. The next chunk of a running command does its work at once,
or a page request holds it, until it is answered. What each kind writes is said of one that lies in scratchpads, of one row
or one element: FILL its pattern; COPY its source; SLAB its block, at the core and offset that it names; GATHER the row that
its index names; CCVT the converted element, with its flags; CRED the reduction of the element and the source's; OPTADAM and
OPTSGD the new w, m and v. Nothing else of any scratchpad changes, the command ends, and it carries all ones as its
signature and the cores that it has reached. -/
def Obligations.CopyCommands : Prop :=
  (∀ k ∈ copyKinds, ∀ (s : State) (x y slot : Nat) (c : Cmd) (rest : List Cmd),
    let core := engineCore x y
    let p := s.queuePart core slot
    atHead s core slot false c rest → c.state = .queued → c.ax = none → c.word.toNat % 256 = k.1 →
    s.engineFree core slot false = true →
    (¬legalHeader s p core false c.word →
      exec (k.2 x y slot) s = .next (withHead s core slot false { c with state := .ending, code := 3 } rest)) ∧
    (legalHeader s p core false c.word →
      (s.copyBodyOk p c = false →
        exec (k.2 x y slot) s = .next (withHead s core slot false { c with state := .ending, code := 4 } rest)) ∧
      (s.copyBodyOk p c = true →
        ((∀ m, c.arms slot = some m → c.destinations.all (s.channelOk p core m.chan) = true) →
          (∀ q ∈ s.cmdCores p core c, s.l1cfgWaits p q = false) → exec (k.2 x y slot) s =
            .next (withHead s core slot false { c with state := .running, cores := s.cmdCores p core c } rest)) ∧
        (∀ m, c.arms slot = some m → c.destinations.all (s.channelOk p core m.chan) = false →
          exec (k.2 x y slot) s = .next (withHead s core slot false { c with state := .ending, code := 3 } rest))))) ∧
  (∀ (s : State) (x y slot : Nat) (c : Cmd) (rest : List Cmd),
    let core := engineCore x y
    let p := s.queuePart core slot
    let e := s.engineOf core slot
    atHead s core slot false c rest → c.state = .running → c.ax = none → c.pf = .clear → s.partRuns p = true →
    (∀ s1 c1 k, s.engineWork e slot c = .ok s1 c1 → atHead s1 core slot false k rest →
      ∃ u, exec (.engineChunk x y slot) s = .next u ∧ atHead u core slot false { c1 with cores := k.cores } rest ∧ u.sram = s1.sram ∧
        u.sectors = s1.sectors ∧ u.dev = s1.dev ∧ u.thr = s1.thr) ∧
    (∀ t rid, s.engineWork e slot c = .block t (some rid) →
      ∃ u, exec (.engineChunk x y slot) s = .next u ∧ atHead u core slot false { c with pf := .waiting rid } rest ∧
        u.faults = t.faults ∧ u.sram = s.sram ∧ u.sectors = s.sectors ∧ u.dev = s.dev ∧ u.thr = s.thr) ∧
    (c.done = 0 → c.first = none → c.word.getLsbD 32 = false →
      let f (hi lo : Nat) : Nat := c.word.toNat / 2 ^ lo % 2 ^ (hi + 1 - lo)
      let ends (u : State) (n : Nat) (on : List Nat) : Prop := atHeadOn u core slot
        { c with state := .ending, code := 0, done := n, sig := BitVec.allOnes 512, skip := none } on rest
      (∀ n k o, c.word.toNat % 256 = 0x23 → n = f 198 167 → 0 < n → namesRow s p core c (fieldAddr c 199) n k o → c.skip = none →
        ∃ u, exec (.engineChunk x y slot) s = .next u ∧ ends u n [k] ∧
          padFilled s p k o n (fun i => f 166 103 / 2 ^ (8 * (i % 2 ^ f 102 101))) u.sram ∧ u.thr = s.thr ∧ u.dev = s.dev) ∧
      (∀ n k o k1 o1, c.word.toNat % 256 = 0x20 → f 125 118 = 0 → f 117 110 = 0 → n = f 141 126 + 1 →
        namesRow s p core c (fieldAddr c 199) n k1 o1 → padClean s p k1 (run n o1) →
        namesRow s p core c (fieldAddr c 142) n k o → c.skip = none →
        ∃ u, exec (.engineChunk x y slot) s = .next u ∧ ends u n [k, k1] ∧
          padFilled s p k o n (fun i => padByte s p k1 (o1 + i)) u.sram ∧ u.thr = s.thr ∧ u.dev = s.dev) ∧
      (∀ n k o k1 o1, c.word.toNat % 256 = 0x21 → f 158 139 = 0 → n = f 174 159 + 1 → f 98 83 + n ≤ 2 ^ 16 →
        namesRow s p core c (fieldAddr c 199) n k1 o1 → padClean s p k1 (run n o1) →
        namesRow s p core c (0xFE00000000000000 + f 128 119 * 2 ^ 32 + f 138 129 * 2 ^ 16 + f 98 83) n k o → c.skip = none →
        ∃ u, exec (.engineChunk x y slot) s = .next u ∧ ends u n [k, k1] ∧
          padFilled s p k o n (fun i => padByte s p k1 (o1 + i)) u.sram ∧ u.thr = s.thr ∧ u.dev = s.dev) ∧
      (∀ n k o k1 o1 k2 o2, c.word.toNat % 256 = 0x22 → f 68 49 = 0 → n = f 84 69 + 1 →
        namesRow s p core c (fieldAddr c 142) 4 k2 o2 → padClean s p k2 (run 4 o2) →
        namesRow s p core c ((fieldAddr c 199 + padNat s p k2 o2 4 * n) % 2 ^ 64) n k1 o1 → padClean s p k1 (run n o1) →
        namesRow s p core c (fieldAddr c 85) n k o → c.skip = none →
        ∃ u, exec (.engineChunk x y slot) s = .next u ∧ ends u n [k, k1, k2] ∧
          padFilled s p k o n (fun i => padByte s p k1 (o1 + i)) u.sram ∧ u.thr = s.thr ∧ u.dev = s.dev) ∧
      (let endsWith (u : State) (fl : Flags) (on : List Nat) : Prop := atHeadOn u core slot { c with
         state := .ending, code := 0, done := 1, flags := c.flags ||| fl, sig := BitVec.allOnes 512, skip := none } on rest
       (∀ k o k1 o1, c.word.toNat % 256 = 0x24 → f 84 65 = 0 → c.word.getLsbD 52 = false →
         f 64 61 ∉ [11, 12] → f 60 57 ∉ [11, 12] → f 64 61 < 14 → f 60 57 < 14 →
         namesRow s p core c (fieldAddr c 199) (codeWidth (f 64 61) / 8) k1 o1 → padClean s p k1 (run (codeWidth (f 64 61) / 8) o1) →
         namesRow s p core c (fieldAddr c 142) (codeWidth (f 60 57) / 8) k o → c.skip = none →
         let x0 := padNat s p k1 o1 (codeWidth (f 64 61) / 8)
         let r := convert (f 64 61) (f 60 57) (f 56 54) (c.word.getLsbD 53)
           (drawAt c.cap.rkey c.cap.rstr c.cap.rpos 0) (if f 64 61 = 13 then x0 % 2 ^ 19 else x0)
         ∃ u, exec (.engineChunk x y slot) s = .next u ∧ endsWith u r.2 [k, k1] ∧
           padFilled s p k o (codeWidth (f 60 57) / 8) (fun i => r.1 / 2 ^ (8 * i)) u.sram ∧ u.thr = s.thr ∧ u.dev = s.dev) ∧
       (∀ k o k1 o1, c.word.toNat % 256 = 0x25 → f 141 122 = 0 → f 121 118 ≤ 8 →
         let n := codeWidth (f 121 118) / 8
         namesRow s p core c (fieldAddr c 199) n k1 o1 → padClean s p k1 (run n o1) →
         namesRow s p core c (fieldAddr c 142) n k o → padClean s p k (run n o) → c.skip = none →
         let g := if f 117 115 = 5 then drawAt c.cap.rkey c.cap.rstr (BitVec.ofNat 64 (fieldAddr c 142 / n)) 0 else 0
         let r := reduced (f 121 118) (f 117 115) (c.word.getLsbD 114) g (padNat s p k o n) (padNat s p k1 o1 n)
         ∃ u, exec (.engineChunk x y slot) s = .next u ∧ endsWith u r.2 [k, k1] ∧
           padFilled s p k o n (fun i => r.1 / 2 ^ (8 * i)) u.sram ∧ u.thr = s.thr ∧ u.dev = s.dev) ∧
       (∀ b kw ow kg og km om kv ov, c.word.toNat % 256 = 0x26 → f 84 65 = 0 → c.params = some b → c.skip = none →
         let gn := if c.word.getLsbD 64 then 2 else 4
         namesRow s p core c (fieldAddr c 199) 4 kw ow → namesRow s p core c (fieldAddr c 142) gn kg og →
         namesRow s p core c (paramAddr b 0) 4 km om → namesRow s p core c (paramAddr b 1) 4 kv ov →
         padClean s p kw (run 4 ow) → padClean s p kg (run gn og) → padClean s p km (run 4 om) → padClean s p kv (run 4 ov) →
         ow % 4 = 0 → om % 4 = 0 → ov % 4 = 0 → (kw, ow) ≠ (km, om) → (kw, ow) ≠ (kv, ov) → (km, om) ≠ (kv, ov) →
         let g := padNat s p kg og gn * (if c.word.getLsbD 64 then 2 ^ 16 else 1)
         let r := adamStep (paramWord b) (padNat s p kw ow 4) (padNat s p km om 4) (padNat s p kv ov 4) g
         ∃ u, exec (.engineChunk x y slot) s = .next u ∧ endsWith u r.2.2.2 [kw, kg, km, kv] ∧
           padPuts s p [⟨kw, ow, 4, r.1⟩, ⟨km, om, 4, r.2.1⟩, ⟨kv, ov, 4, r.2.2.1⟩] u.sram ∧ u.thr = s.thr ∧ u.dev = s.dev) ∧
       (∀ b kw ow kg og km om, c.word.toNat % 256 = 0x27 → f 84 65 = 0 → c.params = some b → c.skip = none →
         let gn := if c.word.getLsbD 64 then 2 else 4
         let nom := c.word.getLsbD 63
         namesRow s p core c (fieldAddr c 199) 4 kw ow → namesRow s p core c (fieldAddr c 142) gn kg og →
         (nom = false → namesRow s p core c (paramAddr b 0) 4 km om ∧ padClean s p km (run 4 om) ∧ om % 4 = 0 ∧
           (kw, ow) ≠ (km, om)) →
         padClean s p kw (run 4 ow) → padClean s p kg (run gn og) → ow % 4 = 0 →
         let g := padNat s p kg og gn * (if c.word.getLsbD 64 then 2 ^ 16 else 1)
         let r := sgdStep (paramWord b) nom (padNat s p kw ow 4) (padNat s p km om 4) g
         ∃ u, exec (.engineChunk x y slot) s = .next u ∧ endsWith u r.2.2 (if nom then [kw, kg] else [kw, kg, km]) ∧
           padPuts s p (if nom then [⟨kw, ow, 4, r.1⟩] else [⟨kw, ow, 4, r.1⟩, ⟨km, om, 4, r.2.1⟩]) u.sram ∧
           u.thr = s.thr ∧ u.dev = s.dev)))) ∧
  (∀ (s : State) (x y slot : Nat) (c : Cmd) (rest : List Cmd) (rid : Nat), atHead s (engineCore x y) slot false c rest →
    c.state = .running → c.pf = .waiting rid → exec (.engineChunk x y slot) s = .next s)

/-- The matrix kinds (R249–R263): a failing header or body completes with its code, a gang command waits as an arrival, an
operand past its scratchpad or a poisoned one ends the command with PERM or POISON and the number of the first such operand.
MMA forms the groups of R256 rounded in order, with their flags, and MMAI the sums modulo 2^32, to be written when they
complete, poisoned and with CHECK when both checks of the tile fail (the model's free value, log entry 90). MEPI forms C
times the scale plus the bias, rounded once, packed at its destination, with the flags of all 256. Sixteen arrivals start
together; if they disagree they all complete with GANGMIS. -/
def Obligations.MatrixCommands : Prop :=
  (∀ k ∈ matrixKinds, ∀ (s : State) (x y slot : Nat) (c : Cmd) (rest : List Cmd),
    let core := engineCore x y
    let p := s.queuePart core slot
    atHead s core slot true c rest → c.state = .queued → c.word.toNat % 256 = k.1 → s.engineFree core slot true = true →
    (¬legalHeader s p core true c.word →
      exec (k.2.1 x y slot) s = .next (withHead s core slot true (endedWith c 3 none) rest)) ∧
    (legalHeader s p core true c.word →
      (k.2.2 c = false → exec (k.2.1 x y slot) s = .next (withHead s core slot true (endedWith c 4 none) rest)) ∧
      (k.2.2 c = true → c.word.getLsbD 8 = true →
        exec (k.2.1 x y slot) s = .next (withHead s core slot true { c with state := .arrived } rest)) ∧
      (k.2.2 c = true → c.word.getLsbD 8 = false → (∀ q ∈ c.tileCores core, s.l1cfgWaits p q = false) →
        ∃ u c1, exec (k.2.1 x y slot) s = .next u ∧ atHead u core slot true c1 rest ∧
        c1.state = .ending ∧ c1.id = c.id ∧ c1.cores = c.tileCores core ∧ c1.code ∈ [0, 5, 8, 9] ∧ u.dev = s.dev ∧ u.sectors = s.sectors ∧
        u.thr.s = s.thr.s ∧ u.thr.v = s.thr.v))) ∧
  (∀ (s : State) (x y slot : Nat) (c : Cmd) (rest : List Cmd),
    let core := engineCore x y
    let p := s.queuePart core slot
    atHead s core slot true c rest → c.state = .queued → c.word.toNat % 256 = 2 → s.engineFree core slot true = true →
    legalHeader s p core true c.word → c.mmaOk true = true → c.word.getLsbD 8 = false →
    (∀ q ∈ c.tileCores core, s.l1cfgWaits p q = false) →
    (∀ o ∈ tilePlaces core c, padOwned s p o.1 o.2 ∧ padClean s p o.1 o.2) →
    let bad := Config.tileMismatch s.fresh 0 && Config.tileMismatch s.fresh 1
    ∃ u, exec (.mmai x y slot) s = .next u ∧ u.fresh = s.fresh + 1 ∧ u.sram = s.sram ∧ atHead u core slot true
      { c with state := .ending, cores := c.tileCores core, code := if bad then 8 else 0, sig := BitVec.allOnes 512, outPois := bad
               out := wordsOut (c.word.toNat / 2 ^ 196 % 2 ^ 16)
                 ((List.range 256).map (fun n => mmaiElement s p core c (n / 16) (n % 16))) } rest) ∧
  (∀ (int : Bool) (s : State) (x y slot : Nat) (c : Cmd) (rest : List Cmd),
    let i : Instr := if int then .mmai x y slot else .mma x y slot
    let core := engineCore x y
    let p := s.queuePart core slot
    let ops := tileOperands core c
    atHead s core slot true c rest → c.state = .queued → c.word.toNat % 256 = (if int then 2 else 1) →
    s.engineFree core slot true = true → legalHeader s p core true c.word → c.mmaOk int = true → c.word.getLsbD 8 = false →
    (∀ q ∈ c.tileCores core, s.l1cfgWaits p q = false) →
    (∀ o, ops.find? (beyond s p) = some o →
      ∃ u, exec i s = .next u ∧ atHead u core slot true (endedWith { c with cores := c.tileCores core } 5 (some o.1)) rest ∧ u.thr = s.thr ∧ u.dev = s.dev) ∧
    ((∀ o ∈ ops, padOwned s p o.2.1 o.2.2) → c.at_ ≠ 12 → c.bt ≠ 12 →
      ∀ o, (ops.filter (fun o => o.1 ≠ 2 || c.word.getLsbD 126)).find? (tainted s p) = some o →
        ∃ u, exec i s = .next u ∧ atHead u core slot true (endedWith { c with cores := c.tileCores core } 9 (some o.1)) rest ∧ u.thr = s.thr ∧ u.sram = s.sram)) ∧
  (∀ (s : State) (x y slot : Nat) (c : Cmd) (rest : List Cmd),
    let core := engineCore x y
    let p := s.queuePart core slot
    atHead s core slot true c rest → c.state = .queued → c.word.toNat % 256 = 1 → s.engineFree core slot true = true →
    legalHeader s p core true c.word → c.mmaOk false = true → c.word.getLsbD 8 = false →
    (∀ q ∈ c.tileCores core, s.l1cfgWaits p q = false) →
    (∀ o ∈ tileOperands core c, padOwned s p o.2.1 o.2.2 ∧ tainted s p o = false) →
    ((c.at_ = 12 ∨ c.bt = 12) → ∀ i, i < 256 → padOwned s p core (run 4 (tableOff c.cap.tblp i)) ∧
      padClean s p core (run 4 (tableOff c.cap.tblp i))) →
    let bad := Config.tileMismatch s.fresh 0 && Config.tileMismatch s.fresh 1
    let r (n : Nat) : Nat × Flags := mmaResult s p core c (n / 16) (n % 16)
    ∃ u fl, exec (.mma x y slot) s = .next u ∧ u.fresh = s.fresh + 1 ∧ u.sram = s.sram ∧ flagsOf fl 256 (fun n => (r n).2) ∧
      atHead u core slot true
        { c with state := .ending, cores := c.tileCores core, code := if bad then 8 else 0, flags := c.flags ||| fl
                 sig := BitVec.allOnes 512, outPois := bad, out := wordsOut (c.word.toNat / 2 ^ 196 % 2 ^ 16)
                   ((List.range 256).map (fun n => (r n).1)) } rest) ∧
  (∀ (s : State) (x y slot : Nat) (c : Cmd) (rest : List Cmd),
    let core := engineCore x y
    let p := s.queuePart core slot
    let ops := mepiOperands core c
    atHead s core slot true c rest → c.state = .queued → c.word.toNat % 256 = 3 → s.engineFree core slot true = true →
    legalHeader s p core true c.word → c.mepiOk = true →
    (∀ o, ops.find? (beyond s p) = some o → ∃ u, exec (.mepi x y slot) s = .next u ∧
      atHead u core slot true (endedWith { c with cores := [core] } 5 (some o.1)) rest ∧ u.thr = s.thr ∧ u.dev = s.dev) ∧
    ((∀ o ∈ ops, padOwned s p o.2.1 o.2.2) → ∀ o, (ops.eraseIdx 1).find? (tainted s p) = some o →
      ∃ u, exec (.mepi x y slot) s = .next u ∧ atHead u core slot true (endedWith { c with cores := [core] } 9 (some o.1)) rest ∧ u.sram = s.sram) ∧
    ((∀ o ∈ ops, padOwned s p o.2.1 o.2.2) → (∀ o ∈ ops.eraseIdx 1, tainted s p o = false) →
      ∃ u fl bs, exec (.mepi x y slot) s = .next u ∧ u.sram = s.sram ∧ u.thr = s.thr ∧ u.dev = s.dev ∧
        flagsOf fl 256 (fun e => (mepiResult s p core c e).2) ∧ bs.length = 32 * codeWidth c.dt ∧
        (∀ e, e < 256 → leNat bs / 2 ^ (codeWidth c.dt * e) % 2 ^ codeWidth c.dt =
          (mepiResult s p core c e).1 % 2 ^ codeWidth c.dt) ∧
        atHead u core slot true { c with state := .ending, cores := [core], code := 0, flags := c.flags ||| fl
                                         sig := BitVec.allOnes 512, outPois := false, out := (run (32 * codeWidth c.dt) (mepiDst c)).zip bs } rest)) ∧
  (∀ (s : State) (gang slot : Nat) (h : Nat → Cmd), gang < 25600 →
    (∀ n, n < 16 → ∃ rest, atHead s (engineCore (gang % 40 * 16 + n) (gang / 40)) slot true (h n) rest ∧
      (h n).state = .arrived ∧ s.engineFree (engineCore (gang % 40 * 16 + n) (gang / 40)) slot true = true ∧
      ∀ q ∈ (h n).tileCores (engineCore (gang % 40 * 16 + n) (gang / 40)),
        s.l1cfgWaits (s.queuePart (engineCore (gang % 40 * 16 + n) (gang / 40)) slot) q = false) →
    ∃ u, exec (.gangStart gang slot) s = .next u ∧
      (∀ n, n < 16 → ∃ rest c, atHead u (engineCore (gang % 40 * 16 + n) (gang / 40)) slot true c rest ∧ c.state = .ending ∧
        ((∃ m, m < 16 ∧ (h m).gangKey ≠ (h 0).gangKey) → c = endedWith (h n) 10 none)) ∧
      u.dev = s.dev ∧ u.sectors = s.sectors)

/-- A command that has ended completes (R126, R127, R346): with NOTIFY a message goes to its class first, and the queue waits
for its acceptance; then the history takes its status, its signature joins those that FENCEE acquires, a code above PARTIAL
is left as the queue's pending error, and its owner's wake bit is set. A matrix command's tile is written then. The pending
error is taken as ENGINE, or as ENGINE of a checksum, before the thread's next instruction, with the status word and word 0
as its detail; the error is cleared (R347). -/
def Obligations.Completions : Prop :=
  (∀ (s : State) (x y slot : Nat) (mtx : Bool) (c : Cmd) (rest : List Cmd),
    let core := engineCore x y
    let p := s.queuePart core slot
    let q := s.queueAt core slot mtx
    atHead s core slot mtx c rest → c.state = .ending → q.posting = false → s.partRuns p = true →
    c.word.getLsbD 10 = false → c.wbs = none → c.outPois = false →
    (c.out = [] →
      (c.word.getLsbD 9 = false → s.ownerOf core slot = some s.thr → s.thr.isLive = true →
        exec (.commandCompletion x y slot mtx) s = .next (completed s core slot mtx c rest)) ∧
      (c.word.getLsbD 9 = true → s.ownsSlot p core (c.word.toNat / 2 ^ 15 % 16) = true →
        ∃ u m, exec (.commandCompletion x y slot mtx) s = .next u ∧
          u.queueAt core slot mtx = { q with posting := true } ∧ u.thr = s.thr ∧ u.sram = s.sram ∧
          u.net = s.net ++ [{ seq := s.seqno, part := p, src := core
                              body := .msg { core := core, cls := c.word.toNat / 2 ^ 15 % 16, msg := m
                                             sender := .engine core slot mtx } }] ∧
          m.w0 = c.word0 slot ∧ m.sig = c.sig)) ∧
    (∀ n o, c.out.map (fun x => x.1) = run n o → padOwned s p core (run n o) → c.word.getLsbD 9 = false →
      ∃ u, exec (.commandCompletion x y slot mtx) s = .next u ∧
        padFilled s p core o n (fun k => (c.out.getD k (0, 0)).2.toNat) u.sram ∧
        (u.queueAt core slot mtx).cmds = rest)) ∧
  (∀ (s : State) (w0 st : Word), s.thr.home = none → s.thr.travelling = false → s.thr.owed = [] → s.thr.tvec ≠ 0 →
    (s.thr.phase = .run ∨ s.thr.phase = .parked .idle ∨ s.thr.phase = .parked .message ∨ s.thr.phase = .parked .command) →
    let k := s.slotAt s.thr.core s.thr.slot
    let cause := if st.toNat / 2 ^ 20 % 16 = 8 then 0x0D else 0x0C
    let take (k1 : Slot) : State := entered (s.setSlot s.thr.core s.thr.slot k1) 0 cause (st ++ w0) s.thr.pc (repstAt s.thr.rep)
    (k.copy.err = some (w0, st) →
      exec .deferredEngineError s = .next (take { k with copy := { k.copy with err := none } })) ∧
    (k.copy.err = none → k.mtx.err = some (w0, st) →
      exec .deferredEngineError s = .next (take { k with mtx := { k.mtx with err := none } })))

/-! ## Events of the slices -/

/-- A request at its slice (R78, R82, R83, R98, R99, R102–R104, R107, R150, R154, R155, R295, R296). A hit of one row whose leaf
has the permission: a read answers the row, its bytes and the signature, or POISON; a store or an ATOM changes its own bytes
and no other, makes the row dirty, keeps the signature it carries and answers the old value; every other field of the sector
and every other sector stays. A hit that lacks a row goes on to a fill, one that lacks the permission to a walk; a miss is
judged by a cached leaf, and else begins a walk from the root. A request that an earlier one holds back, or a later-ranked one of
its fabric cycle (log entry 132), does not arrive. -/
def Obligations.SliceRequests : Prop :=
  (∀ (s : State) (n : Nat) (r : Req) (k : Nat) (c : Sector), served s n r → hitRow s r k c →
    let row : Line := c.rows.getD (rowNo r.va) 0
    let gen := s.genAt r.part r.dst
    (r.op = .read .row k → c.leaf.rd = true → ∃ u a d, exec (.sliceRequest n) s = .next u ∧ answeredWith s u n r gen a ∧
      u.dev = s.dev ∧ u.sectors = d :: otherSectors s c ∧ d = { c with used := d.used } ∧
      (c.pois.getLsbD (rowNo r.va) = true → a = { verdict := .trap 0x06 r.va }) ∧
      (c.pois.getLsbD (rowNo r.va) = false → a.verdict = .ok ∧ a.data = row ∧ a.val = rowValue row r.va k ∧ a.sig = sectorSig s c)) ∧
    (∀ v, r.op = .write k v false → c.leaf.w = true → ∃ u a d, exec (.sliceRequest n) s = .next u ∧
      answeredWith s u n r gen a ∧ a.verdict = .ok ∧ u.sectors = d :: otherSectors s c ∧ storedIn c d r.va k v.toNat r.sig ∧
      u.dev = s.dev) ∧
    (∀ op v cmp, r.op = .alu op k v cmp → (k = 4 ∨ k = 8) → c.leaf.rd = true → c.leaf.w = true →
      c.pois.getLsbD (rowNo r.va) = false → ∃ u a d, exec (.sliceRequest n) s = .next u ∧ answeredWith s u n r gen a ∧
        a.verdict = .ok ∧ a.val = rowValue row r.va k ∧ u.sectors = d :: otherSectors s c ∧
        storedIn c d r.va k (op.eval k (rowValue row r.va k) v.toNat cmp.toNat).1 r.sig ∧ u.dev = s.dev)) ∧
  (∀ (s : State) (n p src : Nat) (r : Req), s.packet? n = some { seq := n, part := p, src := src, body := .slice r } →
    (s.heldBack n r = true ∨ s.overtaken (arrivalAt r) = true) → exec (.sliceRequest n) s = .next s) ∧
  (∀ (s : State) (n : Nat) (r : Req), served s n r →
    let gen := s.genAt r.part r.dst
    let walk : HeldStage := .walk 3 (s.part r.part).root gen
    let goes (st : HeldStage) : Prop := ∃ u, exec (.sliceRequest n) s = .next u ∧ newlyHeld s u n r st ∧ u.sectors = s.sectors
    (∀ c, s.sector? r.dst r.part r.va = some c →
      (c.leaf.permits r.op.accClass = false → goes walk) ∧
      (∀ k, r.op = .read .row k → 0 < k → r.va % 32 + k ≤ 32 → c.leaf.rd = true → c.valid.getLsbD (rowNo r.va) = false →
        goes (.fill c.leaf))) ∧
    (s.sector? r.dst r.part r.va = none →
      (s.tcFind r.dst r.part r.va = none → goes walk) ∧
      (∀ l, s.tcFind r.dst r.part r.va = some l → (l.tgt = 0 ∨ l.tgt = 2 → populated (l.target r.va) = true) →
        (l.permits r.op.accClass = true → goes (if l.tgt = 2 then .remote l else .fill l)) ∧
        (l.permits r.op.accClass = false → l.prq = false → ∃ u, exec (.sliceRequest n) s = .next u ∧
          answeredWith s u n r gen { verdict := .trap 0x05 r.va } ∧ u.sectors = s.sectors))))

/-- What a miss takes (R78–R83, R90, R91, R98–R100, R106): a walk reads one entry of the table a step and goes down, finds the
leaf, fails as malformed, fails as not permitted, or opens a page request with its record, or waits in order of
arrival for one of the 64 entries; the sector's row comes from its target and the request is served; a write-back
brings its rows, and no other byte, to device memory. -/
def Obligations.SliceMisses : Prop :=
  (∀ (s : State) (n : Nat) (h : Held) (level base : Nat) (gen : Half), s.held.find? (fun h => h.seq == n) = some h → h.seq = n →
    h.stage = .walk level base gen → (s.part h.req.part).state = .running →
    let va := h.req.va
    let e := s.tableRead (base + 8 * (va / 2 ^ (12 + 9 * level) % (if level = 3 then 2 ^ 17 else 2 ^ 9)))
    let l := Leaf.of e level
    let acc := h.req.op.accClass
    let asks : FaultWait := { slice := h.req.dst, part := h.req.part, page := va / 4096, acc := acc, agent := .held n }
    (e.getLsbD 0 = true → malformed e level = true → ∃ u, exec (.tableWalk n) s = .next u ∧
      answeredWith s u n h.req gen { verdict := .trap 0x04 va }) ∧
    (e.getLsbD 0 = true → malformed e level = false → e.getLsbD 1 = false → ∃ u, exec (.tableWalk n) s = .next u ∧
      movedOn s u h (.walk (level - 1) (e.toNat / 2 ^ 12 % 2 ^ 40 * 4096) gen) .clear) ∧
    (e.getLsbD 0 = true → malformed e level = false → e.getLsbD 1 = true →
      let there : Prop := l.tgt = 0 ∨ l.tgt = 2 → populated (l.target va) = true
      (¬there → ∃ u, exec (.tableWalk n) s = .next u ∧ answeredWith s u n h.req gen { verdict := .trap 0x04 va }) ∧
      (there → l.permits acc = true → ∃ u, exec (.tableWalk n) s = .next u ∧
        movedOn s u h (if l.tgt = 2 then .remote l else .fill l) .clear) ∧
      (there → l.permits acc = false → l.prq = false → ∃ u, exec (.tableWalk n) s = .next u ∧
        answeredWith s u n h.req gen { verdict := .trap 0x05 va })) ∧
    (e.getLsbD 0 = false → s.faults.find? (fun f => f.slice == h.req.dst && f.asn == h.req.part && f.page == va / 4096
        && f.acc == acc) = none →
      (s.freeFault h.req.dst ≠ none → (∀ w ∈ s.faultWaits, w.slice ≠ h.req.dst) →
        ∃ u rid, exec (.tableWalk n) s = .next u ∧ movedOn s u h .faulted (.waiting rid) ∧
          ∃ f ∈ u.faults, f.rid = rid ∧ f.slice = h.req.dst ∧ f.asn = h.req.part ∧ f.page = va / 4096 ∧ f.acc = acc ∧
            (h.req.part < 64 → level < 4 → h.req.core < 640 * 640 → h.req.slot < 16 → h.req.dst < 1280 →
              ∀ x ∈ [(255, 212, va / 4096 % 2 ^ 44), (211, 196, gen.toNat), (195, 180, (s.part h.req.part).ctxgen.toNat),
                (179, 174, h.req.part), (173, 172, acc), (171, 171, 0), (170, 168, level), (167, 128, 0),
                (127, 124, dieOf h.req.core), (123, 109, coreIndex h.req.core), (108, 105, h.req.slot), (104, 102, 0),
                (101, 32, 0), (31, 0, rid)], f.record.toNat / 2 ^ x.2.1 % 2 ^ (x.1 + 1 - x.2.1) = x.2.2)) ∧
      (s.freeFault h.req.dst = none → asks ∉ s.faultWaits → ∃ u, exec (.tableWalk n) s = .next u ∧
        movedOn s u h (.noEntry level false gen) .clear ∧
        u.faultWaits = s.faultWaits.filter (fun w => w.agent != .held n) ++ [asks] ∧ u.faults = s.faults))) ∧
  (∀ (s : State) (n k : Nat) (h : Held) (l : Leaf), s.held.find? (fun h => h.seq == n) = some h → h.seq = n →
    h.stage = .fill l → (s.part h.req.part).state = .running → h.gen = s.genAt h.req.part h.req.dst →
    h.req.op = .read .row k → h.req.va % 32 + k ≤ 32 → 0 < k → s.sector? h.req.dst h.req.part h.req.va = none →
    h.evict = none → (∀ x ∈ s.wayWaits, x.slice ≠ h.req.dst) → (∀ w ∈ s.wbs, w.part = h.req.part → w.vpn ≠ sectorNo h.req.va) →
    s.waysUsed h.req.dst (s.setOf h.req.part h.req.va) < 16 →
    let row := s.targetRead h.req.part l (l.addr + h.req.va / 1024 * 1024 % 2 ^ l.size + 32 * rowNo h.req.va)
    ∃ u a, exec (.sectorFill n) s = .next u ∧ answeredWith s u n h.req h.gen a ∧ u.dev = s.dev ∧
      (row.2 = true → a = { verdict := .trap 0x06 h.req.va }) ∧
      (row.2 = false → a.verdict = .ok ∧ a.data = row.1 ∧ a.val = rowValue row.1 h.req.va k)) ∧
  (∀ (s : State) (n key : Nat) (w : WriteBack), s.wbs.find? (fun w => w.n == n) = some w → w.n = n →
    s.wbs.any (fun v => v.n < n && v.of w.slice w.part (1024 * w.vpn)) = false →
    w.leaf.tgt = 0 → w.target % 1024 = 0 → (s.part w.part).key = some key →
    ∃ u, exec (.writeBackComplete n) s = .next u ∧ u.wbs = s.wbs.filter (fun x => x.n != n) ∧
      (∀ r : Fin 32, w.mask.getLsbD r.val = true → u.devRead (some key) (w.target + 32 * r.val) =
        (w.rows[r], w.pois.getLsbD r.val || s.devErr.contains ((w.target + 32 * r.val) / 32))) ∧
      (∀ a, (∀ r : Fin 32, w.mask.getLsbD r.val = true → a / 32 ≠ w.target / 32 + r.val) →
        Memory.read u.dev a = Memory.read s.dev a))

/-- What reaches the cores (R105, R146, R150, R153, R162, R292–R296, R298, R375): an answer wakes the thread that expects it;
a load's answer adds its signature to the seen signature, and its line is installed or drops the resident one; a store's answer
counts in the accumulator of the thread's core; a window request reads or writes its scratchpad at its arrival, which a write of
L1CFG parked there, or a later-ranked request of its fabric cycle to one of its words (log entry 132), holds off; the answers of
a peer module come, for one slice and link, in the order of the requests. -/
def Obligations.CoreArrivals : Prop :=
  (∀ (s : State) (n p src : Nat) (r : Req) (a : Answer) (gen : Half),
    s.packet? n = some { seq := n, part := p, src := src, body := .answer r a gen } →
    s.thr.tid = r.tid → s.thr.phase ≠ .none → s.thr.expect = some n →
    let got (g : Sig) : Thread := { s.thr with answer := some a, expect := none, seen := s.thr.seen ||| g ||| a.saw }
    (∀ c d, a.verdict = .trap c d → exec (.lineArrival n) s = .next (withThr (without s n) (got 0))) ∧
    (∀ b, a.verdict = .ok → r.op = .readHome b → exec (.lineArrival n) s = .next (withThr (without s n) (got a.sig))) ∧
    (∀ l k kd b, a.verdict = .ok → r.op = .read l k → lineAsked r = some (kd, b) →
      (r.install = false → exec (.lineArrival n) s =
        .next (withThr { without s n with l1 := s.l1.filter (fun x => !(x.core == r.core && x.part == r.part && (x.kind == kd && x.va == b))) }
          (got a.sig))) ∧
      (r.install = true → gen = s.genAt r.part (coreTarget r.core) → 0 < s.l1Lines r.part r.core →
        ∃ u, exec (.lineArrival n) s = .next u ∧ u.thr = got a.sig ∧ ∃ l, u.l1Hit r.core r.part kd b = some l ∧ l.data = a.data ∧ l.sig = a.sig)) ∧
    (∀ k v b, a.verdict = .ok → r.op = .write k v b → s.thr.tid.part = r.part → s.thr.core = r.core →
      s.thr.travelling = false →
      ∃ u, exec (.lineArrival n) s = .next u ∧ u.thr = { got 0 with acc := s.thr.acc ||| sigBits (sectorNo r.va) } ∧
        u.net.map (·.seq) = (without s n).net.map (·.seq) ∧ u.sectors = s.sectors ∧ u.dev = s.dev)) ∧
  (∀ (s : State) (n p src : Nat),
    (∀ tid seq a, s.packet? n = some { seq := n, part := p, src := src, body := .wake tid seq a } → s.thr.tid = tid →
      s.thr.phase ≠ .none → (∀ t ∈ s.tickets, t.delivering = false) →
      exec (.wakeReachesCore n) s = .next (withThr (without s n)
        (if s.thr.expect = some seq then { s.thr with answer := some a, expect := none, seen := s.thr.seen ||| a.saw } else s.thr))) ∧
    (s.packet? n = some { seq := n, part := p, src := src, body := .served s.thr.tid } → s.thr.phase ≠ .none →
      exec (.wakeReachesCore n) s = .next (withThr (without s n) { s.thr with unserved := s.thr.unserved - 1 })) ∧
    (∀ r c o k, s.packet? n = some { seq := n, part := p, src := src, body := .scratch r } →
      (∀ q ∈ s.net, q.seq < n → ∀ x, q.body ≠ .scratch x) → s.l1cfgWaits r.part r.dst = false →
      (∀ m ∈ r.metWords, s.overtaken m = false) →
      2 ^ 64 - 2 ^ 57 ≤ r.va → s.window r.part r.core r.va (run k (r.va % 2 ^ 16)) = some (c, o) → padOwned s r.part c (run k o) →
      let wake (a : Answer) : State := replies (r.metWords.foldl State.meet (without s n)) n r.part r.dst (.wake r.tid n a)
      (r.op = .read .row k → padClean s r.part c (run k o) → ∃ a, exec (.remoteScratchpadRequest n) s = .next (wake a) ∧
        a.verdict = .ok ∧ a.val = leNat ((run k o).map (fun o => BitVec.ofNat 8 (padByte s r.part c o))) ∧
        a.saw = BitVec.allOnes 512) ∧
      (∀ v b, r.op = .write k v b → k ≤ 32 → ∃ u a, exec (.remoteScratchpadRequest n) s = .next u ∧ u.net = (wake a).net ∧
        a.verdict = .ok ∧ padFilled s r.part c o k (fun i => v.toNat / 2 ^ (8 * i)) u.sram ∧ u.thr = s.thr)) ∧
    (∀ r, s.packet? n = some { seq := n, part := p, src := src, body := .scratch r } →
      (∀ q ∈ s.net, q.seq < n → ∀ x, q.body ≠ .scratch x) →
      (s.l1cfgWaits r.part r.dst = true → ∃ u, exec (.remoteScratchpadRequest n) s = .next u ∧ u.sram = s.sram ∧
        ∃ k ∈ u.net, k.seq = n ∧ k.body = .scratch { r with late := true }) ∧
      (s.l1cfgWaits r.part r.dst = false → (∃ m ∈ r.metWords, s.overtaken m = true) →
        exec (.remoteScratchpadRequest n) s = .next s))) ∧
  (∀ (s : State) (n : Nat) (ok : Bool) (d : Line), exec (.swarmAnswer n ok d) s =
    .next { s with swarms := s.swarms.map (fun w => if w.n = n ∧ w.done = none ∧
      (∀ x ∈ s.swarms, x.slice = w.slice → x.link = w.link → x.n < n → x.done ≠ none) then { w with done := some (ok, d) } else w) })

/-! ## Events of the comb units and the sluice engines -/

/-- The comb units (R271–R288): an operation arrives, by the die, y, x and slot of its thread among those of one fabric cycle (R276; how
the model keeps that order: log entry 132); one of a store that is not granted ends with NOSTORE, of a broken one with BROKEN, one
with an illegal block with BADBLK; TJVER stores VER and returns the old one; TJQRY returns T, N, VER, HEAD and the sequence
number; TJINS takes the slot at HEAD, or answers FULL; TJPRI, TJEVT and TJGET answer STALE for a handle whose generation has
gone, and else change the leaf's priority, end the record, or copy it; TJSMP returns its batch and takes a sequence number, and
draws nothing from an empty tree; a level's child is the first whose sums pass the point; a linearised operation writes its
records and entries one access at a time; a finished one is answered with its status, its RO words and its signature, and
NOTIFY adds a message for one that passed its checks. The sluice engines (R71–R76): an operation is answered in its order;
AXDEPTH's values, the STACK traps, AXPUSH's and AXPOP's new stack and their copy command, AXDROP's new stack; a spill or recall
takes its frame in 1 KiB chunks, and at its end COLD and HOT change. -/
def Obligations.UnitEvents : Prop :=
  (∀ (s : State) (o : TjOp), s.comb = [o] → o.arrived = false →
    let here : Met := { home := 2 ^ 40 + o.die, place := 0, rank := slotRank o.core o.slot }
    (s.overtaken here = true → exec (.combOperation o.die) s = .next s) ∧
    (s.overtaken here = false → ∃ u, exec (.combOperation o.die) s = .next u ∧ u.comb = [{ o with arrived := true }] ∧
      u.stores = s.stores ∧ u.sectors = s.sectors ∧ u.dev = s.dev ∧ u.thr = s.thr)) ∧
  (∀ (s : State) (o : TjOp) (k : Store), aloneAt s o → (o.form = 0 → o.src ≠ none) →
    let ends (c : Nat) : Prop := ∃ u, exec (.combOperation o.die) s = .next u ∧
      u.comb = [{ o with code := c, finished := true, checked := false }] ∧ u.stores = s.stores ∧ u.dev = s.dev ∧
      u.sectors = s.sectors
    ((s.part o.part).grant.getLsbD o.sid = false → ends 3) ∧
    (storeReady s o k → k.broken = true → ends 9) ∧
    (storeReady s o k → k.broken = false → s.blockOk o k = false → ends 4)) ∧
  (∀ (s : State) (o : TjOp) (k : Store), aloneAt s o → checksPass s o k →
    let took (o1 : TjOp) (k1 : Store) : Prop := ∃ u, exec (.combOperation o.die) s = .next u ∧ u.comb = [o1] ∧
      Table.get? u.stores o.sid = some k1
    let t := tookPlace o k 0
    (o.form = 4 → took { t with ro := [(2, k.ver)], finished := true } { k with ver := BitVec.ofNat 32 (blockField o 32 32) }) ∧
    (o.form = 5 →
      (k.badNode 0 0 = false → took { t with
        finished := true
        ro := [(2, BitVec.ofNat 32 k.total), (3, BitVec.ofNat 32 (k.total / 2 ^ 32 % 2 ^ 32)), (4, BitVec.ofNat 32 k.n),
               (5, k.ver), (6, BitVec.ofNat 32 k.head), (7, BitVec.ofNat 32 k.seq)] } k) ∧
      (k.badNode 0 0 = true → ∃ u, exec (.combOperation o.die) s = .next u ∧ Table.get? u.stores o.sid = some { k with broken := true } ∧
        ∃ o1, u.comb = [o1] ∧ o1.code = 7 ∧ o1.finished = true ∧ o1.ro = o.ro)) ∧
    (o.form = 0 → ∀ s1 gen prio, leafReads s o k k.head s1 gen prio →
      let live : Bool := gen % 2 == 1
      (live = true → k.fullref = true → took { t with code := 2, ro := [(6, 0), (7, 0)], finished := true } k) ∧
      (¬(live = true ∧ k.fullref = true) →
        let p := (convPrio (blockField o 96 32)).1
        let gen1 := (gen + (if live then 2 else 1)) % 2 ^ 32
        let d := (2 ^ 64 + p - prio) % 2 ^ 64
        let h := gen1 * 2 ^ 32 + o.sid * 2 ^ 24 + k.head
        let old := if live then gen % 2 ^ 32 * 2 ^ 32 + o.sid * 2 ^ 24 + k.head else 0
        ∀ s3 g, leafWritten s1 o k k.head gen1 p d s3 g →
          took { tookPlace o k h with
            perr := (convPrio (blockField o 96 32)).2, sig := o.sig ||| g
            ro := [(4, BitVec.ofNat 32 h), (5, BitVec.ofNat 32 (h / 2 ^ 32 % 2 ^ 32)), (6, BitVec.ofNat 32 old),
                   (7, BitVec.ofNat 32 (old / 2 ^ 32 % 2 ^ 32))]
            tasks := [.record k.head (BitVec.ofNat 32 (blockField o 96 32)) gen1]
            code := if (o.src.getD []).any (·.2) then 8 else 0 }
            { k with tree := treeAdd k.tree (k.head / 16) d, n := if live then k.n else k.n + 1
                     head := (k.head + 1) % k.cap })) ∧
    ((o.form = 2 ∨ o.form = 3 ∨ o.form = 6) → ∀ s1 gen prio, leafReads s o k (namedSlot o) s1 gen prio →
      let i := namedSlot o
      let t := tookPlace o k (blockField o 32 64)
      ((gen ≠ namedGen o ∨ gen % 2 = 0) → took { t with code := 1, finished := true } k) ∧
      (gen = namedGen o → gen % 2 = 1 →
        (o.form = 2 → let p := (convPrio (blockField o 96 32)).1
          let d := (2 ^ 64 + p - prio) % 2 ^ 64
          ∀ s3 g, leafWritten s1 o k i gen p d s3 g →
            took { t with perr := (convPrio (blockField o 96 32)).2, ro := [(4, BitVec.ofNat 32 prio)], sig := o.sig ||| g
                          tasks := [.prio i (BitVec.ofNat 32 (blockField o 96 32))] }
              { k with tree := treeAdd k.tree (i / 16) d }) ∧
        (o.form = 3 → let d := (2 ^ 64 - prio) % 2 ^ 64
          ∀ s3 g, leafWritten s1 o k i (gen + 1) 0 d s3 g →
            took { t with sig := o.sig ||| g, finished := true }
              { k with tree := treeAdd k.tree (i / 16) d, n := (k.n + 2 ^ 32 - 1) % 2 ^ 32 }) ∧
        (o.form = 6 → took { t with tasks := [.copy i (blockField o 96 64) none] } k))) ∧
    (o.form = 1 → k.badNode 0 0 = false →
      let b := blockField o 32 8 + 1
      let outs := (List.range b).map (fun j => CombTask.entry j (blockField o 320 64 + 16 * j))
      let after : Store := { k with seq := (k.seq + 1) % 2 ^ 32 }
      let t := tookPlace o k (k.seq % 2 ^ 64)
      let ro (n : Nat) : List (Nat × Word) :=
        [(14, BitVec.ofNat 32 n), (15, BitVec.ofNat 32 (n / 2 ^ 32 % 2 ^ 32)), (13, BitVec.ofNat 32 k.n), (12, BitVec.ofNat 32 k.seq)]
      (k.total = 0 → took { t with ro := ro 0, entries := List.replicate b (0, 0, 2), flags := 0, tasks := outs } after) ∧
      (∀ s1 es, (s.setStore o.sid after).drawAll o k k.seq b 0 b [] = .ok s1 (.ok es) → s1.comb = s.comb →
        Table.get? s1.stores o.sid = some after →
        let w := weigh o.sid k.n k.total (k.desc.toNat / 2 ^ 256 % 2 ^ 32) es
        took { t with ro := ro (k.total % 2 ^ 64), entries := w.1, flags := w.2
                      tasks := ((List.range b).zip es).filterMap (fun je =>
                        je.2.map (fun x => CombTask.copy x.1 (blockField o 256 64 + je.1 * k.recLen) (some je.1))) ++ outs } after))) ∧
  (∀ (s : State) (e : Engine) (k : Store) (level x c : Nat) (cs ds : List Nat), level < 5 →
    (∀ n, k.badNode level n = false) → (cs.map (k.sum level)).sum ≤ x → x < (cs.map (k.sum level)).sum + k.sum level c →
    s.pickChild e k level (cs ++ c :: ds) x none = .ok s (.ok (some (c, x - (cs.map (k.sum level)).sum)))) ∧
  (∀ (s : State) (o : TjOp) (rest : List CombTask), goesOn s o →
    let then' (o1 : TjOp) : Prop := ∃ u, exec (.combOperation o.die) s = .next u ∧ u.comb = [o1]
    (∀ j a h w fl s1 g, o.tasks = .entry j a :: rest → o.entries[j]? = some (h, w, fl) →
      s.codedWrite o.engine a 16 (h.toNat + w.toNat * 2 ^ 64 + fl.toNat * 2 ^ 96) = .ok s1 (.ok g) → s1.comb = s.comb →
      then' (taskDone o g)) ∧
    (∀ i p, o.tasks = .prio i p :: rest →
      (∀ s1 g, s.codedWrite o.engine (recordAt o.desc i) 4 p.toNat = .ok s1 (.ok g) → s1.comb = s.comb → then' (taskDone o g)) ∧
      (∀ s1 c g k, s.codedWrite o.engine (recordAt o.desc i) 4 p.toNat = .ok s1 (.error (c, g)) → s1.comb = s.comb → o.code = 0 →
        Table.get? s1.stores o.sid = some k → k.part = o.part →
        ∃ u, exec (.combOperation o.die) s = .next u ∧ Table.get? u.stores o.sid = some { k with broken := true } ∧
          u.comb = [{ o with code := c, sig := o.sig ||| g, tasks := [], arrived := true, finished := true }])) ∧
    (∀ i p gen line pois ls s1 g, o.tasks = .record i p gen :: rest → o.src = some ((line, pois) :: ls) →
      let first : Line := line.extractLsb' 224 32 ++ BitVec.ofNat 32 gen ++ line.extractLsb' 32 160 ++ p
      s.writeMarked o.engine (recordAt o.desc i + 32 * o.copied) ((((first, pois) :: ls).drop o.copied).take 32) 0 = .ok s1 (.ok g) →
      s1.comb = s.comb →
      then' (if ls.length + 1 ≤ o.copied + 32 then taskDone o g
        else { o with sig := o.sig ||| g, copied := o.copied + 32, arrived := true })) ∧
    (∀ i dst j ls s1, o.tasks = .copy i dst (some j) :: rest → o.buf = none → o.dstGone = false →
      s.readMarked o.engine ((List.range (recordLen o.desc / 32)).map (fun n => recordAt o.desc i + 32 * n)) [] = .ok s1 (.ok ls) →
      s1.comb = s.comb →
      let flagged (fl : BitVec 3) : List (DWord × Word × BitVec 3) :=
        o.entries.mapIdx (fun n e => if n = j then (e.1, e.2.1, fl) else e)
      (ls.any (·.2) = true → then' { taskDone o 0 with
        entries := flagged 4, code := if o.code = 0 then 8 else o.code }) ∧
      (ls.any (·.2) = false → then' { o with
        arrived := true, buf := some ls
        entries := flagged (if (ls.headD (0, false)).1.toNat / 2 ^ 64 % 2 ^ 32 + o.desc.toNat / 2 ^ 224 % 2 ^ 32 < o.ver.toNat
          then 1 else 0) })) ∧
    (∀ i dst j ls s1 g, o.tasks = .copy i dst j :: rest → o.buf = some ls →
      s.writeMarked o.engine (dst + 32 * o.copied) ((ls.drop o.copied).take 32) 0 = .ok s1 (.ok g) → s1.comb = s.comb →
      then' (if ls.length ≤ o.copied + 32 then taskDone o g
        else { o with sig := o.sig ||| g, copied := o.copied + 32, arrived := true }))) ∧
  (∀ (s : State) (n : Nat) (o : TjOp), s.comb.find? (fun o => o.n == n) = some o → o.finished = true →
    s.partRuns o.part = true →
    let wake : Packet := { seq := s.seqno, part := o.part, src := dieCore o.die
                           body := .wake o.tid o.seq { val := (tjStatus o).toNat, sig := o.sig
                                                       words := o.ro.flatMap (fun r => [BitVec.ofNat 32 r.1, r.2]) } }
    let u : State := { s with comb := s.comb.filter (fun q => q.n != n), net := s.net ++ [wake], seqno := s.seqno + 1 }
    ((o.block.getLsbD 31 = false ∨ o.checked = false) → exec (.combAnswer n) s = .next u) ∧
    (o.block.getLsbD 31 = true → o.checked = true → exec (.combAnswer n) s = .next { u with
      seqno := s.seqno + 2
      net := u.net ++ [{ seq := s.seqno + 1, part := o.part, src := dieCore o.die
                         body := .msg { core := o.core, cls := o.block.toNat / 2 ^ 27 % 16, sender := .comb o.die
                                        msg := { w0 := BitVec.ofNat 32 (o.form * 256 + o.sid), w1 := tjStatus o
                                                 w2 := o.handle.setWidth 32, w3 := (o.handle >>> 32).setWidth 32
                                                 sig := o.sig } } }] })) ∧
  (∀ (s : State) (die : Nat) (o : StackOp) (k : Stack), s.nextStackOp die = some o → s.stack? o.part o.stack = some k →
    let n := o.arg / 256
    let answers (a : Answer) : Prop := ∃ u, exec (.stackOperation die) s = .next u ∧ axAnswered s u die o a ∧
      u.stackTab = s.stackTab ∧ u.slots = s.slots
    let traps (reason : Nat) : Prop := answers { verdict := .trap 0x12 (reason * 256 + o.stack % 16) }
    (k.valid = false → traps 1) ∧
    (k.valid = true →
      (o.form = 0 → (k.hi < n ∨ k.depth = 65535 ∨ k.flen < k.total + n) → traps 2) ∧
      (o.form = 1 → k.depth = 0 → traps 3) ∧
      (3 ≤ o.form → k.depth < o.arg → traps 3) ∧
      (o.form = 2 → o.arg = 0 → answers { val := k.depth }) ∧
      (o.form = 2 → o.arg = 1 → answers { val := k.total }) ∧
      (o.form = 2 → o.arg = 3 → answers { val := k.hot }) ∧
      (o.form = 2 → o.arg = 2 → k.depth = 0 → answers { val := 0 }) ∧
      (∀ s1 len, k.depth ≠ 0 → s.frameLen o.engine k (k.depth - 1) = .ok s1 (.ok len) →
        (o.form = 2 → o.arg = 2 → ∃ u, exec (.stackOperation die) s = .next u ∧ axAnswered s1 u die o { val := 256 * len }) ∧
        (o.form = 1 → o.arg < 256 * len → ∃ u, exec (.stackOperation die) s = .next u ∧
          axAnswered s1 u die o { verdict := .trap 0x12 (5 * 256 + o.stack % 16) }) ∧
        (3 ≤ o.form → o.arg = 1 → k.job = none → ∃ u, exec (.stackOperation die) s = .next u ∧
          axAnswered s1 u die o { val := k.depth - 1 } ∧
          u.stack? o.part o.stack = some (if k.cold < k.depth
            then { k with depth := k.depth - 1, total := k.total - len, hot := k.hot - len
                          wtop := (k.wtop + k.wlen - len % k.wlen) % k.wlen, idle := none }
            else { k with depth := k.depth - 1, total := k.total - len, cold := k.cold - 1, idle := none }))) ∧
      (∀ s1 k1, 3 ≤ o.form → o.arg ≤ k.depth → s.dropFrames o.engine k o.arg = .ok s1 (.ok k1) →
        ∃ u, exec (.stackOperation die) s = .next u ∧ axAnswered s1 u die o { val := k.depth - o.arg } ∧
          u.stack? o.part o.stack = some k1 ∧ k1.depth = k.depth - o.arg) ∧
      (∀ s1 g, o.form = 0 → n ≤ k.hi → k.depth < 65535 → k.total + n ≤ k.flen →
        s.codedWrite o.engine (k.lbase + 4 * k.depth) 4 n = .ok s1 (.ok g) → s1.slots = s.slots →
        ∃ u c, exec (.stackOperation die) s = .next u ∧
          u.stack? o.part o.stack = some { k with depth := k.depth + 1, total := k.total + n, hot := k.hot + n
                                                  wtop := (k.wtop + n) % k.wlen, idle := none } ∧
          (u.queueAt o.core o.slot false).cmds = (s.queueAt o.core o.slot false).cmds ++ [c] ∧
          c.id = (s.queueAt o.core o.slot false).next ∧
          (∃ x, c.ax = some x ∧ x.push = true ∧ x.len = o.arg ∧ x.addr = o.addr ∧ x.ring = 256 * k.wtop ∧ x.stack = o.stack ∧
            x.frame = k.depth) ∧
          axAnswered s1 u die o { val := (s.queueAt o.core o.slot false).next.toNat }) ∧
      (∀ s1 len, o.form = 1 → k.depth ≠ 0 → s.frameLen o.engine k (k.depth - 1) = .ok s1 (.ok len) → s1.slots = s.slots →
        256 * len ≤ o.arg → k.cold < k.depth → k.job = none →
        ∃ u c, exec (.stackOperation die) s = .next u ∧
          u.stack? o.part o.stack = some { k with depth := k.depth - 1, total := k.total - len, hot := k.hot - len
                                                  wtop := (k.wtop + k.wlen - len % k.wlen) % k.wlen, idle := none } ∧
          (u.queueAt o.core o.slot false).cmds.map (·.id) = (s.queueAt o.core o.slot false).cmds.map (·.id) ++ [c.id] ∧
          (u.queueAt o.core o.slot false).cmds.getLast? = some c ∧ c.id = (s.queueAt o.core o.slot false).next ∧
          (∃ x, c.ax = some x ∧ x.push = false ∧ x.len = 256 * len ∧ x.addr = o.addr ∧ x.arm = o.w ∧ x.cold = none))))  ∧
  (∀ (s : State) (p st : Nat) (k : Stack) (j : StackJob), s.stack? p st = some k → k.job = some j → j.len ≠ 0 →
    (j.done = j.len →
      (j.spill = true → exec (.spillComplete p st) s =
        .next (s.setStack p st { k with job := none, idle := none, cold := k.cold + 1, hot := k.hot - j.len / 256 })) ∧
      (j.spill = false → exec (.recallComplete p st) s =
        .next (s.setStack p st { k with job := none, idle := none, cold := k.cold - 1, hot := k.hot + j.len / 256 }))) ∧
    (∀ s1, j.done ≠ j.len → j.pf = .clear → s.partRuns p = true → s.jobReady p st k j = true →
      s.moveJob p st k j = .ok s1 (.ok (Nat.min 1024 (j.len - j.done))) →
      exec (if j.spill then .spill p st else .recall p st) s = .next ((s1.forget (.sluice p st)).setStack p st
        { k with job := some { j with done := j.done + Nat.min 1024 (j.len - j.done), pf := .clear } }))) ∧
  (∀ (s s1 : State) (p st n : Nat) (k : Stack), s.stack? p st = some k → k.valid = true → k.job = none → k.idle = none →
    s.partRuns p = true →
    (k.cold < k.depth → k.hi < k.hot →
      s.frameLen (sluiceEngine p st k.home .clear) k k.cold = .ok s1 (.ok n) →
      exec (.spill p st) s = .next (({ s1 with seqno := s1.seqno + 1 }.forget (.sluice p st)).setStack p st { k with
        job := some { spill := true, len := 256 * n, ring := 256 * k.back k.hot, fen := k.fbase + 256 * (k.total - k.hot)
                      frame := k.cold, n := s1.seqno } })) ∧
    (k.hot < k.lo → 0 < k.cold → k.hot + n ≤ k.hi →
      s.frameLen (sluiceEngine p st k.home .clear) k (k.cold - 1) = .ok s1 (.ok n) →
      exec (.recall p st) s = .next (({ s1 with seqno := s1.seqno + 1 }.forget (.sluice p st)).setStack p st { k with
        job := some { spill := false, len := 256 * n, ring := 256 * k.back (k.hot + n), fen := k.fbase + 256 * (k.total - k.hot - n)
                      frame := k.cold - 1, n := s1.seqno } })))

/-! ## Events of the launch sequencers, the clocks and translation -/

/-- The life of a launch (R309–R316, R371). A ring entry read enters a launch with its descriptor, INVALID with the number of a
failing check, and HEAD moves on; a dependence is met when its counter has reached its value, unmet while its read waits for a
page answer or for a fault entry, and a failed read ends the launch; every 100 ticks the waiting launches' dependences are read
again; a launch that has waited 6,400 ticks rises a level; group tables that agree make it ready, others end it; at dispatch
exactly its threads begin, each with the values of R165; it retires when no thread of it is live, as STOPPED when one stopped,
and is gone once its counter is counted. A thread that has waited the watchdog's interval in waits that count traps; one in a
wait that R343 exempts does not. -/
def Obligations.LaunchEvents : Prop :=
  (∀ (s s1 : State) (p : Nat) (r : Fin 4) (v : Nat), s.ringReady p r.val = true →
    let x := (s.part p).rings[r]
    s.codedRead (s.seqEngine p r.val (.ring p r.val) x.pf) (x.base.toNat + 128 * (x.head % 2 ^ x.log)) 128 = .ok s1 (.ok v) →
    s1.parts = s.parts → (∀ l ∈ s1.launches, l.part = p → l.lid ≠ (s.part p).nextLid) →
    let code := s1.descCheck p (BitVec.ofNat 1024 v) true true
    ∃ u, exec (.ringEntryRead p r.val) s = .next u ∧ ((u.part p).rings[r]).head = (x.head + 1) % 2 ^ 16 ∧
      ∃ l ∈ u.launches, l.part = p ∧ l.lid = (s.part p).nextLid ∧ l.desc = BitVec.ofNat 1024 v ∧ l.ring = r.val ∧
        l.level = r.val ∧ l.ringEntry = some x.head ∧ (code = 0 → l.status = 0 ∧ l.phase ≠ .doneDue) ∧
        (code ≠ 0 → l.status = 5 ∧ l.why = code ∧ l.phase = .doneDue)) ∧
  (∀ (s : State) (p lid : Nat) (l : Launch), launchOf s p lid l → s.partRuns p = true → l.pf = .clear →
    (∀ n, l.phase = .waiting → (if n = 0 then l.read0 else l.read1) = true → (n = 0 ∨ n = 1 ∧ l.pf1 = .clear) →
      let addr := if n = 0 then descField l 703 640 else descField l 575 512
      let value := if n = 0 then descField l 639 576 else descField l 511 448
      let e := s.seqEngine p l.ring (.launch p lid n) .clear
      (∀ t rid, s.codedRead e addr 8 = .block t rid → (rid = none → (s.blocked t e.ag).pageHeld e.ag = true) →
        ∃ u k, exec (.dependenceRead p lid n) s = .next u ∧ launchOf u p lid k ∧ (if n = 0 then k.met0 else k.met1) = false ∧
          (∀ i, rid = some i → (if n = 0 then k.pf else k.pf1) = .waiting i)) ∧
      ∀ s1, s1.launches = s.launches →
      (∀ v, s.codedRead e addr 8 = .ok s1 (.ok v) →
        ∃ u k, exec (.dependenceRead p lid n) s = .next u ∧ launchOf u p lid k ∧ k.desc = l.desc ∧
          (if n = 0 then k.read0 else k.read1) = false ∧ ((if n = 0 then k.met0 else k.met1) = true ↔ value ≤ v)) ∧
      (∀ c, s.codedRead e addr 8 = .ok s1 (.error c) →
        ∃ u k, exec (.dependenceRead p lid n) s = .next u ∧ launchOf u p lid k ∧ k.phase = .doneDue ∧ k.status = 4)) ∧
    (l.phase = .waiting → l.met0 = true → l.met1 = true → l.level < 3 → l.mark + 6400 ≤ s.gtime + l.waited → l.mark ≤ s.gtime →
      ∃ u k, exec (.launchAgeing p lid) s = .next u ∧ launchOf u p lid k ∧ k.level = l.level + 1 ∧ k.waited = 0) ∧
    (l.phase = .admitted → ∀ s1 s2 gs ms, s2.launches = s.launches →
      s.readDwords (l.engine s) (descField l 895 832) (descField l 245 237) [] = .ok s1 (.ok gs) →
      s1.readDwords (l.engine s) (descField l 831 768) l.count [] = .ok s2 (.ok ms) →
      let counts := gs.map (fun g => g.toNat % 2 ^ 32)
      ∃ u k, exec (.groupTableRead p lid) s = .next u ∧ launchOf u p lid k ∧
        (groupsOk (descField l 245 237) counts ms = true → k.phase = .ready ∧ k.groups = counts ∧ k.members = ms) ∧
        (groupsOk (descField l 245 237) counts ms = false → k.phase = .doneDue ∧ k.status = 3)) ∧
    (l.phase = .ready → s.mayDispatch l = true → ∃ u ts k, exec (.launchDispatch p lid) s = .next u ∧
      u.threads = s.threads ++ ts ∧ ts.length = l.count ∧ (∀ i t, ts[i]? = some t → begun s l i t) ∧
      launchOf u p lid k ∧ k.phase = .running ∧ u.thr = s.thr ∧ u.dev = s.dev ∧ u.sectors = s.sectors) ∧
    (l.phase = .running → s.mayRetire l = true → ∃ u k, exec (.launchRetirement p lid) s = .next u ∧
      (∀ t ∈ u.allThreads, t.phase = .none ∨ t.tid.part ≠ p ∨ t.tid.lid ≠ lid) ∧ launchOf u p lid k ∧ k.phase = .doneDue ∧
      (l.status = 0 → (∀ t ∈ s.launchThreads p lid, t.phase ≠ .stopped) → k.status = 0) ∧
      (l.status = 0 → (∃ t ∈ s.launchThreads p lid, t.phase = .stopped) → k.status = 2)) ∧
    (l.phase = .doneDue → descField l 447 384 = 0 → ∃ u, exec (.doneIncrement p lid) s = .next u ∧
      (∀ k ∈ u.launches, k.part ≠ p ∨ k.lid ≠ lid) ∧ u.thr = s.thr ∧ u.sectors = s.sectors) ∧
    (∀ s1 x f, l.phase = .doneDue → descField l 447 384 ≠ 0 → descField l 447 384 % 8 = 0 → s1.launches = s.launches →
      s.engOp (l.engine s) (descField l 447 384) (.alu .add 8 1 0) = .ok s1 (.val x f) →
      ∃ u, exec (.doneIncrement p lid) s = .next u ∧ (∀ k ∈ u.launches, k.part ≠ p ∨ k.lid ≠ lid) ∧ u.sram = s1.sram)) ∧
  (∀ (s : State) (p : Nat), s.partRuns p = true → (s.part p).reread / 100 < s.gtime / 100 →
    ∃ u, exec (.dependenceReread p) s = .next u ∧ (u.part p).reread = s.gtime ∧
      u.launches = s.launches.map (fun l => if l.part = p ∧ l.phase = .waiting
        then { l with read0 := decide (descField l 703 640 ≠ 0), read1 := decide (descField l 575 512 ≠ 0) } else l)) ∧
  (∀ (s : State) (w : Wait), s.thr.phase = .parked w → s.thr.tvec ≠ 0 → s.partRuns s.thr.tid.part = true →
    s.thr.travelling = false → (s.part s.thr.tid.part).wdog ≠ 0 →
    let t := s.thr.tid
    ((w ∈ [.answer, .fetch, .release, .queueFull, .drain, .l1cfg] ∨ ∃ r, w = .ring r ∨ w = .tickets r) →
      (s.part t.part).wdog.toNat * 1024 ≤ s.thr.waited + (s.gtime - s.thr.parkTime) → exec (.watchdog t.part t.lid t.idx) s = .next
      (entered s 0 0x18 (BitVec.ofNat 64 (s.parkedAddr s.thr)) s.thr.pc (repstAt s.thr.rep))) ∧
    ((w ∈ [.idle, .message, .barrier, .groupRelease, .command, .rdmw, .fencee, .send, .visitor] ∨
        ∃ k, w = .push k ∨ w = .pop k ∨ w = .watermark k) → exec (.watchdog t.part t.lid t.idx) s = .next s))

/-- Ticks, clocks and power (R16, R101, R327–R329, R380): every 128 ticks a partition's OCCCNT is its number of sectors, and
OVER says whether it is above its limit; PWR and TMAX take their values every 1,000 ticks, and the module never draws more than
7,500 W; a droop stretches an elastic quad's next cycles by 1 to 4 eighths until it recovers; the power limit stretches every
elastic quad by at most 4 eighths, near it by 1 at least, and then the gate closes; a quad is pinned at an epoch tick for an
admitted FIXED launch, its cycles beginning with that tick, and unpinned when none holds slots there, each a change of the
capability table. Counts of cycles so far stand. -/
def Obligations.TimingEvents : Prop :=
  (∀ (s : State), s.gtime % 128 = 0 → ∃ u, exec .occupancyRecompute s = .next u ∧ u.sectors = s.sectors ∧ u.thr = s.thr ∧
    ∀ p, p ∈ s.parts.map (·.1) → (u.part p).occcnt = (s.sectors.filter (fun c => c.asn == p)).length ∧
      ((u.part p).overrun = true ↔ (s.part p).occlim ≠ 0 ∧
        (s.part p).occlim < (s.sectors.filter (fun c => c.asn == p)).length) ∧
      (u.part p).occlim = (s.part p).occlim ∧ (u.part p).state = (s.part p).state) ∧
  (∀ (s : State) (w t : Nat), s.gtime % 1000 = 0 → exec (.pwr w t) s = .next (if 7500 < w then s
    else { s with mgmt := { s.mgmt with pwr := BitVec.ofNat 32 w, tmax := BitVec.ofNat 8 t } })) ∧
  (∀ (s : State) (q n : Nat), q < 320 → s.haltDue = false → (s.clock q).pinned = false → 1 ≤ n → n ≤ 4 →
    exec (.droopTrip q n) s = .next (reclocked s q false n (s.clock q).limit)) ∧
  (∀ (s : State) (q : Nat), s.haltDue = false → (s.clock q).stretch ≠ 0 →
    exec (.droopRecovery q) s = .next (reclocked s q (s.clock q).pinned 0 (s.clock q).limit)) ∧
  (∀ (s : State) (near : Bool), s.haltDue = false →
    ∃ cs n, n ≤ 4 ∧ (near = true → n ≠ 0) ∧
      exec (.powerLimit near) s = .next { s with gate := near, clocks := cs, fresh := s.fresh + 1 } ∧
      ∀ q, q < 320 → Table.getD cs q {} = if (s.clock q).pinned then s.clock q
        else (reclocked s q false (s.clock q).stretch n).clock q) ∧
  (∀ (s : State) (q : Nat), s.gtime % 5 = 0 → s.frac = 0 → s.haltDue = false →
    let held := ∃ l ∈ s.launches, l.fixed = true ∧ (l.phase = .admitted ∨ l.phase = .ready ∨ l.phase = .running) ∧
      q ∈ s.launchQuads l
    let c := s.clock q
    let sofar := if 224 * s.gtime < c.since then c.cycles - 1 else c.cycles + (224 * s.gtime - c.since) / cycleLength c
    (c.pinned = false → held → exec (.pin q) s = .next { s with
      clocks := Table.set s.clocks q { cycles := sofar, since := 224 * s.gtime, pinned := true }, capgen := s.capgen + 1 }) ∧
    (c.pinned = true → ¬held →
      exec (.unpin q) s = .next { reclocked s q false c.stretch c.limit with capgen := s.capgen + 1 }))

/-- Translation as the host drives it (R85, R87–R92, R296). XCTL raises GEN and takes XROOT's root, or waits for the raise
before it; a slice adopts the new GEN and its old dirty lines go to their targets; when every target has adopted it and
nothing of the old GEN is in flight, DONE takes GEN, the lost flags clear and the host is told; the sweep drops exactly the
partition's lines of other generations. A page answer that matches no open entry is logged and changes nothing else; one
that matches closes its entry, and a request that waits for it walks again, or is answered with XLATE. PRQCFG sets HEAD and
the size. -/
def Obligations.TranslationEvents : Prop :=
  (∀ (s : State) (p : Nat) (v : DWord), p < 64 → v.getLsbD 0 = true →
    ((s.part p).inv = false → (s.part p).swp = false → exec (.raise p v) s = .next (withPart s p { s.part p with
      gen := (s.part p).gen + 1, root := (s.part p).xroot.toNat / 2 ^ 20 % 2 ^ 22 * 2 ^ 20, pend := false, inv := true
      raise := some { old := (s.part p).gen, before := s.seqno } })) ∧
    (((s.part p).inv = true ∨ (s.part p).swp = true) →
      exec (.raise p v) s = .next (withPart s p { s.part p with pend := true }))) ∧
  (∀ (s : State) (p j : Nat) (r : Raise), p < 64 → (s.part p).raise = some r → j ∉ r.adopted → j ∈ s.targets p →
    ∃ u x, exec (.adoptNewGen (64 * j + p)) s = .next u ∧ (u.part p).raise = some x ∧ x.old = r.old ∧ j ∈ x.adopted ∧
      (∀ k ∈ r.adopted, k ∈ x.adopted) ∧
      (∀ c ∈ s.sectors, c.asn = p → c.slice = j → c.gen = gen2 r.old → c.dirtyRows ≠ 0 →
        ∃ w ∈ u.wbs, w.n ∈ x.wbs ∧ w.slice = j ∧ w.target = c.target ∧ w.mask = c.dirtyRows ∧ w.rows = c.rows)) ∧
  (∀ (s : State) (p : Nat) (r : Raise), (s.part p).raise = some r → (∀ t ∈ s.targets p, t ∈ r.adopted) →
    s.landed r.wbs = true → s.oldDone p r = true → ∃ u, exec (.invalidationComplete p) s = .next u ∧
      (u.part p).done = (s.part p).gen ∧ (u.part p).inv = false ∧ (u.part p).swp = true ∧ (u.part p).raise = none ∧
      u.lost = s.lost.filter (fun k => k % 64 != p) ∧ u.sectors = s.sectors ∧ u.thr = s.thr) ∧
  (∀ (s : State) (p : Nat), (s.part p).swp = true → ∃ u, exec (.sweepComplete p) s = .next u ∧ (u.part p).swp = false ∧
    (∀ c, c ∈ u.sectors ↔ c ∈ s.sectors ∧ ∀ d ∈ s.sectors, d.asn = p → d.gen ≠ gen2 (s.part p).gen →
      ¬(c.slice = d.slice ∧ c.asn = d.asn ∧ c.vpn = d.vpn ∧ c.gen = d.gen)) ∧
    u.l1 = s.l1.filter (fun l => !(l.part == p && l.gen != gen2 (s.part p).gen)) ∧
    ((s.part p).pend = false → u.parts = (withPart s p { s.part p with swp := false }).parts) ∧
    ((s.part p).pend = true → (u.part p).gen = (s.part p).gen + 1 ∧ (u.part p).inv = true)) ∧
  (∀ (s : State) (p : Nat) (v : DWord), p < 64 → (s.part p).state = .running →
    let bad := v.extractLsb' 32 16 ≠ (s.part p).ctxgen ∨ v.toNat / 2 ^ 49 ≠ 0 ∨
      ∀ f ∈ s.faults, f.asn ≠ p ∨ f.rid ≠ v.toNat % 2 ^ 32
    (bad → exec (.pageAnswer p v) s = .next (s.logEntry 4 p v.toNat)) ∧
    (¬bad → ∀ h, s.held = [h] → h.req.part = p → h.stage = .faulted → h.pf = .waiting (v.toNat % 2 ^ 32) →
      ∃ u, exec (.pageAnswer p v) s = .next u ∧ (∀ f ∈ u.faults, f.rid ≠ v.toNat % 2 ^ 32) ∧
        (v.getLsbD 48 = false → ∃ k, u.held = [k] ∧ k.seq = h.seq ∧ k.req = h.req ∧ k.pf = .clear ∧
          k.stage = .walk 3 (s.part p).root (s.genAt p h.req.dst)) ∧
        (v.getLsbD 48 = true → u.held = [] ∧ ∃ k ∈ u.net, k.seq = h.seq ∧
          k.body = .answer h.req { verdict := .trap 0x04 h.req.va } (s.genAt p h.req.dst)))) ∧
  (∀ (s : State) (p : Nat) (v : DWord), p < 64 → ∃ u, exec (.prqcfg p v) s = .next u ∧
    (u.part p).prqhead = v.toNat / 2 ^ 32 % 2 ^ 12 ∧ (u.part p).prqlog = v.toNat % 2 ^ 4 ∧ u.thr = s.thr ∧ u.sectors = s.sectors)

/-! ## Events of the hive controller, of management and of the host -/

/-- Partition commands (R350–R367). Each is logged; while BUSY is set it gives CODE 1, and in a state that does not allow it
5. CREATE refuses a shape against R350, one that meets another partition's, and quads that are not ready, with 2, 3 and 4;
else the partition runs, with a key and a generation of its own. STOP and its like agree on the first multiple of 5 at least
150 ticks away, when issue ends; the stop is recorded once its packets are saved, and RESUME lets them go on at an epoch
tick, its FIXED launches in pinned quads. DESTROY frees a partition, of a saved one no slot that another holds; SAVE checks its
area, stops a running partition, and makes an image, whose units stand in the area, or ends with 7 where a host unit there
answers a write with an error; RESTORE takes the partition, stopped, from an image whose header and slot records stand there
whole, with every other record, and refuses one of another partition, generation or shape, or with a damaged header. -/
def Obligations.PartitionEvents : Prop :=
  (∀ (op : Nat) (i : Nat → Instr) (ok : List PState), partCommand op i ok → ∀ (s : State) (p : Nat), p < 64 →
    ((s.part p).busy = true → ∃ u, exec (i p) s = .next u ∧ (u.part p) = { s.part p with code := 1 } ∧
      u.log = (s.logEntry 1 p op).log ∧ u.threads = s.threads) ∧
    ((s.part p).busy = false → (s.part p).state ∉ ok → ∃ u, exec (i p) s = .next u ∧ codeOf s u p op 5 ∧
      (u.part p).state = (s.part p).state ∧ u.threads = s.threads)) ∧
  (∀ (s : State) (p op : Nat), p < 64 → (op = 0 ∨ 8 ≤ op) → exec (.opUndefined p op) s =
    .next (s.setPart p { s.part p with code := if (s.part p).busy then 1 else 5 })) ∧
  (∀ (s : State) (p : Nat), p < 64 → (s.part p).busy = false → (s.part p).state = .free →
    let sh := (s.part p).pshape
    let other := s.parts.any (fun q => q.1 != p && (q.2.shapes.any (shapesMeet sh) || q.2.grants.any (bitsMeet (s.part p).pgrant)))
    let ready := ∀ q ∈ shQuads sh, s.quadReady q = true
    (shapeOk sh = false → ∃ u, exec (.create p) s = .next u ∧ codeOf s u p 1 2 ∧ (u.part p).state = .free) ∧
    (shapeOk sh = true → other = true → ∃ u, exec (.create p) s = .next u ∧ codeOf s u p 1 3 ∧ (u.part p).state = .free) ∧
    (shapeOk sh = true → other = false → ¬ready → ∃ u, exec (.create p) s = .next u ∧ codeOf s u p 1 4 ∧
      (u.part p).state = .free) ∧
    (shapeOk sh = true → other = false → ready → ∃ u, exec (.create p) s = .next u ∧ codeOf s u p 1 0 ∧
      (u.part p).state = .running ∧ (u.part p).pcur = sh ∧ (u.part p).ctl = (s.part p).pctl ∧
      (u.part p).memr = (s.part p).pmem ∧ (u.part p).linkr = (s.part p).plink ∧ (u.part p).grant = (s.part p).pgrant ∧
      (u.part p).gen = 0 ∧ (u.part p).ctxgen = (s.part p).ctxgen + 1 ∧ (u.part p).key = some s.nextKey ∧
      u.nextKey = s.nextKey + 1 ∧ (u.part p).nextLid = 1 ∧ (u.part p).axtbl = 0 ∧ (u.part p).tjtbl = 0 ∧
      (∀ b, Table.get? u.tags b ≠ some p) ∧ u.capgen = s.capgen + 1)) ∧
  (∀ (s : State) (p : Nat), p < 64 → (s.part p).busy = false → (s.part p).state = .running → (s.part p).stop = none →
    let stops (w : StopFor) : Option StopAt := some { g := (s.gtime + 154) / 5 * 5, why := w }
    (∃ u, exec (.stop p) s = .next u ∧ (u.part p).stop = stops .stop ∧ (u.part p).busy = true ∧ u.threads = s.threads) ∧
    (∃ u, exec (.destroy p) s = .next u ∧ (u.part p).stop = stops .destroy ∧ (u.part p).busy = true)) ∧
  (∀ (s : State) (p : Nat), p < 64 → (s.part p).busy = false → ((s.part p).state = .running ∨ (s.part p).state = .stopped) →
    let c : Claim := { (s.part p).request with shape := (s.part p).pcur, grant := (s.part p).grant }
    let base := (s.part p).pctx.toNat % 2 ^ 63
    let len := (s.part p).ctxlen.toNat
    let area : Prop := base % 4096 = 0 ∧ ((s.part p).pctx.getLsbD 63 = true ∨ populated base = true ∧ base % 2 ^ 37 + len ≤ tierLength (base / 2 ^ 37 % 2))
    (area → ∃ u, exec (.save p) s = .next u ∧ (u.part p).claim = some c ∧ (u.part p).busy = true ∧ u.thr = s.thr ∧ u.threads = s.threads ∧
      u.log = (s.logEntry 1 p 6).log ∧
      ((s.part p).state = .stopped → (u.part p).working = some 6 ∧ (u.part p).stop = (s.part p).stop) ∧
      ((s.part p).state = .running → (u.part p).stop = some { g := (s.gtime + 154) / 5 * 5, why := .save })) ∧
    (¬area → ∃ u, exec (.save p) s = .next u ∧ codeOf s u p 6 7)) ∧
  (∀ (s : State) (p : Nat) (x : StopAt), (s.part p).stop = some x → x.halted = false → x.g ≤ s.gtime →
    exec (.stopHalt p) s = .next (s.setPart p { s.part p with
      stop := some { x with halted := true }, haltTime := x.g
      haltCycles := (List.range 320).map (fun q => (q, (s.clock q).at (224 * x.g))) })) ∧
  (∀ (s : State) (p x y : Nat) (a : StopAt), (s.part p).stop = some a → a.halted = true → a.why = .stop → x < 640 → y < 640 →
    s.settled p = true → (∀ k ∈ s.swept, k.part = p) → (∀ k ∈ s.net, k.part = p → k.src = x + 640 * y ∧ s.granted k = true) →
    (∀ k ∈ s.net, ∀ r, k.body ≠ .redeem r) → s.stores = [] → s.stackTab = [] →
    ∃ u, exec (.flushToken p x y) s = .next u ∧ (u.part p).state = .stopped ∧ (u.part p).stopt = BitVec.ofNat 64 a.g ∧
      (u.part p).stop = none ∧ (u.part p).code = 0 ∧ (u.part p).busy = false ∧
      u.net = s.net.filter (fun k => !(k.part == p && k.src == x + 640 * y)) ∧
      u.swept = s.swept ++ s.net.filter (fun k => k.part == p && k.src == x + 640 * y) ∧ u.thr = s.thr) ∧
  (∀ (s : State) (p : Nat), p < 64 → (s.part p).busy = false → (s.part p).state = .stopped →
    (∃ u, exec (.resume p) s = .next u ∧ (u.part p).working = some 5 ∧ (u.part p).back = true ∧ (u.part p).busy = true) ∧
    (∃ u, exec (.destroy p) s = .next u ∧ codeOf s u p 3 0 ∧ (u.part p).state = .free ∧ (u.part p).key = none ∧
      (u.part p).pcur = 0 ∧ (u.part p).ctxgen = (s.part p).ctxgen + 1 ∧ (∀ t ∈ u.threads, t.tid.part ≠ p) ∧
      (∀ c ∈ u.sectors, c.asn ≠ p) ∧ (∀ l ∈ u.launches, l.part ≠ p) ∧ ∀ k ∈ u.net, k.part ≠ p)) ∧
  (∀ (s : State) (p : Nat), p < 64 → (s.part p).busy = false → (s.part p).state = .saved →
    ∃ u, exec (.destroy p) s = .next u ∧ codeOf s u p 3 0 ∧ (u.part p).state = .free ∧ u.slots = s.slots ∧ u.classes = s.classes) ∧
  (∀ (s : State) (p : Nat), (s.part p).working = some 5 → (s.part p).back = true →
    let pinned := ∀ l ∈ s.launches, l.part = p → l.fixed = true → (l.phase = .admitted ∨ l.phase = .ready ∨ l.phase = .running) →
      ∀ q ∈ s.launchQuads l, (s.clock q).pinned = true
    (s.gtime % 5 = 0 → s.frac = 0 → pinned → ∃ u, exec (.partitionCommandEnded p false) s = .next u ∧ (u.part p).state = .running ∧
      (u.part p).stop = none ∧ (u.part p).code = 0 ∧ (u.part p).busy = false ∧ (u.part p).working = none ∧
      (∀ k ∈ u.swept, k.part ≠ p)) ∧
    ((s.gtime % 5 ≠ 0 ∨ s.frac ≠ 0 ∨ ¬pinned) → exec (.partitionCommandEnded p false) s = .next s)) ∧
  (∀ (s : State) (p : Nat) (c : Claim), (s.part p).claim = some c → (s.part p).working = some 6 →
    let units := ((s.part p).ctxlen.toNat + 31) / 32
    let failed (e : Bool × Nat) : Prop := e.1 = true ∧ c.area.toNat % 2 ^ 63 / 32 ≤ e.2 ∧ e.2 < c.area.toNat % 2 ^ 63 / 32 + units
    ((c.area.getLsbD 63 = true → ∀ e ∈ s.hostErr, ¬failed e) →
      ∃ u, exec (.partitionCommandEnded p false) s = .next u ∧ (u.part p).state = .saved ∧ (u.part p).code = 0 ∧
        (∀ t ∈ u.threads, t.tid.part ≠ p) ∧ ∃ m ∈ u.images, m.part = p ∧ m.ctxgen = (s.part p).ctxgen ∧
          m.shape = (s.part p).pcur ∧ m.units = units ∧
          m.threads = s.allThreads.filter (fun t => t.phase != .none && t.tid.part == p) ∧
          ∀ k i, (s.part p).key = some k → c.area.getLsbD 63 = false → i < m.units →
            u.devRead (some k) (c.area.toNat % 2 ^ 63 + 32 * i) = (Config.imageUnit m.n i, false)) ∧
    (c.area.getLsbD 63 = true → (∃ e ∈ s.hostErr, failed e) → (s.part p).back = false →
      ∃ u, exec (.partitionCommandEnded p false) s = .next u ∧ (u.part p).state = (s.part p).state ∧ (u.part p).code = 7 ∧
        u.threads = s.threads ∧ u.images = s.images)) ∧
  (∀ (s : State) (p : Nat), p < 64 → (s.part p).busy = false → (s.part p).state = .saved →
    let c : Claim := { (s.part p).request with grant := (s.part p).grant }
    (c.areaOk (Config.contextLength c.shape).toNat = false → ∃ u, exec (.restore p) s = .next u ∧ codeOf s u p 7 7) ∧
    (c.areaOk (Config.contextLength c.shape).toNat = true → s.claimCode p c = 0 →
      ∃ u, exec (.restore p) s = .next u ∧ (u.part p).claim = some c ∧ (u.part p).working = some 7)) ∧
  (∀ (s : State) (p : Nat) (c : Claim), (s.part p).claim = some c → (s.part p).working = some 7 → (∀ e ∈ s.hostErr, e.1 = true) →
    let refused : Prop := ∃ u, exec (.partitionCommandEnded p false) s = .next u ∧ (u.part p).code = 6 ∧
      (u.part p).state = (s.part p).state
    (s.images = [] → refused) ∧
    (∀ m, s.images = [m] →
      (m.part ≠ p ∨ m.ctxgen ≠ (s.part p).ctxgen ∨ m.shape ≠ c.shape ∨
        (∃ i, i < m.units ∧ Config.imageRecord m.n i = 0 ∧ s.unitKept p c m i = false) → refused) ∧
      (m.part = p → m.ctxgen = (s.part p).ctxgen → m.shape = c.shape → (∀ i, i < m.units → s.unitKept p c m i = true) →
        ∃ u, exec (.partitionCommandEnded p false) s = .next u ∧ (u.part p).code = 0 ∧ (u.part p).state = .stopped ∧
          (u.part p).pcur = c.shape ∧ u.threads = s.threads ++ m.threads ∧ u.launches = s.launches ++ m.launches ∧
          u.swept = s.swept ++ m.packets) ∧
      (m.part = p → m.ctxgen = (s.part p).ctxgen → m.shape = c.shape →
        (∀ i, i < m.units → Config.imageRecord m.n i = 0 → s.unitKept p c m i = true) →
        (∀ i, i < m.units → Config.imageRecord m.n i ∈ (List.range m.threads.length).map (· + 1) → s.unitKept p c m i = true) →
        ∃ u, exec (.partitionCommandEnded p false) s = .next u ∧ (u.part p).code = 0 ∧ (u.part p).state = .stopped ∧
          u.threads = s.threads ++ m.threads ∧ u.launches = s.launches ++ m.launches ∧ u.swept = s.swept ++ m.packets ∧
          u.faultWaits = s.faultWaits ++ m.faultWaits))) ∧
  (∀ (s : State) (p : Nat), p < 64 → (s.part p).busy = false → (s.part p).state = .running →
    (shapeOk (s.part p).pshape = false → ∃ u, exec (.reshape p) s = .next u ∧ codeOf s u p 2 2 ∧
      (u.part p).pcur = (s.part p).pcur) ∧
    (shapeOk (s.part p).pshape = true → grows (s.part p).pcur (s.part p).pshape = true →
      sameRegion (s.part p).pcur (s.part p).pshape = true → s.claimCode p (s.part p).request = 0 → s.launches = [] →
      ∃ u, exec (.reshape p) s = .next u ∧ codeOf s u p 2 0 ∧ (u.part p).pcur = (s.part p).pshape ∧
        (u.part p).state = .running))

/-- Management (R378–R382). A start verifies the image that NEXT names, then the other, and runs the first that verifies;
firmware then runs on every die; a die becomes ready or fails once, which changes the capability table. Firmware commands are
logged and give BUSY during a load: LOAD invalidates the slot that is not running, its verification ends with its code, NEXTA
and NEXTB need a valid slot, COMMIT raises SVNMIN to the running version, and other commands are BADOP. ATGO gives 1 while a
report is in progress, 2 for a FREE partition and 3 for a bad buffer, and else writes the report of R382 there. A module reset
leaves the state after reset, with a new management key; the images and the bytes of device and host memory stay. -/
def Obligations.ManagementEvents : Prop :=
  (∀ (s : State), s.mgmt.stage = 0 → s.mgmt.tried = false →
    let ok (b : Bool) : Bool := (if b then s.mgmt.bval else s.mgmt.aval) &&
      decide (s.mgmt.svnmin.toNat ≤ (if b then s.mgmt.svnb else s.mgmt.svna).toNat)
    ∃ u, exec .imageVerified s = .next u ∧ u = withMgmt s u.mgmt ∧ u.mgmt.tried = true ∧
      (ok s.mgmt.next = true → u.mgmt.stage = 1 ∧ u.mgmt.act = s.mgmt.next) ∧
      (ok s.mgmt.next = false → ok (!s.mgmt.next) = true → u.mgmt.stage = 1 ∧ u.mgmt.act = !s.mgmt.next) ∧
      (ok s.mgmt.next = false → ok (!s.mgmt.next) = false → u.mgmt.stage = 0)) ∧
  (∀ (s : State), s.mgmt.stage = 1 → exec .firmwareRunsOnEveryDie s = .next (withMgmt s { s.mgmt with stage := 2 })) ∧
  (∀ (s : State) (d : Nat), d < 16 → s.mgmt.dready.getLsbD d = false → s.mgmt.dfail.getLsbD d = false →
    (2 ≤ s.mgmt.stage → exec (.dieReady d) s = .next { withMgmt s { s.mgmt with
      dready := s.mgmt.dready ||| (1#16 <<< d), stage := 3 } with capgen := s.capgen + 1 }) ∧
    (1 ≤ s.mgmt.stage → ∃ u, exec (.dieFailed d) s = .next u ∧ u.mgmt.dfail = s.mgmt.dfail ||| (1#16 <<< d) ∧
      u.capgen = s.capgen + 1 ∧ u.mgmt.logcnt = s.mgmt.logcnt + 1 ∧ u.mgmt.dready = s.mgmt.dready)) ∧
  (∀ (s : State),
    let w (op : Nat) : State := fwLogged s op
    let busy (op : Nat) : State := withMgmt (w op) { (w op).mgmt with fwcode := 1 }
    (s.mgmt.fwbusy = true → exec .load s = .next (busy 1) ∧ exec .nexta s = .next (busy 2) ∧ exec .nextb s = .next (busy 3) ∧
      exec .commit s = .next (busy 4)) ∧
    (s.mgmt.fwbusy = false →
      (∃ u, exec .load s = .next u ∧ u.mgmt.fwbusy = true ∧ u.mgmt.loading = some (if 2 ^ 26 < s.mgmt.fwlen.toNat then ([], true)
          else (s.hostBytes s.mgmt.fwaddr.toNat s.mgmt.fwlen.toNat, s.hostFails s.mgmt.fwaddr.toNat s.mgmt.fwlen.toNat)) ∧
        (s.mgmt.act = false → u.mgmt.bval = false ∧ u.mgmt.aval = s.mgmt.aval) ∧
        (s.mgmt.act = true → u.mgmt.aval = false ∧ u.mgmt.bval = s.mgmt.bval)) ∧
      (exec .nexta s = .next (withMgmt (w 2) (if s.mgmt.aval then { (w 2).mgmt with next := false, fwcode := 0 }
        else { (w 2).mgmt with fwcode := 2 }))) ∧
      (exec .nextb s = .next (withMgmt (w 3) (if s.mgmt.bval then { (w 3).mgmt with next := true, fwcode := 0 }
        else { (w 3).mgmt with fwcode := 2 }))) ∧
      (exec .commit s = .next (withMgmt (w 4) { (w 4).mgmt with
        fwcode := 0
        svnmin := .ofNat 16 (Nat.max s.mgmt.svnmin.toNat (if s.mgmt.act then s.mgmt.svnb else s.mgmt.svna).toNat) })) ∧
      (∀ op, (op = 0 ∨ 5 ≤ op) → exec (.fwopUndefined op) s = .next (withMgmt (w op) { (w op).mgmt with fwcode := 5 })))) ∧
  (∀ (s : State) (image : List Byte) (bad : Bool), s.mgmt.loading = some (image, bad) → ∃ u, exec .fwVerifyDone s = .next u ∧
    u = withMgmt s u.mgmt ∧ u.mgmt.fwbusy = false ∧ u.mgmt.loading = none ∧
    u.mgmt.fwcode = (if bad = true then 4 else if imageSigned image = false then 2
      else if (Config.imageSvn image).toNat < s.mgmt.svnmin.toNat then 3 else 0) ∧
    ((if s.mgmt.act then u.mgmt.aval else u.mgmt.bval) = true ↔ u.mgmt.fwcode = 0) ∧
    (if s.mgmt.act then u.mgmt.svna else u.mgmt.svnb) = Config.imageSvn image ∧
    (if s.mgmt.act then u.mgmt.imga else u.mgmt.imgb) = image) ∧
  (∀ (s : State) (v : DWord),
    let p := v.toNat % 64
    let a := s.mgmt.ataddr.toNat
    (v.getLsbD 8 = false → exec (.atgo v) s = .next (withMgmt s { s.mgmt with atpart := p })) ∧
    (v.getLsbD 8 = true → 224 * s.gtime + s.frac < s.mgmt.atend →
      exec (.atgo v) s = .next (withMgmt s { s.mgmt with atpart := p, atcode := 1 })) ∧
    (v.getLsbD 8 = true → s.mgmt.atend ≤ 224 * s.gtime + s.frac →
      (((s.part p).state = .free ∨ a % 64 ≠ 0 ∨ s.bufferFails a = true) → ∃ u, exec (.atgo v) s = .next u ∧ u.mgmt.atpart = p ∧
        u.mgmt.logcnt = s.mgmt.logcnt + 1 ∧ u.host = s.host ∧ u.dev = s.dev ∧ u.thr = s.thr ∧
        u.mgmt.atcode = if (s.part p).state = .free then 2 else 3) ∧
      ((s.part p).state ≠ .free → a % 64 = 0 → s.bufferFails a = false → ∃ u, exec (.atgo v) s = .next u ∧ u.mgmt.atpart = p ∧
        u.mgmt.logcnt = s.mgmt.logcnt + 1 ∧ u.mgmt.atcode = 0 ∧ u.dev = s.dev ∧ u.thr = s.thr ∧
        let byte (i : Nat) : Byte := Memory.read u.host (a + i)
        let field (lo n : Nat) : Nat := leNat ((List.range n).map (fun i => byte (lo + i)))
        let digest (lo : Nat) (d : BitVec 512) : Prop := ∀ i, i < 64 → byte (lo + i) = d.extractLsb' (8 * (63 - i)) 8
        let ls := (s.launches.filter (fun l => l.part == p && (l.phase == .admitted || l.phase == .ready || l.phase == .running))).mergeSort
          (fun a b => a.lid ≤ b.lid)
        let x := s.part p
        field 0 4 = 1 ∧ field 4 4 = p ∧ field 8 8 = s.gtime % 2 ^ 64 ∧ (∀ i, i < 32 → some (byte (16 + i)) = (s.nonce a)[i]?) ∧
        digest 48 (sha512 (if s.mgmt.act then s.mgmt.imgb else s.mgmt.imga)) ∧ digest 112 Config.romDigest ∧
        field 176 8 = x.pcur.toNat ∧ field 184 8 = x.pctl.toNat ∧ field 192 8 = x.pmem.toNat ∧ field 200 8 = x.plink.toNat ∧
        field 208 8 = x.pgrant.toNat ∧ field 216 4 = ls.length % 2 ^ 32 ∧
        (∀ k, k < 16 → field (220 + 12 * k) 4 = (match ls[k]? with | some l => l.lid % 2 ^ 32 | none => 0) ∧
          field (224 + 12 * k) 8 = (match ls[k]? with | some l => l.sigHL.toNat | none => 0)) ∧
        field 412 36 = 0 ∧ digest 448 (Config.identitySignature (sha512 ((List.range 448).map byte))) ∧
        ∀ y, (y < a ∨ a + 512 ≤ y) → Memory.read u.host y = Memory.read s.host y))) ∧
  (∀ (s : State), ∃ u, exec .moduleReset s = .next u ∧ u.thr = {} ∧ u.threads = [] ∧ u.tags = [] ∧ u.sectors = [] ∧
    u.parts = [] ∧ u.launches = [] ∧ u.images = [] ∧ u.gtime = 0 ∧ u.mgmt.stage = 0 ∧ u.mgmt.svnmin = s.mgmt.svnmin ∧
    u.mgmt.aval = s.mgmt.aval ∧ u.mgmt.bval = s.mgmt.bval ∧ u.mgmtKey = s.nextKey ∧ u.dev = s.dev ∧ u.host = s.host ∧
    u.devKey = s.devKey)

/-- The host's registers (R85, R101, R269, R349, R352, R370–R376, R380): each write stores the bits that its register has, and
no others; a ring's TAIL drops the partition's clean sectors, and more entries than the ring holds are an overrun; a new base
ends what waits for the ring; EVHEAD and EVBASE let held events go; a new AXTBL or TJTBL unloads the partition's stacks or
stores; CLR clears a die's counts; an unmasked vector or function sends its held message; a function-level reset counts, and
clears the event side but the masks.
The numbering of the HDM ranges and what PCTL stores for another MAXS are the model's choice (DESIGN CHOICE, log entries 79
and 89). -/
def Obligations.RegisterWrites : Prop :=
  (∀ (s : State) (p : Nat) (r : Fin 4) (v : DWord), p < 64 → (s.part p).state ≠ .free →
    ∃ u x, exec (.tail p r.val v) s = .next u ∧ x = (u.part p).rings[r] ∧ x.tail = v.toNat / 2 ^ 32 % 2 ^ 16 ∧
      x.log = v.toNat / 2 ^ 16 % 2 ^ 4 ∧ x.base = ((s.part p).rings[r]).base ∧ x.head = ((s.part p).rings[r]).head ∧
      (x.overrun = true ↔ 2 ^ x.log < (x.tail + 2 ^ 16 - x.head) % 2 ^ 16) ∧ (x.overrun = true → (u.fn (p + 1)).rerr = true) ∧
      (∀ c ∈ u.sectors, c.asn = p → c.dirtyRows ≠ 0) ∧ u.thr = s.thr) ∧
  (∀ (s : State) (fn : Nat) (v : DWord), s.fnExists fn = true →
    (∃ u, exec (.evhead fn v) s = .next u ∧ (u.fn fn).evhead = v.toNat / 2 ^ 32 % 2 ^ 12 ∧ (u.fn fn).evlog = v.toNat % 2 ^ 4 ∧
      ((s.fn fn).backlog = [] → (u.fn fn).outstanding = false ∧ u.host = s.host)) ∧
    (∃ u, exec (.evbase fn v) s = .next u ∧ (u.fn fn).evbase = v ∧ (u.fn fn).evlog = (s.fn fn).evlog)) ∧
  (∀ (s : State) (p : Nat) (v : DWord), p < 64 → (s.part p).state ≠ .free →
    (∃ u, exec (.axtbl p v) s = .next u ∧ u.part p = { s.part p with axtbl := v, axReload := [] } ∧
      u.stackTab = s.stackTab.filter (fun k => k.1 / 16 != p) ∧ u.thr = s.thr ∧ u.sectors = s.sectors ∧
      ∀ st, st < 16 → ∀ x ∈ u.axPending p st, x.push = true → x.gone = true) ∧
    exec (.tjtbl p v) s = .next (State.setPart { s with stores := s.stores.filter (fun k => k.2.part != p) } p
      { s.part p with tjtbl := v, tjReload := [] })) ∧
  (∀ (s : State) (die : Nat) (v : DWord), exec (.clr die v) s =
    .next (if v.getLsbD 0 then { s with errs := Table.erase s.errs die } else s)) ∧
  (∀ (s : State) (p : Nat) (v : DWord), p < 64 →
    let put (block off : Nat) (x : Part) : Prop := exec (.registerWrite block p off v) s = .next (s.setPart p x)
    put 0 0x00 { s.part p with xroot := v &&& 0x3FFFFF00000 } ∧ put 0 0x20 { s.part p with prqbase := v } ∧
    put 1 0x00 { s.part p with occlim := v.toNat % 2 ^ 21 } ∧
    put 2 0x00 { s.part p with pshape := v &&& 0xFFFFFFF1FF } ∧
    put 2 0x08 { s.part p with pctl := (v &&& 0xFFFF0000) ||| (if v.toNat % 8 = 4 then 4 else 6) } ∧
    put 2 0x10 { s.part p with pmem := v &&& 0xFFFF0000FFFF } ∧ put 2 0x18 { s.part p with plink := v &&& 0xFFFF0000FFFF } ∧
    put 2 0x20 { s.part p with pgrant := v } ∧ put 2 0x40 { s.part p with pctx := v } ∧
    ((s.part p).state ≠ .free → put 3 0x70 { s.part p with wdog := v.setWidth 32 } ∧
      exec (.registerWrite 3 p 0x58 v) s = .next (s.setFn (p + 1) { s.fn (p + 1) with
        rerr := (s.fn (p + 1)).rerr && !v.getLsbD 5, ovf := (s.fn (p + 1)).ovf && !v.getLsbD 4 }) ∧
      ∀ r : Fin 4, exec (.registerWrite 3 p (16 * r.val) v) s = .next ((s.dropWaits (.ring p r.val)).setPart p
        { s.part p with rings := (s.part p).rings.set r { (s.part p).rings[r] with base := v } })) ∧
    exec (.registerWrite 5 p 0 v) s = .next { s with modnum := v.toNat % 2 ^ 10 } ∧
    exec (.registerWrite 7 p 0x10 v) s = .next (withMgmt s { s.mgmt with fwaddr := v }) ∧
    exec (.registerWrite 7 p 0x18 v) s = .next (withMgmt s { s.mgmt with fwlen := v }) ∧
    exec (.registerWrite 7 p 0x30 v) s = .next (withMgmt s { s.mgmt with ataddr := v }) ∧
    exec (.registerWrite 7 p 0x38 v) s = .next (withMgmt s { s.mgmt with atpart := v.toNat % 64 })) ∧
  (∀ (s : State) (w : Nat) (v : DWord), w < 256 →
    let old := Table.getD s.windows w 0
    let put (off : Nat) (x : Line) : Prop := exec (.registerWrite 6 w off v) s = .next { s with windows := Table.set s.windows w x }
    put 0 (old.extractLsb' 64 192 ++ (v &&& 0x3FFFFFFFFFF)) ∧
    put 8 (old.extractLsb' 128 128 ++ (v &&& 0x3FFFF000000) ++ old.extractLsb' 0 64)) ∧
  (∀ (s : State) (dec off : Nat) (v : DWord), dec ≤ 64 →
    let k := 65 * (off / 16) + dec
    let r := Table.getD s.hdm k (0, 0)
    exec (.registerWrite 10 dec off v) s = .next { s with
      hdm := Table.set s.hdm k (if off % 16 < 8 then (v.toNat, r.2) else (r.1, v.toNat)) }) ∧
  (∀ (s : State) (fn : Nat) (v : DWord), s.fnExists fn = true →
    (v.getLsbD 0 = true → exec (.registerWrite 8 fn 0 v) s = .next (s.setFn fn { s.fn fn with masked0 := true }) ∧
      exec (.registerWrite 9 fn 0 v) s = .next (s.setFn fn { s.fn fn with fmask := true })) ∧
    (v.getLsbD 0 = false → exec (.registerWrite 8 fn 0 v) s = exec (.vectorUnmask fn 0) s ∧
      ((s.fn fn).pending0 = false → (s.fn fn).pending1 = false →
        exec (.registerWrite 9 fn 0 v) s = .next (s.setFn fn { s.fn fn with fmask := false })) ∧
      ((s.fn fn).pending0 = true → (s.fn fn).pending1 = false → (s.fn fn).masked0 = false →
        ∃ u, exec (.registerWrite 9 fn 0 v) s = .next u ∧ u.out = s.out ++ [.msix fn 0] ∧
          u.fn fn = { s.fn fn with fmask := false, pending0 := false, outstanding := true }))) ∧
  (∀ (s : State) (fn : Nat), s.fnExists fn = true → (s.fn fn).pending0 = false →
    exec (.vectorUnmask fn 0) s = .next (s.setFn fn { s.fn fn with masked0 := false, pending0 := false })) ∧
  (∀ (s : State) (fn : Nat), s.fnExists fn = true → (s.fn fn).pending0 = true → (s.fn fn).fmask = false →
    ∃ u, exec (.vectorUnmask fn 0) s = .next u ∧ u.out = s.out ++ [.msix fn 0] ∧ (u.fn fn).masked0 = false ∧
      (u.fn fn).pending0 = false ∧ (u.fn fn).outstanding = true) ∧
  (∀ (s : State) (p : Nat), p < 64 → (s.part p).state ≠ .free → exec (.functionLevelReset p) s =
    .next (s.setFn (p + 1) { rcnt := (s.fn (p + 1)).rcnt + 1, fmask := (s.fn (p + 1)).fmask, masked0 := (s.fn (p + 1)).masked0
                             masked1 := (s.fn (p + 1)).masked1 }))

/-- The host, peers and the board (R333, R349, R369, R375–R378). CXL.mem reads or writes 32 bytes under the key of its decoder,
and an address that the decoder does not map, a die that is not ready or an error that the read meets is answered with an
error; no slice holds a host line; a peer's request is served under the key of
the first window that admits it, or refused; a link that goes down ends what is in flight on it in an error; a retry is
counted; the board controller reads sensors, power and the log, and selects a valid image; JTAG only holds its
instruction. -/
def Obligations.HostEvents : Prop :=
  (∀ (s : State) (dec pa : Nat),
    let key := if dec = 0 then some s.mgmtKey else (s.part (dec - 1)).key
    let mapped := ∃ e ∈ s.hdm, e.1 % 65 = dec ∧ e.2.1 ≤ pa ∧ pa < e.2.1 + e.2.2
    let ok := populated pa = true ∧ dec ≤ 64 ∧ mapped ∧ s.mgmt.dready.getLsbD (pa / 2 ^ 38 % 16) = true
    (∀ w, ¬ok → exec (.cxlMemAccess dec pa w) s = .next (sent s .cxlError)) ∧
    (ok → pa / 32 ∉ s.devErr → exec (.cxlMemAccess dec pa none) s = .next (sent s
      (if (s.devRead key pa).2 then .cxlError else .cxlData (s.devRead key pa).1))) ∧
    (ok → pa / 32 ∈ s.devErr → ∃ u, exec (.cxlMemAccess dec pa none) s = .next u ∧ u.out = s.out ++ [.cxlError] ∧
      pa / 32 ∉ u.devErr ∧ u.dev = s.dev ∧ u.sectors = s.sectors) ∧
    (∀ l k, ok → key = some k → ∃ u, exec (.cxlMemAccess dec pa (some l)) s = .next u ∧ u.out = s.out ++ [.cxlDone] ∧
      u.devRead (some k) pa = (l, false) ∧ (∀ a, a / 32 ≠ pa / 32 → Memory.read u.dev a = Memory.read s.dev a) ∧
      u.sectors = s.sectors)) ∧
  (∀ (s : State) (a : Nat), exec (.hostSnoop a) s = .next (sent s .snoopMiss)) ∧
  (∀ (s : State) (die src peer pa : Nat) (op : SwarmOp), (Table.getD s.links die {}).up = true →
    let u := pa / 32 * 32
    (s.windowFor die src pa op = none → exec (.inboundSwarmRequest die src peer pa op) s = .next (sent s (.swarmRefused die))) ∧
    (peer ≠ s.modnum → exec (.inboundSwarmRequest die src peer pa op) s = .next (sent s (.swarmRefused die))) ∧
    (∀ w, s.windowFor die src pa op = some w → peer = s.modnum → populated u = true →
      s.mgmt.dready.getLsbD (u / 2 ^ 38 % 16) = true →
      let key := (s.part (w.toNat / 2 ^ 90 % 2 ^ 6)).key
      (op = .read → pa / 32 ∉ s.devErr → exec (.inboundSwarmRequest die src peer pa op) s = .next (sent s
        (if (s.devRead key u).2 then .swarmRefused die else .swarmData die (s.devRead key u).1))) ∧
      (∀ l k, op = .write l (BitVec.allOnes 32) → key = some k → ∃ t, exec (.inboundSwarmRequest die src peer pa op) s = .next t ∧
        t.out = s.out ++ [.swarmData die 0] ∧ t.devRead (some k) u = (l, false) ∧
        ∀ a, a / 32 ≠ pa / 32 → Memory.read t.dev a = Memory.read s.dev a))) ∧
  (∀ (s : State) (die peer : Nat), die < 16 →
    ((Table.getD s.links die {}).up = false → s.mgmt.dready.getLsbD die = true → ∃ u,
      exec (.linkStateChange die true peer) s = .next u ∧ Table.getD u.links die {} = { up := true, peer := peer } ∧
      u.capgen = s.capgen + 1 ∧ u.swarms = s.swarms) ∧
    ((Table.getD s.links die {}).up = true → ∃ u, exec (.linkStateChange die false peer) s = .next u ∧
      (Table.getD u.links die {}).up = false ∧ u.capgen = s.capgen + 1 ∧
      u.swarms = s.swarms.map (fun w => if w.link = die ∧ w.done = none then { w with done := some (false, 0) } else w))) ∧
  (∀ (s : State) (die p lid : Nat) (rx : Bool), die < 16 → s.launch? p lid = none → ∃ u,
    exec (.flitRetry die rx p lid) s = .next u ∧ u.thr = s.thr ∧
    (Table.getD u.errs die {}).lnkrt = (if (Table.getD s.errs die {}).lnkrt = BitVec.allOnes 64 then BitVec.allOnes 64
      else (Table.getD s.errs die {}).lnkrt + 1)) ∧
  (∀ (s : State),
    exec (.smbusRequest .sensors) s = .next (sent s (.smbus [s.mgmt.tmax.setWidth 64])) ∧
    exec (.smbusRequest .power) s = .next (sent s (.smbus [s.mgmt.pwr.setWidth 64])) ∧
    (∃ ws, exec (.smbusRequest .log) s = .next (sent s (.smbus (s.mgmt.logcnt :: ws))) ∧ ws.length = 4 * s.log.length) ∧
    exec (.smbusRequest .reset) s = exec .moduleReset s ∧
    (∀ b, exec (.smbusRequest (.select b)) s = .next (if (if b then s.mgmt.bval else s.mgmt.aval) = true
      then withMgmt s { s.mgmt with next := b } else s)) ∧
    ∀ ir, exec (.jtagInstruction ir) s = .next { s with jtag := ir })

/-- Every pc stays aligned (R46, R308, R336): whatever a step does, an issue of any thread, an event of the module's own parts or
of the agenda, a dispatch, a migration, a trap or a restore, it leaves no pc with a nonzero bit in [1:0] if there was none. -/
def Obligations.PcStaysAligned : Prop :=
  ∀ s t : State, s.pcAligned = true → step s = .next t → t.pcAligned = true
end

