-- ==== Sys2Proof/Laws/Dispatch.lean ====
section
/-! SUPPORT. What `exec` does with each constructor: its meaning, by name. Unfolding `exec` itself is never needed. -/

namespace Sys2Proof.Machine

@[simp] theorem exec_nop (g : BitVec 4) (s : State) :
    exec (.nop g) s = execNop g s := rfl
@[simp] theorem exec_halt (g : BitVec 4) (s : State) :
    exec (.halt g) s = execHalt g s := rfl
@[simp] theorem exec_idle (g : BitVec 4) (s : State) :
    exec (.idle g) s = execIdle g s := rfl
@[simp] theorem exec_trap (g : BitVec 4) (ix : BitVec 8) (s : State) :
    exec (.trap g ix) s = execTrap g ix s := rfl
@[simp] theorem exec_eret (g : BitVec 4) (s : State) :
    exec (.eret g) s = execEret g s := rfl
@[simp] theorem exec_bkpt (g : BitVec 4) (ix : BitVec 8) (s : State) :
    exec (.bkpt g ix) s = execBkpt g ix s := rfl
@[simp] theorem exec_rdcyc (g : BitVec 4) (d : BitVec 4) (w : BitVec 1) (s : State) :
    exec (.rdcyc g d w) s = execRdcyc g d w s := rfl
@[simp] theorem exec_rdtime (g : BitVec 4) (d : BitVec 4) (w : BitVec 1) (s : State) :
    exec (.rdtime g d w) s = execRdtime g d w s := rfl
@[simp] theorem exec_rdsig (g : BitVec 4) (d : BitVec 4) (w : BitVec 1) (s : State) :
    exec (.rdsig g d w) s = execRdsig g d w s := rfl
@[simp] theorem exec_lnch (g : BitVec 4) (d : BitVec 4) (a : BitVec 4) (r : BitVec 2) (s : State) :
    exec (.lnch g d a r) s = execLnch g d a r s := rfl
@[simp] theorem exec_l1inv (g : BitVec 4) (s : State) :
    exec (.l1inv g) s = execL1inv g s := rfl
@[simp] theorem exec_add (g : BitVec 4) (d : BitVec 4) (a : BitVec 4) (b : BitVec 4) (s : State) :
    exec (.add g d a b) s = execAdd g d a b s := rfl
@[simp] theorem exec_sub (g : BitVec 4) (d : BitVec 4) (a : BitVec 4) (b : BitVec 4) (s : State) :
    exec (.sub g d a b) s = execSub g d a b s := rfl
@[simp] theorem exec_and (g : BitVec 4) (d : BitVec 4) (a : BitVec 4) (b : BitVec 4) (s : State) :
    exec (.and g d a b) s = execAnd g d a b s := rfl
@[simp] theorem exec_or (g : BitVec 4) (d : BitVec 4) (a : BitVec 4) (b : BitVec 4) (s : State) :
    exec (.or g d a b) s = execOr g d a b s := rfl
@[simp] theorem exec_xor (g : BitVec 4) (d : BitVec 4) (a : BitVec 4) (b : BitVec 4) (s : State) :
    exec (.xor g d a b) s = execXor g d a b s := rfl
@[simp] theorem exec_andn (g : BitVec 4) (d : BitVec 4) (a : BitVec 4) (b : BitVec 4) (s : State) :
    exec (.andn g d a b) s = execAndn g d a b s := rfl
@[simp] theorem exec_shl (g : BitVec 4) (d : BitVec 4) (a : BitVec 4) (b : BitVec 4) (s : State) :
    exec (.shl g d a b) s = execShl g d a b s := rfl
@[simp] theorem exec_shr (g : BitVec 4) (d : BitVec 4) (a : BitVec 4) (b : BitVec 4) (s : State) :
    exec (.shr g d a b) s = execShr g d a b s := rfl
@[simp] theorem exec_sar (g : BitVec 4) (d : BitVec 4) (a : BitVec 4) (b : BitVec 4) (s : State) :
    exec (.sar g d a b) s = execSar g d a b s := rfl
@[simp] theorem exec_rol (g : BitVec 4) (d : BitVec 4) (a : BitVec 4) (b : BitVec 4) (s : State) :
    exec (.rol g d a b) s = execRol g d a b s := rfl
@[simp] theorem exec_mul (g : BitVec 4) (d : BitVec 4) (a : BitVec 4) (b : BitVec 4) (s : State) :
    exec (.mul g d a b) s = execMul g d a b s := rfl
@[simp] theorem exec_mulh (g : BitVec 4) (d : BitVec 4) (a : BitVec 4) (b : BitVec 4) (s : State) :
    exec (.mulh g d a b) s = execMulh g d a b s := rfl
@[simp] theorem exec_mulhu (g : BitVec 4) (d : BitVec 4) (a : BitVec 4) (b : BitVec 4) (s : State) :
    exec (.mulhu g d a b) s = execMulhu g d a b s := rfl
@[simp] theorem exec_div (g : BitVec 4) (d : BitVec 4) (a : BitVec 4) (b : BitVec 4) (s : State) :
    exec (.div g d a b) s = execDiv g d a b s := rfl
@[simp] theorem exec_divu (g : BitVec 4) (d : BitVec 4) (a : BitVec 4) (b : BitVec 4) (s : State) :
    exec (.divu g d a b) s = execDivu g d a b s := rfl
@[simp] theorem exec_rem (g : BitVec 4) (d : BitVec 4) (a : BitVec 4) (b : BitVec 4) (s : State) :
    exec (.rem g d a b) s = execRem g d a b s := rfl
@[simp] theorem exec_remu (g : BitVec 4) (d : BitVec 4) (a : BitVec 4) (b : BitVec 4) (s : State) :
    exec (.remu g d a b) s = execRemu g d a b s := rfl
@[simp] theorem exec_min (g : BitVec 4) (d : BitVec 4) (a : BitVec 4) (b : BitVec 4) (s : State) :
    exec (.min g d a b) s = execMin g d a b s := rfl
@[simp] theorem exec_max (g : BitVec 4) (d : BitVec 4) (a : BitVec 4) (b : BitVec 4) (s : State) :
    exec (.max g d a b) s = execMax g d a b s := rfl
@[simp] theorem exec_minu (g : BitVec 4) (d : BitVec 4) (a : BitVec 4) (b : BitVec 4) (s : State) :
    exec (.minu g d a b) s = execMinu g d a b s := rfl
@[simp] theorem exec_maxu (g : BitVec 4) (d : BitVec 4) (a : BitVec 4) (b : BitVec 4) (s : State) :
    exec (.maxu g d a b) s = execMaxu g d a b s := rfl
@[simp] theorem exec_clz (g : BitVec 4) (d : BitVec 4) (a : BitVec 4) (s : State) :
    exec (.clz g d a) s = execClz g d a s := rfl
@[simp] theorem exec_ctz (g : BitVec 4) (d : BitVec 4) (a : BitVec 4) (s : State) :
    exec (.ctz g d a) s = execCtz g d a s := rfl
@[simp] theorem exec_popc (g : BitVec 4) (d : BitVec 4) (a : BitVec 4) (s : State) :
    exec (.popc g d a) s = execPopc g d a s := rfl
@[simp] theorem exec_brev (g : BitVec 4) (d : BitVec 4) (a : BitVec 4) (s : State) :
    exec (.brev g d a) s = execBrev g d a s := rfl
@[simp] theorem exec_sextb (g : BitVec 4) (d : BitVec 4) (a : BitVec 4) (s : State) :
    exec (.sextb g d a) s = execSextb g d a s := rfl
@[simp] theorem exec_sexth (g : BitVec 4) (d : BitVec 4) (a : BitVec 4) (s : State) :
    exec (.sexth g d a) s = execSexth g d a s := rfl
@[simp] theorem exec_zextb (g : BitVec 4) (d : BitVec 4) (a : BitVec 4) (s : State) :
    exec (.zextb g d a) s = execZextb g d a s := rfl
@[simp] theorem exec_zexth (g : BitVec 4) (d : BitVec 4) (a : BitVec 4) (s : State) :
    exec (.zexth g d a) s = execZexth g d a s := rfl
@[simp] theorem exec_mov (g : BitVec 4) (d : BitVec 4) (a : BitVec 4) (s : State) :
    exec (.mov g d a) s = execMov g d a s := rfl
@[simp] theorem exec_slt (g : BitVec 4) (d : BitVec 4) (a : BitVec 4) (b : BitVec 4) (s : State) :
    exec (.slt g d a b) s = execSlt g d a b s := rfl
@[simp] theorem exec_sltu (g : BitVec 4) (d : BitVec 4) (a : BitVec 4) (b : BitVec 4) (s : State) :
    exec (.sltu g d a b) s = execSltu g d a b s := rfl
@[simp] theorem exec_addi (g : BitVec 4) (d : BitVec 4) (a : BitVec 4) (ix : BitVec 14) (s : State) :
    exec (.addi g d a ix) s = execAddi g d a ix s := rfl
@[simp] theorem exec_andi (g : BitVec 4) (d : BitVec 4) (a : BitVec 4) (ix : BitVec 14) (s : State) :
    exec (.andi g d a ix) s = execAndi g d a ix s := rfl
@[simp] theorem exec_ori (g : BitVec 4) (d : BitVec 4) (a : BitVec 4) (ix : BitVec 14) (s : State) :
    exec (.ori g d a ix) s = execOri g d a ix s := rfl
@[simp] theorem exec_xori (g : BitVec 4) (d : BitVec 4) (a : BitVec 4) (ix : BitVec 14) (s : State) :
    exec (.xori g d a ix) s = execXori g d a ix s := rfl
@[simp] theorem exec_shli (g : BitVec 4) (d : BitVec 4) (a : BitVec 4) (sx : BitVec 5) (s : State) :
    exec (.shli g d a sx) s = execShli g d a sx s := rfl
@[simp] theorem exec_shri (g : BitVec 4) (d : BitVec 4) (a : BitVec 4) (sx : BitVec 5) (s : State) :
    exec (.shri g d a sx) s = execShri g d a sx s := rfl
@[simp] theorem exec_sari (g : BitVec 4) (d : BitVec 4) (a : BitVec 4) (sx : BitVec 5) (s : State) :
    exec (.sari g d a sx) s = execSari g d a sx s := rfl
@[simp] theorem exec_roli (g : BitVec 4) (d : BitVec 4) (a : BitVec 4) (sx : BitVec 5) (s : State) :
    exec (.roli g d a sx) s = execRoli g d a sx s := rfl
@[simp] theorem exec_lih (g : BitVec 4) (d : BitVec 4) (ix : BitVec 18) (s : State) :
    exec (.lih g d ix) s = execLih g d ix s := rfl
@[simp] theorem exec_cmp (g : BitVec 4) (p : BitVec 3) (z : BitVec 1) (a : BitVec 4) (b : BitVec 4) (c : BitVec 4) (s : State) :
    exec (.cmp g p z a b c) s = execCmp g p z a b c s := rfl
@[simp] theorem exec_cmpi (g : BitVec 4) (p : BitVec 3) (z : BitVec 1) (a : BitVec 4) (ix : BitVec 10) (c : BitVec 4) (s : State) :
    exec (.cmpi g p z a ix c) s = execCmpi g p z a ix c s := rfl
@[simp] theorem exec_pand (g : BitVec 4) (p : BitVec 3) (a : BitVec 3) (b : BitVec 3) (s : State) :
    exec (.pand g p a b) s = execPand g p a b s := rfl
@[simp] theorem exec_por (g : BitVec 4) (p : BitVec 3) (a : BitVec 3) (b : BitVec 3) (s : State) :
    exec (.por g p a b) s = execPor g p a b s := rfl
@[simp] theorem exec_pxor (g : BitVec 4) (p : BitVec 3) (a : BitVec 3) (b : BitVec 3) (s : State) :
    exec (.pxor g p a b) s = execPxor g p a b s := rfl
@[simp] theorem exec_pandn (g : BitVec 4) (p : BitVec 3) (a : BitVec 3) (b : BitVec 3) (s : State) :
    exec (.pandn g p a b) s = execPandn g p a b s := rfl
@[simp] theorem exec_prdw (g : BitVec 4) (d : BitVec 4) (s : State) :
    exec (.prdw g d) s = execPrdw g d s := rfl
@[simp] theorem exec_pwrw (g : BitVec 4) (d : BitVec 4) (s : State) :
    exec (.pwrw g d) s = execPwrw g d s := rfl
@[simp] theorem exec_br (g : BitVec 4) (o : BitVec 22) (s : State) :
    exec (.br g o) s = execBr g o s := rfl
@[simp] theorem exec_brl (g : BitVec 4) (o : BitVec 22) (s : State) :
    exec (.brl g o) s = execBrl g o s := rfl
@[simp] theorem exec_jr (g : BitVec 4) (a : BitVec 4) (s : State) :
    exec (.jr g a) s = execJr g a s := rfl
@[simp] theorem exec_jrl (g : BitVec 4) (a : BitVec 4) (s : State) :
    exec (.jrl g a) s = execJrl g a s := rfl
@[simp] theorem exec_padd (g : BitVec 4) (d : BitVec 3) (a : BitVec 3) (b : BitVec 3) (s : State) :
    exec (.padd g d a b) s = execPadd g d a b s := rfl
@[simp] theorem exec_padds (g : BitVec 4) (d : BitVec 3) (a : BitVec 3) (b : BitVec 3) (sx : BitVec 3) (s : State) :
    exec (.padds g d a b sx) s = execPadds g d a b sx s := rfl
@[simp] theorem exec_paddu (g : BitVec 4) (d : BitVec 3) (a : BitVec 3) (b : BitVec 3) (sx : BitVec 3) (s : State) :
    exec (.paddu g d a b sx) s = execPaddu g d a b sx s := rfl
@[simp] theorem exec_psub (g : BitVec 4) (d : BitVec 3) (a : BitVec 3) (b : BitVec 3) (s : State) :
    exec (.psub g d a b) s = execPsub g d a b s := rfl
@[simp] theorem exec_pmov (g : BitVec 4) (d : BitVec 3) (a : BitVec 3) (s : State) :
    exec (.pmov g d a) s = execPmov g d a s := rfl
@[simp] theorem exec_rep (c : BitVec 6) (ix : BitVec 3) (j : BitVec 3) (k : BitVec 3) (s : State) :
    exec (.rep c ix j k) s = execRep c ix j k s := rfl
@[simp] theorem exec_ldb (g : BitVec 4) (d : BitVec 4) (bp : BitVec 3) (h : BitVec 5) (off : BitVec 24) (s : State) :
    exec (.ldb g d bp h off) s = execLdb g d bp h off s := rfl
@[simp] theorem exec_ldbu (g : BitVec 4) (d : BitVec 4) (bp : BitVec 3) (h : BitVec 5) (off : BitVec 24) (s : State) :
    exec (.ldbu g d bp h off) s = execLdbu g d bp h off s := rfl
@[simp] theorem exec_ldh (g : BitVec 4) (d : BitVec 4) (bp : BitVec 3) (h : BitVec 5) (off : BitVec 24) (s : State) :
    exec (.ldh g d bp h off) s = execLdh g d bp h off s := rfl
@[simp] theorem exec_ldhu (g : BitVec 4) (d : BitVec 4) (bp : BitVec 3) (h : BitVec 5) (off : BitVec 24) (s : State) :
    exec (.ldhu g d bp h off) s = execLdhu g d bp h off s := rfl
@[simp] theorem exec_ldw (g : BitVec 4) (d : BitVec 4) (bp : BitVec 3) (h : BitVec 5) (off : BitVec 24) (s : State) :
    exec (.ldw g d bp h off) s = execLdw g d bp h off s := rfl
@[simp] theorem exec_ldd (g : BitVec 4) (d : BitVec 3) (bp : BitVec 3) (h : BitVec 5) (off : BitVec 24) (s : State) :
    exec (.ldd g d bp h off) s = execLdd g d bp h off s := rfl
@[simp] theorem exec_lda (g : BitVec 4) (d : BitVec 4) (bp : BitVec 3) (sc : BitVec 3) (h : BitVec 5) (off : BitVec 24) (s : State) :
    exec (.lda g d bp sc h off) s = execLda g d bp sc h off s := rfl
@[simp] theorem exec_stb (g : BitVec 4) (d : BitVec 4) (bp : BitVec 3) (h : BitVec 5) (off : BitVec 24) (s : State) :
    exec (.stb g d bp h off) s = execStb g d bp h off s := rfl
@[simp] theorem exec_sth (g : BitVec 4) (d : BitVec 4) (bp : BitVec 3) (h : BitVec 5) (off : BitVec 24) (s : State) :
    exec (.sth g d bp h off) s = execSth g d bp h off s := rfl
@[simp] theorem exec_stw (g : BitVec 4) (d : BitVec 4) (bp : BitVec 3) (h : BitVec 5) (off : BitVec 24) (s : State) :
    exec (.stw g d bp h off) s = execStw g d bp h off s := rfl
@[simp] theorem exec_std (g : BitVec 4) (d : BitVec 3) (bp : BitVec 3) (h : BitVec 5) (off : BitVec 24) (s : State) :
    exec (.std g d bp h off) s = execStd g d bp h off s := rfl
@[simp] theorem exec_str (g : BitVec 4) (d : BitVec 4) (bp : BitVec 3) (sc : BitVec 3) (h : BitVec 5) (off : BitVec 24) (s : State) :
    exec (.str g d bp sc h off) s = execStr g d bp sc h off s := rfl
@[simp] theorem exec_aadd (g : BitVec 4) (d : BitVec 4) (bp : BitVec 3) (nr : BitVec 1) (sz : BitVec 1) (h : BitVec 5) (off : BitVec 24) (s : State) :
    exec (.aadd g d bp nr sz h off) s = execAadd g d bp nr sz h off s := rfl
@[simp] theorem exec_amin (g : BitVec 4) (d : BitVec 4) (bp : BitVec 3) (nr : BitVec 1) (sz : BitVec 1) (h : BitVec 5) (off : BitVec 24) (s : State) :
    exec (.amin g d bp nr sz h off) s = execAmin g d bp nr sz h off s := rfl
@[simp] theorem exec_amax (g : BitVec 4) (d : BitVec 4) (bp : BitVec 3) (nr : BitVec 1) (sz : BitVec 1) (h : BitVec 5) (off : BitVec 24) (s : State) :
    exec (.amax g d bp nr sz h off) s = execAmax g d bp nr sz h off s := rfl
@[simp] theorem exec_aminu (g : BitVec 4) (d : BitVec 4) (bp : BitVec 3) (nr : BitVec 1) (sz : BitVec 1) (h : BitVec 5) (off : BitVec 24) (s : State) :
    exec (.aminu g d bp nr sz h off) s = execAminu g d bp nr sz h off s := rfl
@[simp] theorem exec_amaxu (g : BitVec 4) (d : BitVec 4) (bp : BitVec 3) (nr : BitVec 1) (sz : BitVec 1) (h : BitVec 5) (off : BitVec 24) (s : State) :
    exec (.amaxu g d bp nr sz h off) s = execAmaxu g d bp nr sz h off s := rfl
@[simp] theorem exec_aand (g : BitVec 4) (d : BitVec 4) (bp : BitVec 3) (nr : BitVec 1) (sz : BitVec 1) (h : BitVec 5) (off : BitVec 24) (s : State) :
    exec (.aand g d bp nr sz h off) s = execAand g d bp nr sz h off s := rfl
@[simp] theorem exec_aor (g : BitVec 4) (d : BitVec 4) (bp : BitVec 3) (nr : BitVec 1) (sz : BitVec 1) (h : BitVec 5) (off : BitVec 24) (s : State) :
    exec (.aor g d bp nr sz h off) s = execAor g d bp nr sz h off s := rfl
@[simp] theorem exec_axor (g : BitVec 4) (d : BitVec 4) (bp : BitVec 3) (nr : BitVec 1) (sz : BitVec 1) (h : BitVec 5) (off : BitVec 24) (s : State) :
    exec (.axor g d bp nr sz h off) s = execAxor g d bp nr sz h off s := rfl
@[simp] theorem exec_aswp (g : BitVec 4) (d : BitVec 4) (bp : BitVec 3) (nr : BitVec 1) (sz : BitVec 1) (h : BitVec 5) (off : BitVec 24) (s : State) :
    exec (.aswp g d bp nr sz h off) s = execAswp g d bp nr sz h off s := rfl
@[simp] theorem exec_acas (g : BitVec 4) (d : BitVec 4) (bp : BitVec 3) (nr : BitVec 1) (sz : BitVec 1) (h : BitVec 5) (off : BitVec 24) (s : State) :
    exec (.acas g d bp nr sz h off) s = execAcas g d bp nr sz h off s := rfl
@[simp] theorem exec_aaddf (g : BitVec 4) (d : BitVec 4) (bp : BitVec 3) (nr : BitVec 1) (h : BitVec 5) (off : BitVec 24) (s : State) :
    exec (.aaddf g d bp nr h off) s = execAaddf g d bp nr h off s := rfl
@[simp] theorem exec_ldtL (g : BitVec 4) (d : BitVec 4) (bp : BitVec 3) (h : BitVec 5) (off : BitVec 24) (s : State) :
    exec (.ldtL g d bp h off) s = execLdtL g d bp h off s := rfl
@[simp] theorem exec_ldtQ (g : BitVec 4) (d : BitVec 4) (bp : BitVec 3) (h : BitVec 5) (off : BitVec 24) (s : State) :
    exec (.ldtQ g d bp h off) s = execLdtQ g d bp h off s := rfl
@[simp] theorem exec_ldtS (g : BitVec 4) (d : BitVec 4) (bp : BitVec 3) (h : BitVec 5) (off : BitVec 24) (s : State) :
    exec (.ldtS g d bp h off) s = execLdtS g d bp h off s := rfl
@[simp] theorem exec_ldtC (g : BitVec 4) (d : BitVec 4) (bp : BitVec 3) (cw : BitVec 2) (h : BitVec 5) (off : BitVec 24) (s : State) :
    exec (.ldtC g d bp cw h off) s = execLdtC g d bp cw h off s := rfl
@[simp] theorem exec_rdmv (g : BitVec 4) (v : BitVec 6) (a : BitVec 4) (s : State) :
    exec (.rdmv g v a) s = execRdmv g v a s := rfl
@[simp] theorem exec_rdms (g : BitVec 4) (a : BitVec 4) (b : BitVec 3) (s : State) :
    exec (.rdms g a b) s = execRdms g a b s := rfl
@[simp] theorem exec_tkdrop (g : BitVec 4) (a : BitVec 4) (s : State) :
    exec (.tkdrop g a) s = execTkdrop g a s := rfl
@[simp] theorem exec_tktst (g : BitVec 4) (p : BitVec 3) (a : BitVec 4) (s : State) :
    exec (.tktst g p a) s = execTktst g p a s := rfl
@[simp] theorem exec_rdmw (g : BitVec 4) (s : State) :
    exec (.rdmw g) s = execRdmw g s := rfl
@[simp] theorem exec_fence (g : BitVec 4) (sx : BitVec 3) (s : State) :
    exec (.fence g sx) s = execFence g sx s := rfl
@[simp] theorem exec_fencee (g : BitVec 4) (sx : BitVec 3) (s : State) :
    exec (.fencee g sx) s = execFencee g sx s := rfl
@[simp] theorem exec_acq (g : BitVec 4) (sx : BitVec 3) (s : State) :
    exec (.acq g sx) s = execAcq g sx s := rfl
@[simp] theorem exec_rel (g : BitVec 4) (sx : BitVec 3) (s : State) :
    exec (.rel g sx) s = execRel g sx s := rfl
@[simp] theorem exec_send (g : BitVec 4) (a : BitVec 4) (b : BitVec 2) (s : State) :
    exec (.send g a b) s = execSend g a b s := rfl
@[simp] theorem exec_waitm (g : BitVec 4) (d : BitVec 2) (c : BitVec 4) (s : State) :
    exec (.waitm g d c) s = execWaitm g d c s := rfl
@[simp] theorem exec_pollm (g : BitVec 4) (d : BitVec 2) (a : BitVec 4) (c : BitVec 4) (s : State) :
    exec (.pollm g d a c) s = execPollm g d a c s := rfl
@[simp] theorem exec_mbind (g : BitVec 4) (a : BitVec 4) (c : BitVec 4) (s : State) :
    exec (.mbind g a c) s = execMbind g a c s := rfl
@[simp] theorem exec_munbind (g : BitVec 4) (c : BitVec 4) (s : State) :
    exec (.munbind g c) s = execMunbind g c s := rfl
@[simp] theorem exec_bar (g : BitVec 4) (m : BitVec 2) (s : State) :
    exec (.bar g m) s = execBar g m s := rfl
@[simp] theorem exec_barx (g : BitVec 4) (d : BitVec 4) (a : BitVec 4) (m : BitVec 2) (r : BitVec 3) (s : State) :
    exec (.barx g d a m r) s = execBarx g d a m r s := rfl
@[simp] theorem exec_garv (g : BitVec 4) (d : BitVec 4) (m : BitVec 2) (s : State) :
    exec (.garv g d m) s = execGarv g d m s := rfl
@[simp] theorem exec_gwt (g : BitVec 4) (a : BitVec 4) (m : BitVec 2) (s : State) :
    exec (.gwt g a m) s = execGwt g a m s := rfl
@[simp] theorem exec_enqm (g : BitVec 4) (d : BitVec 4) (v : BitVec 6) (s : State) :
    exec (.enqm g d v) s = execEnqm g d v s := rfl
@[simp] theorem exec_enqmR (g : BitVec 4) (d : BitVec 4) (v : BitVec 6) (s : State) :
    exec (.enqmR g d v) s = execEnqmR g d v s := rfl
@[simp] theorem exec_enqc (g : BitVec 4) (d : BitVec 4) (v : BitVec 6) (s : State) :
    exec (.enqc g d v) s = execEnqc g d v s := rfl
@[simp] theorem exec_enqcR (g : BitVec 4) (d : BitVec 4) (v : BitVec 6) (s : State) :
    exec (.enqcR g d v) s = execEnqcR g d v s := rfl
@[simp] theorem exec_mwait (g : BitVec 4) (d : BitVec 4) (sx : BitVec 4) (s : State) :
    exec (.mwait g d sx) s = execMwait g d sx s := rfl
@[simp] theorem exec_cwait (g : BitVec 4) (sx : BitVec 4) (s : State) :
    exec (.cwait g sx) s = execCwait g sx s := rfl
@[simp] theorem exec_cstat (g : BitVec 4) (d : BitVec 4) (sx : BitVec 4) (s : State) :
    exec (.cstat g d sx) s = execCstat g d sx s := rfl
@[simp] theorem exec_csrr (g : BitVec 4) (d : BitVec 4) (c : BitVec 12) (s : State) :
    exec (.csrr g d c) s = execCsrr g d c s := rfl
@[simp] theorem exec_csrw (g : BitVec 4) (a : BitVec 4) (c : BitVec 12) (s : State) :
    exec (.csrw g a c) s = execCsrw g a c s := rfl
@[simp] theorem exec_csrs (g : BitVec 4) (d : BitVec 4) (a : BitVec 4) (c : BitVec 12) (s : State) :
    exec (.csrs g d a c) s = execCsrs g d a c s := rfl
@[simp] theorem exec_csrc (g : BitVec 4) (d : BitVec 4) (a : BitVec 4) (c : BitVec 12) (s : State) :
    exec (.csrc g d a c) s = execCsrc g d a c s := rfl
@[simp] theorem exec_tjins (g : BitVec 4) (d : BitVec 4) (a : BitVec 4) (b : BitVec 4) (s : State) :
    exec (.tjins g d a b) s = execTjins g d a b s := rfl
@[simp] theorem exec_tjsmp (g : BitVec 4) (d : BitVec 4) (a : BitVec 4) (b : BitVec 4) (s : State) :
    exec (.tjsmp g d a b) s = execTjsmp g d a b s := rfl
@[simp] theorem exec_tjpri (g : BitVec 4) (d : BitVec 4) (a : BitVec 4) (b : BitVec 4) (s : State) :
    exec (.tjpri g d a b) s = execTjpri g d a b s := rfl
@[simp] theorem exec_tjevt (g : BitVec 4) (d : BitVec 4) (a : BitVec 4) (b : BitVec 4) (s : State) :
    exec (.tjevt g d a b) s = execTjevt g d a b s := rfl
@[simp] theorem exec_tjver (g : BitVec 4) (d : BitVec 4) (a : BitVec 4) (b : BitVec 4) (s : State) :
    exec (.tjver g d a b) s = execTjver g d a b s := rfl
@[simp] theorem exec_tjqry (g : BitVec 4) (d : BitVec 4) (a : BitVec 4) (b : BitVec 4) (s : State) :
    exec (.tjqry g d a b) s = execTjqry g d a b s := rfl
@[simp] theorem exec_tjget (g : BitVec 4) (d : BitVec 4) (a : BitVec 4) (b : BitVec 4) (s : State) :
    exec (.tjget g d a b) s = execTjget g d a b s := rfl
@[simp] theorem exec_axpush (g : BitVec 4) (d : BitVec 4) (a : BitVec 3) (b : BitVec 4) (s : State) :
    exec (.axpush g d a b) s = execAxpush g d a b s := rfl
@[simp] theorem exec_axpop (g : BitVec 4) (d : BitVec 4) (a : BitVec 3) (b : BitVec 4) (s : State) :
    exec (.axpop g d a b) s = execAxpop g d a b s := rfl
@[simp] theorem exec_axdepth (g : BitVec 4) (d : BitVec 4) (a : BitVec 4) (b : BitVec 4) (s : State) :
    exec (.axdepth g d a b) s = execAxdepth g d a b s := rfl
@[simp] theorem exec_axdrop (g : BitVec 4) (d : BitVec 4) (a : BitVec 4) (b : BitVec 4) (s : State) :
    exec (.axdrop g d a b) s = execAxdrop g d a b s := rfl
@[simp] theorem exec_go (g : BitVec 4) (a : BitVec 3) (s : State) :
    exec (.go g a) s = execGo g a s := rfl
@[simp] theorem exec_gohome (g : BitVec 4) (s : State) :
    exec (.gohome g) s = execGohome g s := rfl
@[simp] theorem exec_paddi (g : BitVec 4) (d : BitVec 3) (a : BitVec 3) (ix : BitVec 14) (s : State) :
    exec (.paddi g d a ix) s = execPaddi g d a ix s := rfl
@[simp] theorem exec_qpush (g : BitVec 4) (d : BitVec 4) (q : BitVec 4) (s : State) :
    exec (.qpush g d q) s = execQpush g d q s := rfl
@[simp] theorem exec_qpop (g : BitVec 4) (d : BitVec 4) (q : BitVec 4) (s : State) :
    exec (.qpop g d q) s = execQpop g d q s := rfl
@[simp] theorem exec_qtry (g : BitVec 4) (d : BitVec 4) (p : BitVec 3) (q : BitVec 4) (s : State) :
    exec (.qtry g d p q) s = execQtry g d p q s := rfl
@[simp] theorem exec_qpushv (g : BitVec 4) (v : BitVec 7) (q : BitVec 4) (s : State) :
    exec (.qpushv g v q) s = execQpushv g v q s := rfl
@[simp] theorem exec_qpopv (g : BitVec 4) (v : BitVec 7) (q : BitVec 4) (s : State) :
    exec (.qpopv g v q) s = execQpopv g v q s := rfl
@[simp] theorem exec_vadd (d : BitVec 7) (a : BitVec 7) (b : BitVec 7) (t : BitVec 3) (s : State) :
    exec (.vadd d a b t) s = execVadd d a b t s := rfl
@[simp] theorem exec_vsub (d : BitVec 7) (a : BitVec 7) (b : BitVec 7) (t : BitVec 3) (s : State) :
    exec (.vsub d a b t) s = execVsub d a b t s := rfl
@[simp] theorem exec_vmin (d : BitVec 7) (a : BitVec 7) (b : BitVec 7) (t : BitVec 3) (s : State) :
    exec (.vmin d a b t) s = execVmin d a b t s := rfl
@[simp] theorem exec_vmax (d : BitVec 7) (a : BitVec 7) (b : BitVec 7) (t : BitVec 3) (s : State) :
    exec (.vmax d a b t) s = execVmax d a b t s := rfl
@[simp] theorem exec_vmul (d : BitVec 7) (a : BitVec 7) (b : BitVec 7) (t : BitVec 3) (s : State) :
    exec (.vmul d a b t) s = execVmul d a b t s := rfl
@[simp] theorem exec_vfma (d : BitVec 7) (a : BitVec 7) (b : BitVec 7) (t : BitVec 3) (s : State) :
    exec (.vfma d a b t) s = execVfma d a b t s := rfl
@[simp] theorem exec_vfms (d : BitVec 7) (a : BitVec 7) (b : BitVec 7) (t : BitVec 3) (s : State) :
    exec (.vfms d a b t) s = execVfms d a b t s := rfl
@[simp] theorem exec_vfnma (d : BitVec 7) (a : BitVec 7) (b : BitVec 7) (t : BitVec 3) (s : State) :
    exec (.vfnma d a b t) s = execVfnma d a b t s := rfl
@[simp] theorem exec_vadds (d : BitVec 7) (a : BitVec 7) (b : BitVec 7) (t : BitVec 3) (s : State) :
    exec (.vadds d a b t) s = execVadds d a b t s := rfl
@[simp] theorem exec_vsubs (d : BitVec 7) (a : BitVec 7) (b : BitVec 7) (t : BitVec 3) (s : State) :
    exec (.vsubs d a b t) s = execVsubs d a b t s := rfl
@[simp] theorem exec_vmulh (d : BitVec 7) (a : BitVec 7) (b : BitVec 7) (t : BitVec 3) (s : State) :
    exec (.vmulh d a b t) s = execVmulh d a b t s := rfl
@[simp] theorem exec_vabs (d : BitVec 7) (a : BitVec 7) (t : BitVec 3) (s : State) :
    exec (.vabs d a t) s = execVabs d a t s := rfl
@[simp] theorem exec_vand (d : BitVec 7) (a : BitVec 7) (b : BitVec 7) (s : State) :
    exec (.vand d a b) s = execVand d a b s := rfl
@[simp] theorem exec_vor (d : BitVec 7) (a : BitVec 7) (b : BitVec 7) (s : State) :
    exec (.vor d a b) s = execVor d a b s := rfl
@[simp] theorem exec_vxor (d : BitVec 7) (a : BitVec 7) (b : BitVec 7) (s : State) :
    exec (.vxor d a b) s = execVxor d a b s := rfl
@[simp] theorem exec_vandn (d : BitVec 7) (a : BitVec 7) (b : BitVec 7) (s : State) :
    exec (.vandn d a b) s = execVandn d a b s := rfl
@[simp] theorem exec_vshl (d : BitVec 7) (a : BitVec 7) (b : BitVec 7) (t : BitVec 3) (s : State) :
    exec (.vshl d a b t) s = execVshl d a b t s := rfl
@[simp] theorem exec_vshr (d : BitVec 7) (a : BitVec 7) (b : BitVec 7) (t : BitVec 3) (s : State) :
    exec (.vshr d a b t) s = execVshr d a b t s := rfl
@[simp] theorem exec_vsar (d : BitVec 7) (a : BitVec 7) (b : BitVec 7) (t : BitVec 3) (s : State) :
    exec (.vsar d a b t) s = execVsar d a b t s := rfl
@[simp] theorem exec_vrol (d : BitVec 7) (a : BitVec 7) (b : BitVec 7) (t : BitVec 3) (s : State) :
    exec (.vrol d a b t) s = execVrol d a b t s := rfl
@[simp] theorem exec_vceq (d : BitVec 3) (a : BitVec 7) (b : BitVec 7) (t : BitVec 3) (s : State) :
    exec (.vceq d a b t) s = execVceq d a b t s := rfl
@[simp] theorem exec_vcne (d : BitVec 3) (a : BitVec 7) (b : BitVec 7) (t : BitVec 3) (s : State) :
    exec (.vcne d a b t) s = execVcne d a b t s := rfl
@[simp] theorem exec_vclt (d : BitVec 3) (a : BitVec 7) (b : BitVec 7) (t : BitVec 3) (s : State) :
    exec (.vclt d a b t) s = execVclt d a b t s := rfl
@[simp] theorem exec_vcle (d : BitVec 3) (a : BitVec 7) (b : BitVec 7) (t : BitVec 3) (s : State) :
    exec (.vcle d a b t) s = execVcle d a b t s := rfl
@[simp] theorem exec_vcltu (d : BitVec 3) (a : BitVec 7) (b : BitVec 7) (t : BitVec 3) (s : State) :
    exec (.vcltu d a b t) s = execVcltu d a b t s := rfl
@[simp] theorem exec_vcleu (d : BitVec 3) (a : BitVec 7) (b : BitVec 7) (t : BitVec 3) (s : State) :
    exec (.vcleu d a b t) s = execVcleu d a b t s := rfl
@[simp] theorem exec_vcun (d : BitVec 3) (a : BitVec 7) (b : BitVec 7) (t : BitVec 3) (s : State) :
    exec (.vcun d a b t) s = execVcun d a b t s := rfl
@[simp] theorem exec_vcnf (d : BitVec 3) (a : BitVec 7) (t : BitVec 3) (s : State) :
    exec (.vcnf d a t) s = execVcnf d a t s := rfl
@[simp] theorem exec_vwadd (d : BitVec 6) (a : BitVec 7) (b : BitVec 7) (t : BitVec 3) (s : State) :
    exec (.vwadd d a b t) s = execVwadd d a b t s := rfl
@[simp] theorem exec_vwmul (d : BitVec 6) (a : BitVec 7) (b : BitVec 7) (t : BitVec 3) (s : State) :
    exec (.vwmul d a b t) s = execVwmul d a b t s := rfl
@[simp] theorem exec_vwmac (d : BitVec 6) (a : BitVec 7) (b : BitVec 7) (t : BitVec 3) (s : State) :
    exec (.vwmac d a b t) s = execVwmac d a b t s := rfl
@[simp] theorem exec_vwsum (d : BitVec 6) (a : BitVec 7) (b : BitVec 7) (t : BitVec 3) (s : State) :
    exec (.vwsum d a b t) s = execVwsum d a b t s := rfl
@[simp] theorem exec_vhadd (d : BitVec 7) (a : BitVec 7) (b : BitVec 7) (t : BitVec 3) (s : State) :
    exec (.vhadd d a b t) s = execVhadd d a b t s := rfl
@[simp] theorem exec_vhmax (d : BitVec 7) (a : BitVec 7) (b : BitVec 7) (t : BitVec 3) (s : State) :
    exec (.vhmax d a b t) s = execVhmax d a b t s := rfl
@[simp] theorem exec_vhmin (d : BitVec 7) (a : BitVec 7) (b : BitVec 7) (t : BitVec 3) (s : State) :
    exec (.vhmin d a b t) s = execVhmin d a b t s := rfl
@[simp] theorem exec_vscan (d : BitVec 7) (a : BitVec 7) (b : BitVec 7) (t : BitVec 3) (s : State) :
    exec (.vscan d a b t) s = execVscan d a b t s := rfl
@[simp] theorem exec_vzipl (d : BitVec 7) (a : BitVec 7) (b : BitVec 7) (t : BitVec 3) (s : State) :
    exec (.vzipl d a b t) s = execVzipl d a b t s := rfl
@[simp] theorem exec_vziph (d : BitVec 7) (a : BitVec 7) (b : BitVec 7) (t : BitVec 3) (s : State) :
    exec (.vziph d a b t) s = execVziph d a b t s := rfl
@[simp] theorem exec_vunzl (d : BitVec 7) (a : BitVec 7) (b : BitVec 7) (t : BitVec 3) (s : State) :
    exec (.vunzl d a b t) s = execVunzl d a b t s := rfl
@[simp] theorem exec_vunzh (d : BitVec 7) (a : BitVec 7) (b : BitVec 7) (t : BitVec 3) (s : State) :
    exec (.vunzh d a b t) s = execVunzh d a b t s := rfl
@[simp] theorem exec_vshuf (d : BitVec 7) (a : BitVec 7) (b : BitVec 7) (t : BitVec 3) (s : State) :
    exec (.vshuf d a b t) s = execVshuf d a b t s := rfl
@[simp] theorem exec_vsel (d : BitVec 7) (a : BitVec 7) (b : BitVec 7) (t : BitVec 3) (s : State) :
    exec (.vsel d a b t) s = execVsel d a b t s := rfl
@[simp] theorem exec_vrev (d : BitVec 7) (a : BitVec 7) (t : BitVec 3) (s : State) :
    exec (.vrev d a t) s = execVrev d a t s := rfl
@[simp] theorem exec_vdupl (d : BitVec 7) (a : BitVec 7) (t : BitVec 3) (s : State) :
    exec (.vdupl d a t) s = execVdupl d a t s := rfl
@[simp] theorem exec_vcvt (d : BitVec 7) (a : BitVec 7) (sx : BitVec 4) (t : BitVec 4) (r : BitVec 3) (x : BitVec 1) (s : State) :
    exec (.vcvt d a sx t r x) s = execVcvt d a sx t r x s := rfl
@[simp] theorem exec_vqblk (d : BitVec 7) (a : BitVec 4) (sx : BitVec 4) (t : BitVec 3) (s : State) :
    exec (.vqblk d a sx t) s = execVqblk d a sx t s := rfl
@[simp] theorem exec_vmxdec (d : BitVec 4) (a : BitVec 7) (sx : BitVec 4) (t : BitVec 3) (s : State) :
    exec (.vmxdec d a sx t) s = execVmxdec d a sx t s := rfl
@[simp] theorem exec_vdec (d : BitVec 5) (a : BitVec 7) (sx : BitVec 4) (s : State) :
    exec (.vdec d a sx) s = execVdec d a sx s := rfl
@[simp] theorem exec_venc (d : BitVec 7) (a : BitVec 5) (sx : BitVec 4) (s : State) :
    exec (.venc d a sx) s = execVenc d a sx s := rfl
@[simp] theorem exec_vrcp (d : BitVec 7) (a : BitVec 7) (s : State) :
    exec (.vrcp d a) s = execVrcp d a s := rfl
@[simp] theorem exec_vrsq (d : BitVec 7) (a : BitVec 7) (s : State) :
    exec (.vrsq d a) s = execVrsq d a s := rfl
@[simp] theorem exec_vexp2 (d : BitVec 7) (a : BitVec 7) (s : State) :
    exec (.vexp2 d a) s = execVexp2 d a s := rfl
@[simp] theorem exec_vlog2 (d : BitVec 7) (a : BitVec 7) (s : State) :
    exec (.vlog2 d a) s = execVlog2 d a s := rfl
@[simp] theorem exec_vsqrt (d : BitVec 7) (a : BitVec 7) (s : State) :
    exec (.vsqrt d a) s = execVsqrt d a s := rfl
@[simp] theorem exec_vdiv (d : BitVec 7) (a : BitVec 7) (b : BitVec 7) (s : State) :
    exec (.vdiv d a b) s = execVdiv d a b s := rfl
@[simp] theorem exec_vflr (d : BitVec 7) (a : BitVec 7) (t : BitVec 3) (s : State) :
    exec (.vflr d a t) s = execVflr d a t s := rfl
@[simp] theorem exec_vrnd (d : BitVec 7) (a : BitVec 7) (t : BitVec 3) (s : State) :
    exec (.vrnd d a t) s = execVrnd d a t s := rfl
@[simp] theorem exec_vrng (d : BitVec 7) (sx : BitVec 4) (s : State) :
    exec (.vrng d sx) s = execVrng d sx s := rfl
@[simp] theorem exec_vrngf (d : BitVec 7) (sx : BitVec 4) (t : BitVec 3) (s : State) :
    exec (.vrngf d sx t) s = execVrngf d sx t s := rfl
@[simp] theorem exec_vmovs (d : BitVec 7) (sx : BitVec 4) (t : BitVec 3) (s : State) :
    exec (.vmovs d sx t) s = execVmovs d sx t s := rfl
@[simp] theorem exec_vins (d : BitVec 7) (ix : BitVec 4) (sx : BitVec 4) (t : BitVec 3) (s : State) :
    exec (.vins d ix sx t) s = execVins d ix sx t s := rfl
@[simp] theorem exec_vext (ix : BitVec 4) (a : BitVec 7) (sx : BitVec 4) (t : BitVec 3) (s : State) :
    exec (.vext ix a sx t) s = execVext ix a sx t s := rfl
@[simp] theorem exec_kmovs (k : BitVec 3) (sx : BitVec 4) (s : State) :
    exec (.kmovs k sx) s = execKmovs k sx s := rfl
@[simp] theorem exec_kext (k : BitVec 3) (sx : BitVec 4) (s : State) :
    exec (.kext k sx) s = execKext k sx s := rfl
@[simp] theorem exec_vaddi (d : BitVec 7) (a : BitVec 7) (ix : BitVec 8) (t : BitVec 3) (s : State) :
    exec (.vaddi d a ix t) s = execVaddi d a ix t s := rfl
@[simp] theorem exec_vspli (d : BitVec 7) (ix : BitVec 8) (t : BitVec 3) (s : State) :
    exec (.vspli d ix t) s = execVspli d ix t s := rfl
@[simp] theorem exec_vshli (d : BitVec 7) (a : BitVec 7) (ix : BitVec 8) (t : BitVec 3) (s : State) :
    exec (.vshli d a ix t) s = execVshli d a ix t s := rfl
@[simp] theorem exec_vshri (d : BitVec 7) (a : BitVec 7) (ix : BitVec 8) (t : BitVec 3) (s : State) :
    exec (.vshri d a ix t) s = execVshri d a ix t s := rfl
@[simp] theorem exec_vsari (d : BitVec 7) (a : BitVec 7) (ix : BitVec 8) (t : BitVec 3) (s : State) :
    exec (.vsari d a ix t) s = execVsari d a ix t s := rfl
@[simp] theorem exec_vextb (d : BitVec 7) (a : BitVec 7) (ix : BitVec 8) (s : State) :
    exec (.vextb d a ix) s = execVextb d a ix s := rfl
@[simp] theorem exec_kand (d : BitVec 3) (a : BitVec 3) (b : BitVec 3) (s : State) :
    exec (.kand d a b) s = execKand d a b s := rfl
@[simp] theorem exec_kor (d : BitVec 3) (a : BitVec 3) (b : BitVec 3) (s : State) :
    exec (.kor d a b) s = execKor d a b s := rfl
@[simp] theorem exec_kxor (d : BitVec 3) (a : BitVec 3) (b : BitVec 3) (s : State) :
    exec (.kxor d a b) s = execKxor d a b s := rfl
@[simp] theorem exec_knot (d : BitVec 3) (a : BitVec 3) (s : State) :
    exec (.knot d a) s = execKnot d a s := rfl
@[simp] theorem exec_vdot4 (d : BitVec 7) (a : BitVec 7) (b : BitVec 7) (s : State) :
    exec (.vdot4 d a b) s = execVdot4 d a b s := rfl
@[simp] theorem exec_vdot4u (d : BitVec 7) (a : BitVec 7) (b : BitVec 7) (s : State) :
    exec (.vdot4u d a b) s = execVdot4u d a b s := rfl
@[simp] theorem exec_vdot2b (d : BitVec 7) (a : BitVec 7) (b : BitVec 7) (s : State) :
    exec (.vdot2b d a b) s = execVdot2b d a b s := rfl
@[simp] theorem exec_vdot2h (d : BitVec 7) (a : BitVec 7) (b : BitVec 7) (s : State) :
    exec (.vdot2h d a b) s = execVdot2h d a b s := rfl
@[simp] theorem exec_ldv (d : BitVec 7) (bp : BitVec 3) (h : BitVec 5) (off : BitVec 24) (s : State) :
    exec (.ldv d bp h off) s = execLdv d bp h off s := rfl
@[simp] theorem exec_ldvp (d : BitVec 6) (bp : BitVec 3) (h : BitVec 5) (off : BitVec 24) (s : State) :
    exec (.ldvp d bp h off) s = execLdvp d bp h off s := rfl
@[simp] theorem exec_ldvc (d : BitVec 6) (bp : BitVec 3) (cw : BitVec 2) (h : BitVec 5) (off : BitVec 24) (s : State) :
    exec (.ldvc d bp cw h off) s = execLdvc d bp cw h off s := rfl
@[simp] theorem exec_stv (d : BitVec 7) (bp : BitVec 3) (h : BitVec 5) (off : BitVec 24) (s : State) :
    exec (.stv d bp h off) s = execStv d bp h off s := rfl
@[simp] theorem exec_stvp (d : BitVec 6) (bp : BitVec 3) (h : BitVec 5) (off : BitVec 24) (s : State) :
    exec (.stvp d bp h off) s = execStvp d bp h off s := rfl
@[simp] theorem exec_stvc (d : BitVec 6) (bp : BitVec 3) (cw : BitVec 2) (h : BitVec 5) (off : BitVec 24) (s : State) :
    exec (.stvc d bp cw h off) s = execStvc d bp cw h off s := rfl
@[simp] theorem exec_vaadd (d : BitVec 7) (bp : BitVec 3) (bs : BitVec 1) (rm : BitVec 3) (t : BitVec 3) (h : BitVec 5) (off : BitVec 24) (s : State) :
    exec (.vaadd d bp bs rm t h off) s = execVaadd d bp bs rm t h off s := rfl
@[simp] theorem exec_ldvb (d : BitVec 7) (bp : BitVec 3) (t : BitVec 3) (h : BitVec 5) (off : BitVec 24) (s : State) :
    exec (.ldvb d bp t h off) s = execLdvb d bp t h off s := rfl
@[simp] theorem exec_mma (x : Nat) (y : Nat) (slot : Nat) (s : State) :
    exec (.mma x y slot) s = execMma x y slot s := rfl
@[simp] theorem exec_mmai (x : Nat) (y : Nat) (slot : Nat) (s : State) :
    exec (.mmai x y slot) s = execMmai x y slot s := rfl
@[simp] theorem exec_mepi (x : Nat) (y : Nat) (slot : Nat) (s : State) :
    exec (.mepi x y slot) s = execMepi x y slot s := rfl
@[simp] theorem exec_copy (x : Nat) (y : Nat) (slot : Nat) (s : State) :
    exec (.copy x y slot) s = execCopy x y slot s := rfl
@[simp] theorem exec_slab (x : Nat) (y : Nat) (slot : Nat) (s : State) :
    exec (.slab x y slot) s = execSlab x y slot s := rfl
@[simp] theorem exec_gather (x : Nat) (y : Nat) (slot : Nat) (s : State) :
    exec (.gather x y slot) s = execGather x y slot s := rfl
@[simp] theorem exec_fill (x : Nat) (y : Nat) (slot : Nat) (s : State) :
    exec (.fill x y slot) s = execFill x y slot s := rfl
@[simp] theorem exec_ccvt (x : Nat) (y : Nat) (slot : Nat) (s : State) :
    exec (.ccvt x y slot) s = execCcvt x y slot s := rfl
@[simp] theorem exec_cred (x : Nat) (y : Nat) (slot : Nat) (s : State) :
    exec (.cred x y slot) s = execCred x y slot s := rfl
@[simp] theorem exec_optadam (x : Nat) (y : Nat) (slot : Nat) (s : State) :
    exec (.optadam x y slot) s = execOptadam x y slot s := rfl
@[simp] theorem exec_optsgd (x : Nat) (y : Nat) (slot : Nat) (s : State) :
    exec (.optsgd x y slot) s = execOptsgd x y slot s := rfl
@[simp] theorem exec_engineChunk (x : Nat) (y : Nat) (slot : Nat) (s : State) :
    exec (.engineChunk x y slot) s = execEngineChunk x y slot s := rfl
@[simp] theorem exec_commandCompletion (x : Nat) (y : Nat) (slot : Nat) (mtx : Bool) (s : State) :
    exec (.commandCompletion x y slot mtx) s = execCommandCompletion x y slot mtx s := rfl
@[simp] theorem exec_gangStart (gang : Nat) (slot : Nat) (s : State) :
    exec (.gangStart gang slot) s = execGangStart gang slot s := rfl
@[simp] theorem exec_deferredEngineError (s : State) :
    exec (.deferredEngineError) s = execDeferredEngineError s := rfl
@[simp] theorem exec_sliceRequest (n : Nat) (s : State) :
    exec (.sliceRequest n) s = execSliceRequest n s := rfl
@[simp] theorem exec_sectorFill (n : Nat) (s : State) :
    exec (.sectorFill n) s = execSectorFill n s := rfl
@[simp] theorem exec_tableWalk (n : Nat) (s : State) :
    exec (.tableWalk n) s = execTableWalk n s := rfl
@[simp] theorem exec_lineArrival (n : Nat) (s : State) :
    exec (.lineArrival n) s = execLineArrival n s := rfl
@[simp] theorem exec_remoteScratchpadRequest (n : Nat) (s : State) :
    exec (.remoteScratchpadRequest n) s = execRemoteScratchpadRequest n s := rfl
@[simp] theorem exec_ticketFetch (n : Nat) (s : State) :
    exec (.ticketFetch n) s = execTicketFetch n s := rfl
@[simp] theorem exec_ticketFetchEnd (n : Nat) (s : State) :
    exec (.ticketFetchEnd n) s = execTicketFetchEnd n s := rfl
@[simp] theorem exec_redemption (n : Nat) (s : State) :
    exec (.redemption n) s = execRedemption n s := rfl
@[simp] theorem exec_rdmsDelivery (n : Nat) (s : State) :
    exec (.rdmsDelivery n) s = execRdmsDelivery n s := rfl
@[simp] theorem exec_retireNotice (n : Nat) (s : State) :
    exec (.retireNotice n) s = execRetireNotice n s := rfl
@[simp] theorem exec_ticketReclaim (n : Nat) (s : State) :
    exec (.ticketReclaim n) s = execTicketReclaim n s := rfl
@[simp] theorem exec_messageArrival (n : Nat) (s : State) :
    exec (.messageArrival n) s = execMessageArrival n s := rfl
@[simp] theorem exec_barrierArrival (n : Nat) (s : State) :
    exec (.barrierArrival n) s = execBarrierArrival n s := rfl
@[simp] theorem exec_migrationArrival (n : Nat) (s : State) :
    exec (.migrationArrival n) s = execMigrationArrival n s := rfl
@[simp] theorem exec_combOperation (die : Nat) (s : State) :
    exec (.combOperation die) s = execCombOperation die s := rfl
@[simp] theorem exec_combAnswer (n : Nat) (s : State) :
    exec (.combAnswer n) s = execCombAnswer n s := rfl
@[simp] theorem exec_spill (p : Nat) (st : Nat) (s : State) :
    exec (.spill p st) s = execSpill p st s := rfl
@[simp] theorem exec_spillComplete (p : Nat) (st : Nat) (s : State) :
    exec (.spillComplete p st) s = execSpillComplete p st s := rfl
@[simp] theorem exec_recall (p : Nat) (st : Nat) (s : State) :
    exec (.recall p st) s = execRecall p st s := rfl
@[simp] theorem exec_recallComplete (p : Nat) (st : Nat) (s : State) :
    exec (.recallComplete p st) s = execRecallComplete p st s := rfl
@[simp] theorem exec_ringEntryRead (p : Nat) (r : Nat) (s : State) :
    exec (.ringEntryRead p r) s = execRingEntryRead p r s := rfl
@[simp] theorem exec_dependenceRead (p : Nat) (lid : Nat) (k : Nat) (s : State) :
    exec (.dependenceRead p lid k) s = execDependenceRead p lid k s := rfl
@[simp] theorem exec_dependenceReread (p : Nat) (s : State) :
    exec (.dependenceReread p) s = execDependenceReread p s := rfl
@[simp] theorem exec_launchAgeing (p : Nat) (lid : Nat) (s : State) :
    exec (.launchAgeing p lid) s = execLaunchAgeing p lid s := rfl
@[simp] theorem exec_groupTableRead (p : Nat) (lid : Nat) (s : State) :
    exec (.groupTableRead p lid) s = execGroupTableRead p lid s := rfl
@[simp] theorem exec_launchDispatch (p : Nat) (lid : Nat) (s : State) :
    exec (.launchDispatch p lid) s = execLaunchDispatch p lid s := rfl
@[simp] theorem exec_launchRetirement (p : Nat) (lid : Nat) (s : State) :
    exec (.launchRetirement p lid) s = execLaunchRetirement p lid s := rfl
@[simp] theorem exec_doneIncrement (p : Nat) (lid : Nat) (s : State) :
    exec (.doneIncrement p lid) s = execDoneIncrement p lid s := rfl
@[simp] theorem exec_watchdog (p : Nat) (lid : Nat) (idx : Nat) (s : State) :
    exec (.watchdog p lid idx) s = execWatchdog p lid idx s := rfl
@[simp] theorem exec_occupancyRecompute (s : State) :
    exec (.occupancyRecompute) s = execOccupancyRecompute s := rfl
@[simp] theorem exec_pwr (watts : Nat) (temp : Nat) (s : State) :
    exec (.pwr watts temp) s = execPwr watts temp s := rfl
@[simp] theorem exec_droopTrip (q : Nat) (eighths : Nat) (s : State) :
    exec (.droopTrip q eighths) s = execDroopTrip q eighths s := rfl
@[simp] theorem exec_powerLimit (near : Bool) (s : State) :
    exec (.powerLimit near) s = execPowerLimit near s := rfl
@[simp] theorem exec_pin (q : Nat) (s : State) :
    exec (.pin q) s = execPin q s := rfl
@[simp] theorem exec_unpin (q : Nat) (s : State) :
    exec (.unpin q) s = execUnpin q s := rfl
@[simp] theorem exec_pageAnswer (p : Nat) (v : BitVec 64) (s : State) :
    exec (.pageAnswer p v) s = execPageAnswer p v s := rfl
@[simp] theorem exec_raise (p : Nat) (v : BitVec 64) (s : State) :
    exec (.raise p v) s = execRaise p v s := rfl
@[simp] theorem exec_invalidationComplete (p : Nat) (s : State) :
    exec (.invalidationComplete p) s = execInvalidationComplete p s := rfl
@[simp] theorem exec_sweepComplete (p : Nat) (s : State) :
    exec (.sweepComplete p) s = execSweepComplete p s := rfl
@[simp] theorem exec_prqcfg (p : Nat) (v : BitVec 64) (s : State) :
    exec (.prqcfg p v) s = execPrqcfg p v s := rfl
@[simp] theorem exec_tail (p : Nat) (r : Nat) (v : BitVec 64) (s : State) :
    exec (.tail p r v) s = execTail p r v s := rfl
@[simp] theorem exec_evhead (fn : Nat) (v : BitVec 64) (s : State) :
    exec (.evhead fn v) s = execEvhead fn v s := rfl
@[simp] theorem exec_axtbl (p : Nat) (v : BitVec 64) (s : State) :
    exec (.axtbl p v) s = execAxtbl p v s := rfl
@[simp] theorem exec_tjtbl (p : Nat) (v : BitVec 64) (s : State) :
    exec (.tjtbl p v) s = execTjtbl p v s := rfl
@[simp] theorem exec_clr (die : Nat) (v : BitVec 64) (s : State) :
    exec (.clr die v) s = execClr die v s := rfl
@[simp] theorem exec_registerWrite (block : Nat) (idx : Nat) (off : Nat) (v : BitVec 64) (s : State) :
    exec (.registerWrite block idx off v) s = execRegisterWrite block idx off v s := rfl
@[simp] theorem exec_create (p : Nat) (s : State) :
    exec (.create p) s = execCreate p s := rfl
@[simp] theorem exec_reshape (p : Nat) (s : State) :
    exec (.reshape p) s = execReshape p s := rfl
@[simp] theorem exec_destroy (p : Nat) (s : State) :
    exec (.destroy p) s = execDestroy p s := rfl
@[simp] theorem exec_stop (p : Nat) (s : State) :
    exec (.stop p) s = execStop p s := rfl
@[simp] theorem exec_resume (p : Nat) (s : State) :
    exec (.resume p) s = execResume p s := rfl
@[simp] theorem exec_save (p : Nat) (s : State) :
    exec (.save p) s = execSave p s := rfl
@[simp] theorem exec_restore (p : Nat) (s : State) :
    exec (.restore p) s = execRestore p s := rfl
@[simp] theorem exec_opUndefined (p : Nat) (op : Nat) (s : State) :
    exec (.opUndefined p op) s = execOpUndefined p op s := rfl
@[simp] theorem exec_stopHalt (p : Nat) (s : State) :
    exec (.stopHalt p) s = execStopHalt p s := rfl
@[simp] theorem exec_flushToken (p : Nat) (x : Nat) (y : Nat) (s : State) :
    exec (.flushToken p x y) s = execFlushToken p x y s := rfl
@[simp] theorem exec_load (s : State) :
    exec (.load) s = execLoad s := rfl
@[simp] theorem exec_nexta (s : State) :
    exec (.nexta) s = execNexta s := rfl
@[simp] theorem exec_nextb (s : State) :
    exec (.nextb) s = execNextb s := rfl
@[simp] theorem exec_commit (s : State) :
    exec (.commit) s = execCommit s := rfl
@[simp] theorem exec_fwopUndefined (op : Nat) (s : State) :
    exec (.fwopUndefined op) s = execFwopUndefined op s := rfl
@[simp] theorem exec_fwVerifyDone (s : State) :
    exec (.fwVerifyDone) s = execFwVerifyDone s := rfl
@[simp] theorem exec_atgo (v : BitVec 64) (s : State) :
    exec (.atgo v) s = execAtgo v s := rfl
@[simp] theorem exec_moduleReset (s : State) :
    exec (.moduleReset) s = execModuleReset s := rfl
@[simp] theorem exec_imageVerified (s : State) :
    exec (.imageVerified) s = execImageVerified s := rfl
@[simp] theorem exec_dieReady (d : Nat) (s : State) :
    exec (.dieReady d) s = execDieReady d s := rfl
@[simp] theorem exec_dieFailed (d : Nat) (s : State) :
    exec (.dieFailed d) s = execDieFailed d s := rfl
@[simp] theorem exec_functionLevelReset (p : Nat) (s : State) :
    exec (.functionLevelReset p) s = execFunctionLevelReset p s := rfl
@[simp] theorem exec_vectorUnmask (fn : Nat) (vector : Nat) (s : State) :
    exec (.vectorUnmask fn vector) s = execVectorUnmask fn vector s := rfl
@[simp] theorem exec_cxlMemAccess (dec : Nat) (pa : Nat) (w : Option (BitVec 256)) (s : State) :
    exec (.cxlMemAccess dec pa w) s = execCxlMemAccess dec pa w s := rfl
@[simp] theorem exec_hostSnoop (hpa : Nat) (s : State) :
    exec (.hostSnoop hpa) s = execHostSnoop hpa s := rfl
@[simp] theorem exec_inboundSwarmRequest (die : Nat) (src : Nat) (peer : Nat) (pa : Nat) (op : SwarmOp) (s : State) :
    exec (.inboundSwarmRequest die src peer pa op) s = execInboundSwarmRequest die src peer pa op s := rfl
@[simp] theorem exec_linkStateChange (die : Nat) (up : Bool) (peer : Nat) (s : State) :
    exec (.linkStateChange die up peer) s = execLinkStateChange die up peer s := rfl
@[simp] theorem exec_flitRetry (die : Nat) (swarm : Bool) (p : Nat) (lid : Nat) (s : State) :
    exec (.flitRetry die swarm p lid) s = execFlitRetry die swarm p lid s := rfl
@[simp] theorem exec_smbusRequest (rq : SmbusRq) (s : State) :
    exec (.smbusRequest rq) s = execSmbusRequest rq s := rfl
@[simp] theorem exec_adoptNewGen (n : Nat) (s : State) :
    exec (.adoptNewGen n) s = execAdoptNewGen n s := rfl
@[simp] theorem exec_writeBackComplete (n : Nat) (s : State) :
    exec (.writeBackComplete n) s = execWriteBackComplete n s := rfl
@[simp] theorem exec_swarmAnswer (n : Nat) (ok : Bool) (data : BitVec 256) (s : State) :
    exec (.swarmAnswer n ok data) s = execSwarmAnswer n ok data s := rfl
@[simp] theorem exec_stackOperation (die : Nat) (s : State) :
    exec (.stackOperation die) s = execStackOperation die s := rfl
@[simp] theorem exec_wakeReachesCore (n : Nat) (s : State) :
    exec (.wakeReachesCore n) s = execWakeReachesCore n s := rfl
@[simp] theorem exec_partitionCommandEnded (p : Nat) (err : Bool) (s : State) :
    exec (.partitionCommandEnded p err) s = execPartitionCommandEnded p err s := rfl
@[simp] theorem exec_evbase (fn : Nat) (v : BitVec 64) (s : State) :
    exec (.evbase fn v) s = execEvbase fn v s := rfl
@[simp] theorem exec_droopRecovery (q : Nat) (s : State) :
    exec (.droopRecovery q) s = execDroopRecovery q s := rfl
@[simp] theorem exec_firmwareRunsOnEveryDie (s : State) :
    exec (.firmwareRunsOnEveryDie) s = execFirmwareRunsOnEveryDie s := rfl
@[simp] theorem exec_jtagInstruction (ir : Nat) (s : State) :
    exec (.jtagInstruction ir) s = execJtagInstruction ir s := rfl

end Sys2Proof.Machine
end

