-- ==== Sys2Proof/Laws/Memory.lean ====
section
/-! SUPPORT. The laws of tables and memory: the canonical form is kept, a read after a write to the same place gives the value
written, and a write leaves every other place alone. -/

namespace Sys2Proof.Machine

/-! ## Tables -/

theorem Table.rising_iff {ν : Type} (t : Table ν) : Table.rising t = true ↔ t.Pairwise (fun a b => a.1 < b.1) := by
  induction t with
  | nil => simp [Table.rising]
  | cons p r ih =>
    cases r with
    | nil => simp [Table.rising]
    | cons q r =>
      simp only [Table.rising, Bool.and_eq_true, decide_eq_true_eq, ih, List.pairwise_cons, List.mem_cons]
      constructor
      · rintro ⟨h, h1, h2⟩
        refine ⟨?_, h1, h2⟩
        rintro a (rfl | ha)
        · exact h
        · exact Nat.lt_trans h (h1 a ha)
      · rintro ⟨h, h1, h2⟩
        exact ⟨h q (Or.inl rfl), h1, h2⟩

theorem Table.rising_filter {ν : Type} {t : Table ν} (f : Nat × ν → Bool) (h : Table.rising t = true) :
    Table.rising (t.filter f) = true := by
  rw [Table.rising_iff] at h ⊢; exact h.filter f

theorem Table.rising_erase {ν : Type} {t : Table ν} (k : Nat) (h : Table.rising t = true) :
    Table.rising (Table.erase t k) = true := Table.rising_filter _ h

theorem Table.mem_erase {ν : Type} {t : Table ν} {k : Nat} {p : Nat × ν} (h : p ∈ Table.erase t k) :
    p ∈ t ∧ p.1 ≠ k := by simpa [Table.erase] using h

theorem Table.mem_put {ν : Type} {t : Table ν} {k : Nat} {v : ν} {p : Nat × ν} (h : p ∈ Table.put t k v) :
    p = (k, v) ∨ p ∈ t := by
  induction t with
  | nil => simpa [Table.put] using h
  | cons q r ih =>
    unfold Table.put at h
    split at h
    · simpa using h
    · rcases List.mem_cons.1 h with rfl | h
      · simp
      · rcases ih h with rfl | h
        · simp
        · simp [h]

theorem Table.rising_put {ν : Type} {t : Table ν} (k : Nat) (v : ν) (h : Table.rising t = true)
    (hk : ∀ p ∈ t, p.1 ≠ k) : Table.rising (Table.put t k v) = true := by
  rw [Table.rising_iff] at h ⊢
  induction t with
  | nil => simp [Table.put]
  | cons q r ih =>
    obtain ⟨h1, h2⟩ := List.pairwise_cons.1 h
    have hr := ih h2 (fun p hp => hk p (List.mem_cons_of_mem _ hp))
    unfold Table.put
    split
    · next hlt =>
      refine List.pairwise_cons.2 ⟨?_, h⟩
      intro p hp
      rcases List.mem_cons.1 hp with rfl | hp
      · exact hlt
      · exact Nat.lt_trans hlt (h1 p hp)
    · next hlt =>
      refine List.pairwise_cons.2 ⟨?_, hr⟩
      intro p hp
      rcases Table.mem_put hp with rfl | hp
      · have := hk q (List.mem_cons_self ..); simp only at *; omega
      · exact h1 p hp

theorem Table.rising_set {ν : Type} {t : Table ν} (k : Nat) (v : ν) (h : Table.rising t = true) :
    Table.rising (Table.set t k v) = true :=
  Table.rising_put k v (Table.rising_erase k h) (fun _ hp => (Table.mem_erase hp).2)

theorem Table.get?_erase_self {ν : Type} (t : Table ν) (k : Nat) : Table.get? (Table.erase t k) k = none := by
  induction t with
  | nil => rfl
  | cons p r ih =>
    simp only [Table.erase, List.filter_cons] at ih ⊢
    split
    · next h => simp only [bne_iff_ne, ne_eq] at h; simp only [Table.get?, h, if_false]; exact ih
    · exact ih

theorem Table.get?_erase_ne {ν : Type} (t : Table ν) {j k : Nat} (h : j ≠ k) :
    Table.get? (Table.erase t k) j = Table.get? t j := by
  induction t with
  | nil => rfl
  | cons p r ih =>
    simp only [Table.erase, List.filter_cons] at ih ⊢
    split
    · simp only [Table.get?, ih]
    · next hp =>
      simp only [bne_iff_ne, ne_eq, Decidable.not_not] at hp
      rw [ih]; simp only [Table.get?, hp, if_neg (Ne.symm h)]

theorem Table.get?_put_self {ν : Type} {t : Table ν} {k : Nat} (v : ν) (hk : ∀ p ∈ t, p.1 ≠ k) :
    Table.get? (Table.put t k v) k = some v := by
  induction t with
  | nil => simp [Table.put, Table.get?]
  | cons q r ih =>
    unfold Table.put
    split
    · simp [Table.get?]
    · simp only [Table.get?, if_neg (hk q (List.mem_cons_self ..))]
      exact ih (fun p hp => hk p (List.mem_cons_of_mem _ hp))

theorem Table.get?_put_ne {ν : Type} (t : Table ν) {j k : Nat} (v : ν) (h : j ≠ k) :
    Table.get? (Table.put t k v) j = Table.get? t j := by
  induction t with
  | nil => simp [Table.put, Table.get?, Ne.symm h]
  | cons q r ih =>
    unfold Table.put
    split
    · simp [Table.get?, Ne.symm h]
    · simp only [Table.get?, ih]

@[simp] theorem Table.get?_set_self {ν : Type} (t : Table ν) (k : Nat) (v : ν) :
    Table.get? (Table.set t k v) k = some v := Table.get?_put_self v (fun _ hp => (Table.mem_erase hp).2)

theorem Table.get?_set_ne {ν : Type} (t : Table ν) {j k : Nat} (v : ν) (h : j ≠ k) :
    Table.get? (Table.set t k v) j = Table.get? t j := by
  rw [Table.set, Table.get?_put_ne _ v h, Table.get?_erase_ne _ h]

@[simp] theorem Table.getD_set_self {ν : Type} (t : Table ν) (k : Nat) (v d : ν) :
    Table.getD (Table.set t k v) k d = v := by simp [Table.getD]

theorem Table.getD_set_ne {ν : Type} (t : Table ν) {j k : Nat} (v d : ν) (h : j ≠ k) :
    Table.getD (Table.set t k v) j d = Table.getD t j d := by simp [Table.getD, Table.get?_set_ne t v h]

/-! ## Memory keeps its canonical form -/

theorem Memory.wf_iff (m : Memory) :
    Memory.wf m = true ↔ Table.rising m = true ∧ ∀ c ∈ m, c.2 ≠ Memory.unlisted := by
  simp [Memory.wf]

theorem Memory.wf_filter {m : Memory} (f : Host.Cell → Bool) (h : Memory.wf m = true) : Memory.wf (m.filter f) = true := by
  rw [Memory.wf_iff] at h ⊢
  exact ⟨Table.rising_filter f h.1, fun c hc => h.2 c (List.mem_filter.1 hc).1⟩

theorem Memory.wf_write {m : Memory} (a : Nat) (b : Byte) (h : Memory.wf m = true) :
    Memory.wf (Memory.write m a b) = true := by
  unfold Memory.write
  split
  · exact Memory.wf_filter _ h
  · next hb =>
    rw [Memory.wf_iff] at h ⊢
    refine ⟨Table.rising_set a b h.1, fun c hc => ?_⟩
    rcases Table.mem_put hc with rfl | hc
    · exact hb
    · exact h.2 c (Table.mem_erase hc).1

theorem Memory.wf_writeBytes {m : Memory} (a : Nat) (bs : List Byte) (h : Memory.wf m = true) :
    Memory.wf (Memory.writeBytes m a bs) = true := by
  induction bs generalizing m a with
  | nil => exact h
  | cons b r ih => exact ih _ (Memory.wf_write a b h)

theorem Memory.wf_clear {m : Memory} (a n : Nat) (h : Memory.wf m = true) : Memory.wf (Memory.clear m a n) = true :=
  Memory.wf_filter _ h

theorem Memory.wf_writes {m : Memory} (ws : List (Nat × Byte)) (h : Memory.wf m = true) :
    Memory.wf (ws.foldl (fun m w => Memory.write m w.1 w.2) m) = true := by
  induction ws generalizing m with
  | nil => exact h
  | cons w r ih => exact ih (Memory.wf_write w.1 w.2 h)

/-! ## Reads after writes -/

@[simp] theorem Memory.read_write_self (m : Memory) (a : Nat) (b : Byte) : Memory.read (Memory.write m a b) a = b := by
  unfold Memory.write Memory.read
  split
  · next h => simp [Table.getD, Table.get?_erase_self, h]
  · simp

theorem Memory.read_write_ne (m : Memory) {a x : Nat} (b : Byte) (h : x ≠ a) :
    Memory.read (Memory.write m a b) x = Memory.read m x := by
  unfold Memory.write Memory.read
  split
  · simp [Table.getD, Table.get?_erase_ne m h]
  · exact Table.getD_set_ne m b _ h

/-- A write of some bytes leaves what lies outside them alone. -/
theorem Memory.read_writeBytes_out (m : Memory) (a : Nat) (bs : List Byte) {x : Nat} (h : x < a ∨ a + bs.length ≤ x) :
    Memory.read (Memory.writeBytes m a bs) x = Memory.read m x := by
  induction bs generalizing m a with
  | nil => rfl
  | cons b r ih =>
    have hl : (b :: r).length = r.length + 1 := List.length_cons
    rw [Memory.writeBytes, ih _ _ (by omega), Memory.read_write_ne _ _ (by omega)]

/-- Byte i of what was written is read back. -/
theorem Memory.read_writeBytes_in (m : Memory) (a : Nat) (bs : List Byte) {i : Nat} (h : i < bs.length) :
    Memory.read (Memory.writeBytes m a bs) (a + i) = bs[i] := by
  induction bs generalizing m a i with
  | nil => simp at h
  | cons b r ih =>
    cases i with
    | zero => rw [Memory.writeBytes, Nat.add_zero, Memory.read_writeBytes_out _ _ _ (by omega)]; simp
    | succ j =>
      have := ih (Memory.write m a b) (a + 1) (i := j) (by simpa using h)
      rw [Memory.writeBytes, show a + (j + 1) = a + 1 + j by omega, this]; rfl

/-- A list of writes leaves an address that none of them names alone. -/
theorem Memory.read_writes_out (m : Memory) (ws : List (Nat × Byte)) {x : Nat} (h : ∀ w ∈ ws, w.1 ≠ x) :
    Memory.read (ws.foldl (fun m w => Memory.write m w.1 w.2) m) x = Memory.read m x := by
  induction ws generalizing m with
  | nil => rfl
  | cons w r ih =>
    rw [List.foldl_cons, ih _ (fun v hv => h v (List.mem_cons_of_mem _ hv)),
      Memory.read_write_ne _ _ (Ne.symm (h w (List.mem_cons_self ..)))]

/-! ## Little-endian values (R3) -/

@[simp] theorem leBytes_length (v n : Nat) : (leBytes v n).length = n := by
  induction n generalizing v with
  | zero => rfl
  | succ k ih => simp [leBytes, ih]

theorem leNat_leBytes (v n : Nat) : leNat (leBytes v n) = v % 2 ^ (8 * n) := by
  induction n generalizing v with
  | zero => simp [leBytes, leNat, Nat.mod_one]
  | succ k ih =>
    rw [leBytes, leNat, ih, BitVec.toNat_ofNat, show 8 * (k + 1) = 8 + 8 * k by omega, Nat.pow_add, Nat.mod_mul]

/-! ## The operations of the state -/

theorem State.touchBank_wf {s : State} (p a : Nat) (h : Memory.wf s.sram = true) :
    Memory.wf (s.touchBank p a).sram = true := by
  unfold State.touchBank; dsimp only; split
  · exact h
  · exact Memory.wf_clear _ _ h

theorem State.touchOffs_wf {s : State} (p core : Nat) (offs : List Nat) (h : Memory.wf s.sram = true) :
    Memory.wf (s.touchOffs p core offs).sram = true := by
  unfold State.touchOffs
  induction offs generalizing s with
  | nil => exact h
  | cons o r ih => exact ih (State.touchBank_wf _ _ h)

theorem State.scratchWrite_wf {s : State} (p core : Nat) (ws : List (Nat × Byte)) (h : Memory.wf s.sram = true) :
    Memory.wf (s.scratchWrite p core ws).sram = true := Memory.wf_writes _ (State.touchOffs_wf _ _ _ h)

theorem State.sramOp_wf {s : State} (p core off va : Nat) (op : MemOp) (h : Memory.wf s.sram = true) :
    Memory.wf (s.sramOp p core off va op).1.sram = true := by
  unfold State.sramOp State.scratchRead
  dsimp only
  split
  · exact State.touchOffs_wf _ _ _ h
  · dsimp only; split
    · exact State.scratchWrite_wf _ _ _ (State.touchOffs_wf _ _ _ h)
    · exact State.touchOffs_wf _ _ _ h

theorem State.hostWrite_wf {s : State} (a : Nat) (bs : List Byte) (h : Memory.wf s.host = true) :
    Memory.wf (s.hostWrite a bs).host = true := Memory.wf_writeBytes _ _ h

theorem State.devWrite_wf {s : State} (key : Option Nat) (pa : Nat) (l : Line) (pois : Bool) (h : Memory.wf s.dev = true) :
    Memory.wf (s.devWrite key pa l pois).dev = true := Memory.wf_writeBytes _ _ h

theorem State.hostWriteUnit_wf {s : State} (key : Option Nat) (enc : Bool) (a : Nat) (l : Line) (pois : Bool)
    (h : Memory.wf s.host = true) : Memory.wf (s.hostWriteUnit key enc a l pois).host = true := by
  unfold State.hostWriteUnit
  dsimp only
  split
  · split <;> exact h
  · split <;> exact Memory.wf_writeBytes _ _ h

theorem State.hostWriteUnit_dev {s : State} (key : Option Nat) (enc : Bool) (a : Nat) (l : Line) (pois : Bool) :
    (s.hostWriteUnit key enc a l pois).dev = s.dev := by
  unfold State.hostWriteUnit
  dsimp only
  split
  · split <;> rfl
  · split <;> rfl

theorem State.targetWrite_wf {s : State} (p : Nat) (leaf : Leaf) (a : Nat) (l : Line) (pois : Bool)
    (hd : Memory.wf s.dev = true) (hh : Memory.wf s.host = true) :
    Memory.wf (s.targetWrite p leaf a l pois).dev = true ∧ Memory.wf (s.targetWrite p leaf a l pois).host = true := by
  unfold State.targetWrite
  split
  · exact ⟨State.devWrite_wf _ _ _ _ hd, hh⟩
  · exact ⟨(State.hostWriteUnit_dev _ _ _ _ _).symm ▸ hd, State.hostWriteUnit_wf _ _ _ _ _ hh⟩

end Sys2Proof.Machine
end

