-- ==== Sys2Proof/Laws/State.lean ====
section
/-! SUPPORT. What the updates of the state and of a thread leave alone: one lemma for each field and each update. -/

namespace Sys2Proof.Machine

/-! ## The state -/

@[simp] theorem State.setPart_thr (s : State) (p : Nat) (x : Part) : (s.setPart p x).thr = s.thr := rfl
@[simp] theorem State.setPart_threads (s : State) (p : Nat) (x : Part) : (s.setPart p x).threads = s.threads := rfl
@[simp] theorem State.setPart_slots (s : State) (p : Nat) (x : Part) : (s.setPart p x).slots = s.slots := rfl
@[simp] theorem State.setPart_sram (s : State) (p : Nat) (x : Part) : (s.setPart p x).sram = s.sram := rfl
@[simp] theorem State.setPart_tags (s : State) (p : Nat) (x : Part) : (s.setPart p x).tags = s.tags := rfl
@[simp] theorem State.setPart_sramPois (s : State) (p : Nat) (x : Part) : (s.setPart p x).sramPois = s.sramPois := rfl
@[simp] theorem State.setPart_l1 (s : State) (p : Nat) (x : Part) : (s.setPart p x).l1 = s.l1 := rfl
@[simp] theorem State.setPart_l1cfg (s : State) (p : Nat) (x : Part) : (s.setPart p x).l1cfg = s.l1cfg := rfl
@[simp] theorem State.setPart_ibuf (s : State) (p : Nat) (x : Part) : (s.setPart p x).ibuf = s.ibuf := rfl
@[simp] theorem State.setPart_classes (s : State) (p : Nat) (x : Part) : (s.setPart p x).classes = s.classes := rfl
@[simp] theorem State.setPart_live (s : State) (p : Nat) (x : Part) : (s.setPart p x).live = s.live := rfl
@[simp] theorem State.setPart_net (s : State) (p : Nat) (x : Part) : (s.setPart p x).net = s.net := rfl
@[simp] theorem State.setPart_swept (s : State) (p : Nat) (x : Part) : (s.setPart p x).swept = s.swept := rfl
@[simp] theorem State.setPart_sectors (s : State) (p : Nat) (x : Part) : (s.setPart p x).sectors = s.sectors := rfl
@[simp] theorem State.setPart_tc (s : State) (p : Nat) (x : Part) : (s.setPart p x).tc = s.tc := rfl
@[simp] theorem State.setPart_held (s : State) (p : Nat) (x : Part) : (s.setPart p x).held = s.held := rfl
@[simp] theorem State.setPart_faults (s : State) (p : Nat) (x : Part) : (s.setPart p x).faults = s.faults := rfl
@[simp] theorem State.setPart_faultWaits (s : State) (p : Nat) (x : Part) : (s.setPart p x).faultWaits = s.faultWaits := rfl
@[simp] theorem State.setPart_wayWaits (s : State) (p : Nat) (x : Part) : (s.setPart p x).wayWaits = s.wayWaits := rfl
@[simp] theorem State.setPart_metAt (s : State) (p : Nat) (x : Part) : (s.setPart p x).metAt = s.metAt := rfl
@[simp] theorem State.setPart_mets (s : State) (p : Nat) (x : Part) : (s.setPart p x).mets = s.mets := rfl
@[simp] theorem State.setPart_tickets (s : State) (p : Nat) (x : Part) : (s.setPart p x).tickets = s.tickets := rfl
@[simp] theorem State.setPart_lost (s : State) (p : Nat) (x : Part) : (s.setPart p x).lost = s.lost := rfl
@[simp] theorem State.setPart_wbs (s : State) (p : Nat) (x : Part) : (s.setPart p x).wbs = s.wbs := rfl
@[simp] theorem State.setPart_bars (s : State) (p : Nat) (x : Part) : (s.setPart p x).bars = s.bars := rfl
@[simp] theorem State.setPart_swarms (s : State) (p : Nat) (x : Part) : (s.setPart p x).swarms = s.swarms := rfl
@[simp] theorem State.setPart_dev (s : State) (p : Nat) (x : Part) : (s.setPart p x).dev = s.dev := rfl
@[simp] theorem State.setPart_devKey (s : State) (p : Nat) (x : Part) : (s.setPart p x).devKey = s.devKey := rfl
@[simp] theorem State.setPart_devPois (s : State) (p : Nat) (x : Part) : (s.setPart p x).devPois = s.devPois := rfl
@[simp] theorem State.setPart_devErr (s : State) (p : Nat) (x : Part) : (s.setPart p x).devErr = s.devErr := rfl
@[simp] theorem State.setPart_host (s : State) (p : Nat) (x : Part) : (s.setPart p x).host = s.host := rfl
@[simp] theorem State.setPart_hostKey (s : State) (p : Nat) (x : Part) : (s.setPart p x).hostKey = s.hostKey := rfl
@[simp] theorem State.setPart_hostPois (s : State) (p : Nat) (x : Part) : (s.setPart p x).hostPois = s.hostPois := rfl
@[simp] theorem State.setPart_hostErr (s : State) (p : Nat) (x : Part) : (s.setPart p x).hostErr = s.hostErr := rfl
@[simp] theorem State.setPart_fns (s : State) (p : Nat) (x : Part) : (s.setPart p x).fns = s.fns := rfl
@[simp] theorem State.setPart_launches (s : State) (p : Nat) (x : Part) : (s.setPart p x).launches = s.launches := rfl
@[simp] theorem State.setPart_stores (s : State) (p : Nat) (x : Part) : (s.setPart p x).stores = s.stores := rfl
@[simp] theorem State.setPart_comb (s : State) (p : Nat) (x : Part) : (s.setPart p x).comb = s.comb := rfl
@[simp] theorem State.setPart_stackTab (s : State) (p : Nat) (x : Part) : (s.setPart p x).stackTab = s.stackTab := rfl
@[simp] theorem State.setPart_stackOps (s : State) (p : Nat) (x : Part) : (s.setPart p x).stackOps = s.stackOps := rfl
@[simp] theorem State.setPart_images (s : State) (p : Nat) (x : Part) : (s.setPart p x).images = s.images := rfl
@[simp] theorem State.setPart_gtime (s : State) (p : Nat) (x : Part) : (s.setPart p x).gtime = s.gtime := rfl
@[simp] theorem State.setPart_frac (s : State) (p : Nat) (x : Part) : (s.setPart p x).frac = s.frac := rfl
@[simp] theorem State.setPart_clocks (s : State) (p : Nat) (x : Part) : (s.setPart p x).clocks = s.clocks := rfl
@[simp] theorem State.setPart_gate (s : State) (p : Nat) (x : Part) : (s.setPart p x).gate = s.gate := rfl
@[simp] theorem State.setPart_errs (s : State) (p : Nat) (x : Part) : (s.setPart p x).errs = s.errs := rfl
@[simp] theorem State.setPart_links (s : State) (p : Nat) (x : Part) : (s.setPart p x).links = s.links := rfl
@[simp] theorem State.setPart_windows (s : State) (p : Nat) (x : Part) : (s.setPart p x).windows = s.windows := rfl
@[simp] theorem State.setPart_modnum (s : State) (p : Nat) (x : Part) : (s.setPart p x).modnum = s.modnum := rfl
@[simp] theorem State.setPart_hdm (s : State) (p : Nat) (x : Part) : (s.setPart p x).hdm = s.hdm := rfl
@[simp] theorem State.setPart_capgen (s : State) (p : Nat) (x : Part) : (s.setPart p x).capgen = s.capgen := rfl
@[simp] theorem State.setPart_mgmt (s : State) (p : Nat) (x : Part) : (s.setPart p x).mgmt = s.mgmt := rfl
@[simp] theorem State.setPart_log (s : State) (p : Nat) (x : Part) : (s.setPart p x).log = s.log := rfl
@[simp] theorem State.setPart_nextKey (s : State) (p : Nat) (x : Part) : (s.setPart p x).nextKey = s.nextKey := rfl
@[simp] theorem State.setPart_mgmtKey (s : State) (p : Nat) (x : Part) : (s.setPart p x).mgmtKey = s.mgmtKey := rfl
@[simp] theorem State.setPart_out (s : State) (p : Nat) (x : Part) : (s.setPart p x).out = s.out := rfl
@[simp] theorem State.setPart_jtag (s : State) (p : Nat) (x : Part) : (s.setPart p x).jtag = s.jtag := rfl
@[simp] theorem State.setPart_agenda (s : State) (p : Nat) (x : Part) : (s.setPart p x).agenda = s.agenda := rfl
@[simp] theorem State.setPart_turn (s : State) (p : Nat) (x : Part) : (s.setPart p x).turn = s.turn := rfl
@[simp] theorem State.setPart_fresh (s : State) (p : Nat) (x : Part) : (s.setPart p x).fresh = s.fresh := rfl
@[simp] theorem State.setPart_seqno (s : State) (p : Nat) (x : Part) : (s.setPart p x).seqno = s.seqno := rfl
@[simp] theorem State.modPart_thr (s : State) (p : Nat) (f : Part → Part) : (s.modPart p f).thr = s.thr := rfl
@[simp] theorem State.modPart_threads (s : State) (p : Nat) (f : Part → Part) : (s.modPart p f).threads = s.threads := rfl
@[simp] theorem State.modPart_slots (s : State) (p : Nat) (f : Part → Part) : (s.modPart p f).slots = s.slots := rfl
@[simp] theorem State.modPart_sram (s : State) (p : Nat) (f : Part → Part) : (s.modPart p f).sram = s.sram := rfl
@[simp] theorem State.modPart_tags (s : State) (p : Nat) (f : Part → Part) : (s.modPart p f).tags = s.tags := rfl
@[simp] theorem State.modPart_sramPois (s : State) (p : Nat) (f : Part → Part) : (s.modPart p f).sramPois = s.sramPois := rfl
@[simp] theorem State.modPart_l1 (s : State) (p : Nat) (f : Part → Part) : (s.modPart p f).l1 = s.l1 := rfl
@[simp] theorem State.modPart_l1cfg (s : State) (p : Nat) (f : Part → Part) : (s.modPart p f).l1cfg = s.l1cfg := rfl
@[simp] theorem State.modPart_ibuf (s : State) (p : Nat) (f : Part → Part) : (s.modPart p f).ibuf = s.ibuf := rfl
@[simp] theorem State.modPart_classes (s : State) (p : Nat) (f : Part → Part) : (s.modPart p f).classes = s.classes := rfl
@[simp] theorem State.modPart_live (s : State) (p : Nat) (f : Part → Part) : (s.modPart p f).live = s.live := rfl
@[simp] theorem State.modPart_net (s : State) (p : Nat) (f : Part → Part) : (s.modPart p f).net = s.net := rfl
@[simp] theorem State.modPart_swept (s : State) (p : Nat) (f : Part → Part) : (s.modPart p f).swept = s.swept := rfl
@[simp] theorem State.modPart_sectors (s : State) (p : Nat) (f : Part → Part) : (s.modPart p f).sectors = s.sectors := rfl
@[simp] theorem State.modPart_tc (s : State) (p : Nat) (f : Part → Part) : (s.modPart p f).tc = s.tc := rfl
@[simp] theorem State.modPart_held (s : State) (p : Nat) (f : Part → Part) : (s.modPart p f).held = s.held := rfl
@[simp] theorem State.modPart_faults (s : State) (p : Nat) (f : Part → Part) : (s.modPart p f).faults = s.faults := rfl
@[simp] theorem State.modPart_faultWaits (s : State) (p : Nat) (f : Part → Part) : (s.modPart p f).faultWaits = s.faultWaits := rfl
@[simp] theorem State.modPart_wayWaits (s : State) (p : Nat) (f : Part → Part) : (s.modPart p f).wayWaits = s.wayWaits := rfl
@[simp] theorem State.modPart_metAt (s : State) (p : Nat) (f : Part → Part) : (s.modPart p f).metAt = s.metAt := rfl
@[simp] theorem State.modPart_mets (s : State) (p : Nat) (f : Part → Part) : (s.modPart p f).mets = s.mets := rfl
@[simp] theorem State.modPart_tickets (s : State) (p : Nat) (f : Part → Part) : (s.modPart p f).tickets = s.tickets := rfl
@[simp] theorem State.modPart_lost (s : State) (p : Nat) (f : Part → Part) : (s.modPart p f).lost = s.lost := rfl
@[simp] theorem State.modPart_wbs (s : State) (p : Nat) (f : Part → Part) : (s.modPart p f).wbs = s.wbs := rfl
@[simp] theorem State.modPart_bars (s : State) (p : Nat) (f : Part → Part) : (s.modPart p f).bars = s.bars := rfl
@[simp] theorem State.modPart_swarms (s : State) (p : Nat) (f : Part → Part) : (s.modPart p f).swarms = s.swarms := rfl
@[simp] theorem State.modPart_dev (s : State) (p : Nat) (f : Part → Part) : (s.modPart p f).dev = s.dev := rfl
@[simp] theorem State.modPart_devKey (s : State) (p : Nat) (f : Part → Part) : (s.modPart p f).devKey = s.devKey := rfl
@[simp] theorem State.modPart_devPois (s : State) (p : Nat) (f : Part → Part) : (s.modPart p f).devPois = s.devPois := rfl
@[simp] theorem State.modPart_devErr (s : State) (p : Nat) (f : Part → Part) : (s.modPart p f).devErr = s.devErr := rfl
@[simp] theorem State.modPart_host (s : State) (p : Nat) (f : Part → Part) : (s.modPart p f).host = s.host := rfl
@[simp] theorem State.modPart_hostKey (s : State) (p : Nat) (f : Part → Part) : (s.modPart p f).hostKey = s.hostKey := rfl
@[simp] theorem State.modPart_hostPois (s : State) (p : Nat) (f : Part → Part) : (s.modPart p f).hostPois = s.hostPois := rfl
@[simp] theorem State.modPart_hostErr (s : State) (p : Nat) (f : Part → Part) : (s.modPart p f).hostErr = s.hostErr := rfl
@[simp] theorem State.modPart_fns (s : State) (p : Nat) (f : Part → Part) : (s.modPart p f).fns = s.fns := rfl
@[simp] theorem State.modPart_launches (s : State) (p : Nat) (f : Part → Part) : (s.modPart p f).launches = s.launches := rfl
@[simp] theorem State.modPart_stores (s : State) (p : Nat) (f : Part → Part) : (s.modPart p f).stores = s.stores := rfl
@[simp] theorem State.modPart_comb (s : State) (p : Nat) (f : Part → Part) : (s.modPart p f).comb = s.comb := rfl
@[simp] theorem State.modPart_stackTab (s : State) (p : Nat) (f : Part → Part) : (s.modPart p f).stackTab = s.stackTab := rfl
@[simp] theorem State.modPart_stackOps (s : State) (p : Nat) (f : Part → Part) : (s.modPart p f).stackOps = s.stackOps := rfl
@[simp] theorem State.modPart_images (s : State) (p : Nat) (f : Part → Part) : (s.modPart p f).images = s.images := rfl
@[simp] theorem State.modPart_gtime (s : State) (p : Nat) (f : Part → Part) : (s.modPart p f).gtime = s.gtime := rfl
@[simp] theorem State.modPart_frac (s : State) (p : Nat) (f : Part → Part) : (s.modPart p f).frac = s.frac := rfl
@[simp] theorem State.modPart_clocks (s : State) (p : Nat) (f : Part → Part) : (s.modPart p f).clocks = s.clocks := rfl
@[simp] theorem State.modPart_gate (s : State) (p : Nat) (f : Part → Part) : (s.modPart p f).gate = s.gate := rfl
@[simp] theorem State.modPart_errs (s : State) (p : Nat) (f : Part → Part) : (s.modPart p f).errs = s.errs := rfl
@[simp] theorem State.modPart_links (s : State) (p : Nat) (f : Part → Part) : (s.modPart p f).links = s.links := rfl
@[simp] theorem State.modPart_windows (s : State) (p : Nat) (f : Part → Part) : (s.modPart p f).windows = s.windows := rfl
@[simp] theorem State.modPart_modnum (s : State) (p : Nat) (f : Part → Part) : (s.modPart p f).modnum = s.modnum := rfl
@[simp] theorem State.modPart_hdm (s : State) (p : Nat) (f : Part → Part) : (s.modPart p f).hdm = s.hdm := rfl
@[simp] theorem State.modPart_capgen (s : State) (p : Nat) (f : Part → Part) : (s.modPart p f).capgen = s.capgen := rfl
@[simp] theorem State.modPart_mgmt (s : State) (p : Nat) (f : Part → Part) : (s.modPart p f).mgmt = s.mgmt := rfl
@[simp] theorem State.modPart_log (s : State) (p : Nat) (f : Part → Part) : (s.modPart p f).log = s.log := rfl
@[simp] theorem State.modPart_nextKey (s : State) (p : Nat) (f : Part → Part) : (s.modPart p f).nextKey = s.nextKey := rfl
@[simp] theorem State.modPart_mgmtKey (s : State) (p : Nat) (f : Part → Part) : (s.modPart p f).mgmtKey = s.mgmtKey := rfl
@[simp] theorem State.modPart_out (s : State) (p : Nat) (f : Part → Part) : (s.modPart p f).out = s.out := rfl
@[simp] theorem State.modPart_jtag (s : State) (p : Nat) (f : Part → Part) : (s.modPart p f).jtag = s.jtag := rfl
@[simp] theorem State.modPart_agenda (s : State) (p : Nat) (f : Part → Part) : (s.modPart p f).agenda = s.agenda := rfl
@[simp] theorem State.modPart_turn (s : State) (p : Nat) (f : Part → Part) : (s.modPart p f).turn = s.turn := rfl
@[simp] theorem State.modPart_fresh (s : State) (p : Nat) (f : Part → Part) : (s.modPart p f).fresh = s.fresh := rfl
@[simp] theorem State.modPart_seqno (s : State) (p : Nat) (f : Part → Part) : (s.modPart p f).seqno = s.seqno := rfl
@[simp] theorem State.setSlot_thr (s : State) (c k : Nat) (x : Slot) : (s.setSlot c k x).thr = s.thr := rfl
@[simp] theorem State.setSlot_threads (s : State) (c k : Nat) (x : Slot) : (s.setSlot c k x).threads = s.threads := rfl
@[simp] theorem State.setSlot_sram (s : State) (c k : Nat) (x : Slot) : (s.setSlot c k x).sram = s.sram := rfl
@[simp] theorem State.setSlot_tags (s : State) (c k : Nat) (x : Slot) : (s.setSlot c k x).tags = s.tags := rfl
@[simp] theorem State.setSlot_sramPois (s : State) (c k : Nat) (x : Slot) : (s.setSlot c k x).sramPois = s.sramPois := rfl
@[simp] theorem State.setSlot_l1 (s : State) (c k : Nat) (x : Slot) : (s.setSlot c k x).l1 = s.l1 := rfl
@[simp] theorem State.setSlot_l1cfg (s : State) (c k : Nat) (x : Slot) : (s.setSlot c k x).l1cfg = s.l1cfg := rfl
@[simp] theorem State.setSlot_ibuf (s : State) (c k : Nat) (x : Slot) : (s.setSlot c k x).ibuf = s.ibuf := rfl
@[simp] theorem State.setSlot_classes (s : State) (c k : Nat) (x : Slot) : (s.setSlot c k x).classes = s.classes := rfl
@[simp] theorem State.setSlot_live (s : State) (c k : Nat) (x : Slot) : (s.setSlot c k x).live = s.live := rfl
@[simp] theorem State.setSlot_net (s : State) (c k : Nat) (x : Slot) : (s.setSlot c k x).net = s.net := rfl
@[simp] theorem State.setSlot_swept (s : State) (c k : Nat) (x : Slot) : (s.setSlot c k x).swept = s.swept := rfl
@[simp] theorem State.setSlot_sectors (s : State) (c k : Nat) (x : Slot) : (s.setSlot c k x).sectors = s.sectors := rfl
@[simp] theorem State.setSlot_tc (s : State) (c k : Nat) (x : Slot) : (s.setSlot c k x).tc = s.tc := rfl
@[simp] theorem State.setSlot_held (s : State) (c k : Nat) (x : Slot) : (s.setSlot c k x).held = s.held := rfl
@[simp] theorem State.setSlot_faults (s : State) (c k : Nat) (x : Slot) : (s.setSlot c k x).faults = s.faults := rfl
@[simp] theorem State.setSlot_faultWaits (s : State) (c k : Nat) (x : Slot) : (s.setSlot c k x).faultWaits = s.faultWaits := rfl
@[simp] theorem State.setSlot_wayWaits (s : State) (c k : Nat) (x : Slot) : (s.setSlot c k x).wayWaits = s.wayWaits := rfl
@[simp] theorem State.setSlot_metAt (s : State) (c k : Nat) (x : Slot) : (s.setSlot c k x).metAt = s.metAt := rfl
@[simp] theorem State.setSlot_mets (s : State) (c k : Nat) (x : Slot) : (s.setSlot c k x).mets = s.mets := rfl
@[simp] theorem State.setSlot_tickets (s : State) (c k : Nat) (x : Slot) : (s.setSlot c k x).tickets = s.tickets := rfl
@[simp] theorem State.setSlot_lost (s : State) (c k : Nat) (x : Slot) : (s.setSlot c k x).lost = s.lost := rfl
@[simp] theorem State.setSlot_wbs (s : State) (c k : Nat) (x : Slot) : (s.setSlot c k x).wbs = s.wbs := rfl
@[simp] theorem State.setSlot_bars (s : State) (c k : Nat) (x : Slot) : (s.setSlot c k x).bars = s.bars := rfl
@[simp] theorem State.setSlot_swarms (s : State) (c k : Nat) (x : Slot) : (s.setSlot c k x).swarms = s.swarms := rfl
@[simp] theorem State.setSlot_dev (s : State) (c k : Nat) (x : Slot) : (s.setSlot c k x).dev = s.dev := rfl
@[simp] theorem State.setSlot_devKey (s : State) (c k : Nat) (x : Slot) : (s.setSlot c k x).devKey = s.devKey := rfl
@[simp] theorem State.setSlot_devPois (s : State) (c k : Nat) (x : Slot) : (s.setSlot c k x).devPois = s.devPois := rfl
@[simp] theorem State.setSlot_devErr (s : State) (c k : Nat) (x : Slot) : (s.setSlot c k x).devErr = s.devErr := rfl
@[simp] theorem State.setSlot_host (s : State) (c k : Nat) (x : Slot) : (s.setSlot c k x).host = s.host := rfl
@[simp] theorem State.setSlot_hostKey (s : State) (c k : Nat) (x : Slot) : (s.setSlot c k x).hostKey = s.hostKey := rfl
@[simp] theorem State.setSlot_hostPois (s : State) (c k : Nat) (x : Slot) : (s.setSlot c k x).hostPois = s.hostPois := rfl
@[simp] theorem State.setSlot_hostErr (s : State) (c k : Nat) (x : Slot) : (s.setSlot c k x).hostErr = s.hostErr := rfl
@[simp] theorem State.setSlot_parts (s : State) (c k : Nat) (x : Slot) : (s.setSlot c k x).parts = s.parts := rfl
@[simp] theorem State.setSlot_fns (s : State) (c k : Nat) (x : Slot) : (s.setSlot c k x).fns = s.fns := rfl
@[simp] theorem State.setSlot_launches (s : State) (c k : Nat) (x : Slot) : (s.setSlot c k x).launches = s.launches := rfl
@[simp] theorem State.setSlot_stores (s : State) (c k : Nat) (x : Slot) : (s.setSlot c k x).stores = s.stores := rfl
@[simp] theorem State.setSlot_comb (s : State) (c k : Nat) (x : Slot) : (s.setSlot c k x).comb = s.comb := rfl
@[simp] theorem State.setSlot_stackTab (s : State) (c k : Nat) (x : Slot) : (s.setSlot c k x).stackTab = s.stackTab := rfl
@[simp] theorem State.setSlot_stackOps (s : State) (c k : Nat) (x : Slot) : (s.setSlot c k x).stackOps = s.stackOps := rfl
@[simp] theorem State.setSlot_images (s : State) (c k : Nat) (x : Slot) : (s.setSlot c k x).images = s.images := rfl
@[simp] theorem State.setSlot_gtime (s : State) (c k : Nat) (x : Slot) : (s.setSlot c k x).gtime = s.gtime := rfl
@[simp] theorem State.setSlot_frac (s : State) (c k : Nat) (x : Slot) : (s.setSlot c k x).frac = s.frac := rfl
@[simp] theorem State.setSlot_clocks (s : State) (c k : Nat) (x : Slot) : (s.setSlot c k x).clocks = s.clocks := rfl
@[simp] theorem State.setSlot_gate (s : State) (c k : Nat) (x : Slot) : (s.setSlot c k x).gate = s.gate := rfl
@[simp] theorem State.setSlot_errs (s : State) (c k : Nat) (x : Slot) : (s.setSlot c k x).errs = s.errs := rfl
@[simp] theorem State.setSlot_links (s : State) (c k : Nat) (x : Slot) : (s.setSlot c k x).links = s.links := rfl
@[simp] theorem State.setSlot_windows (s : State) (c k : Nat) (x : Slot) : (s.setSlot c k x).windows = s.windows := rfl
@[simp] theorem State.setSlot_modnum (s : State) (c k : Nat) (x : Slot) : (s.setSlot c k x).modnum = s.modnum := rfl
@[simp] theorem State.setSlot_hdm (s : State) (c k : Nat) (x : Slot) : (s.setSlot c k x).hdm = s.hdm := rfl
@[simp] theorem State.setSlot_capgen (s : State) (c k : Nat) (x : Slot) : (s.setSlot c k x).capgen = s.capgen := rfl
@[simp] theorem State.setSlot_mgmt (s : State) (c k : Nat) (x : Slot) : (s.setSlot c k x).mgmt = s.mgmt := rfl
@[simp] theorem State.setSlot_log (s : State) (c k : Nat) (x : Slot) : (s.setSlot c k x).log = s.log := rfl
@[simp] theorem State.setSlot_nextKey (s : State) (c k : Nat) (x : Slot) : (s.setSlot c k x).nextKey = s.nextKey := rfl
@[simp] theorem State.setSlot_mgmtKey (s : State) (c k : Nat) (x : Slot) : (s.setSlot c k x).mgmtKey = s.mgmtKey := rfl
@[simp] theorem State.setSlot_out (s : State) (c k : Nat) (x : Slot) : (s.setSlot c k x).out = s.out := rfl
@[simp] theorem State.setSlot_jtag (s : State) (c k : Nat) (x : Slot) : (s.setSlot c k x).jtag = s.jtag := rfl
@[simp] theorem State.setSlot_agenda (s : State) (c k : Nat) (x : Slot) : (s.setSlot c k x).agenda = s.agenda := rfl
@[simp] theorem State.setSlot_turn (s : State) (c k : Nat) (x : Slot) : (s.setSlot c k x).turn = s.turn := rfl
@[simp] theorem State.setSlot_fresh (s : State) (c k : Nat) (x : Slot) : (s.setSlot c k x).fresh = s.fresh := rfl
@[simp] theorem State.setSlot_seqno (s : State) (c k : Nat) (x : Slot) : (s.setSlot c k x).seqno = s.seqno := rfl
@[simp] theorem State.modSlot_thr (s : State) (c k : Nat) (f : Slot → Slot) : (s.modSlot c k f).thr = s.thr := rfl
@[simp] theorem State.modSlot_threads (s : State) (c k : Nat) (f : Slot → Slot) : (s.modSlot c k f).threads = s.threads := rfl
@[simp] theorem State.modSlot_sram (s : State) (c k : Nat) (f : Slot → Slot) : (s.modSlot c k f).sram = s.sram := rfl
@[simp] theorem State.modSlot_tags (s : State) (c k : Nat) (f : Slot → Slot) : (s.modSlot c k f).tags = s.tags := rfl
@[simp] theorem State.modSlot_sramPois (s : State) (c k : Nat) (f : Slot → Slot) : (s.modSlot c k f).sramPois = s.sramPois := rfl
@[simp] theorem State.modSlot_l1 (s : State) (c k : Nat) (f : Slot → Slot) : (s.modSlot c k f).l1 = s.l1 := rfl
@[simp] theorem State.modSlot_l1cfg (s : State) (c k : Nat) (f : Slot → Slot) : (s.modSlot c k f).l1cfg = s.l1cfg := rfl
@[simp] theorem State.modSlot_ibuf (s : State) (c k : Nat) (f : Slot → Slot) : (s.modSlot c k f).ibuf = s.ibuf := rfl
@[simp] theorem State.modSlot_classes (s : State) (c k : Nat) (f : Slot → Slot) : (s.modSlot c k f).classes = s.classes := rfl
@[simp] theorem State.modSlot_live (s : State) (c k : Nat) (f : Slot → Slot) : (s.modSlot c k f).live = s.live := rfl
@[simp] theorem State.modSlot_net (s : State) (c k : Nat) (f : Slot → Slot) : (s.modSlot c k f).net = s.net := rfl
@[simp] theorem State.modSlot_swept (s : State) (c k : Nat) (f : Slot → Slot) : (s.modSlot c k f).swept = s.swept := rfl
@[simp] theorem State.modSlot_sectors (s : State) (c k : Nat) (f : Slot → Slot) : (s.modSlot c k f).sectors = s.sectors := rfl
@[simp] theorem State.modSlot_tc (s : State) (c k : Nat) (f : Slot → Slot) : (s.modSlot c k f).tc = s.tc := rfl
@[simp] theorem State.modSlot_held (s : State) (c k : Nat) (f : Slot → Slot) : (s.modSlot c k f).held = s.held := rfl
@[simp] theorem State.modSlot_faults (s : State) (c k : Nat) (f : Slot → Slot) : (s.modSlot c k f).faults = s.faults := rfl
@[simp] theorem State.modSlot_faultWaits (s : State) (c k : Nat) (f : Slot → Slot) : (s.modSlot c k f).faultWaits = s.faultWaits := rfl
@[simp] theorem State.modSlot_wayWaits (s : State) (c k : Nat) (f : Slot → Slot) : (s.modSlot c k f).wayWaits = s.wayWaits := rfl
@[simp] theorem State.modSlot_metAt (s : State) (c k : Nat) (f : Slot → Slot) : (s.modSlot c k f).metAt = s.metAt := rfl
@[simp] theorem State.modSlot_mets (s : State) (c k : Nat) (f : Slot → Slot) : (s.modSlot c k f).mets = s.mets := rfl
@[simp] theorem State.modSlot_tickets (s : State) (c k : Nat) (f : Slot → Slot) : (s.modSlot c k f).tickets = s.tickets := rfl
@[simp] theorem State.modSlot_lost (s : State) (c k : Nat) (f : Slot → Slot) : (s.modSlot c k f).lost = s.lost := rfl
@[simp] theorem State.modSlot_wbs (s : State) (c k : Nat) (f : Slot → Slot) : (s.modSlot c k f).wbs = s.wbs := rfl
@[simp] theorem State.modSlot_bars (s : State) (c k : Nat) (f : Slot → Slot) : (s.modSlot c k f).bars = s.bars := rfl
@[simp] theorem State.modSlot_swarms (s : State) (c k : Nat) (f : Slot → Slot) : (s.modSlot c k f).swarms = s.swarms := rfl
@[simp] theorem State.modSlot_dev (s : State) (c k : Nat) (f : Slot → Slot) : (s.modSlot c k f).dev = s.dev := rfl
@[simp] theorem State.modSlot_devKey (s : State) (c k : Nat) (f : Slot → Slot) : (s.modSlot c k f).devKey = s.devKey := rfl
@[simp] theorem State.modSlot_devPois (s : State) (c k : Nat) (f : Slot → Slot) : (s.modSlot c k f).devPois = s.devPois := rfl
@[simp] theorem State.modSlot_devErr (s : State) (c k : Nat) (f : Slot → Slot) : (s.modSlot c k f).devErr = s.devErr := rfl
@[simp] theorem State.modSlot_host (s : State) (c k : Nat) (f : Slot → Slot) : (s.modSlot c k f).host = s.host := rfl
@[simp] theorem State.modSlot_hostKey (s : State) (c k : Nat) (f : Slot → Slot) : (s.modSlot c k f).hostKey = s.hostKey := rfl
@[simp] theorem State.modSlot_hostPois (s : State) (c k : Nat) (f : Slot → Slot) : (s.modSlot c k f).hostPois = s.hostPois := rfl
@[simp] theorem State.modSlot_hostErr (s : State) (c k : Nat) (f : Slot → Slot) : (s.modSlot c k f).hostErr = s.hostErr := rfl
@[simp] theorem State.modSlot_parts (s : State) (c k : Nat) (f : Slot → Slot) : (s.modSlot c k f).parts = s.parts := rfl
@[simp] theorem State.modSlot_fns (s : State) (c k : Nat) (f : Slot → Slot) : (s.modSlot c k f).fns = s.fns := rfl
@[simp] theorem State.modSlot_launches (s : State) (c k : Nat) (f : Slot → Slot) : (s.modSlot c k f).launches = s.launches := rfl
@[simp] theorem State.modSlot_stores (s : State) (c k : Nat) (f : Slot → Slot) : (s.modSlot c k f).stores = s.stores := rfl
@[simp] theorem State.modSlot_comb (s : State) (c k : Nat) (f : Slot → Slot) : (s.modSlot c k f).comb = s.comb := rfl
@[simp] theorem State.modSlot_stackTab (s : State) (c k : Nat) (f : Slot → Slot) : (s.modSlot c k f).stackTab = s.stackTab := rfl
@[simp] theorem State.modSlot_stackOps (s : State) (c k : Nat) (f : Slot → Slot) : (s.modSlot c k f).stackOps = s.stackOps := rfl
@[simp] theorem State.modSlot_images (s : State) (c k : Nat) (f : Slot → Slot) : (s.modSlot c k f).images = s.images := rfl
@[simp] theorem State.modSlot_gtime (s : State) (c k : Nat) (f : Slot → Slot) : (s.modSlot c k f).gtime = s.gtime := rfl
@[simp] theorem State.modSlot_frac (s : State) (c k : Nat) (f : Slot → Slot) : (s.modSlot c k f).frac = s.frac := rfl
@[simp] theorem State.modSlot_clocks (s : State) (c k : Nat) (f : Slot → Slot) : (s.modSlot c k f).clocks = s.clocks := rfl
@[simp] theorem State.modSlot_gate (s : State) (c k : Nat) (f : Slot → Slot) : (s.modSlot c k f).gate = s.gate := rfl
@[simp] theorem State.modSlot_errs (s : State) (c k : Nat) (f : Slot → Slot) : (s.modSlot c k f).errs = s.errs := rfl
@[simp] theorem State.modSlot_links (s : State) (c k : Nat) (f : Slot → Slot) : (s.modSlot c k f).links = s.links := rfl
@[simp] theorem State.modSlot_windows (s : State) (c k : Nat) (f : Slot → Slot) : (s.modSlot c k f).windows = s.windows := rfl
@[simp] theorem State.modSlot_modnum (s : State) (c k : Nat) (f : Slot → Slot) : (s.modSlot c k f).modnum = s.modnum := rfl
@[simp] theorem State.modSlot_hdm (s : State) (c k : Nat) (f : Slot → Slot) : (s.modSlot c k f).hdm = s.hdm := rfl
@[simp] theorem State.modSlot_capgen (s : State) (c k : Nat) (f : Slot → Slot) : (s.modSlot c k f).capgen = s.capgen := rfl
@[simp] theorem State.modSlot_mgmt (s : State) (c k : Nat) (f : Slot → Slot) : (s.modSlot c k f).mgmt = s.mgmt := rfl
@[simp] theorem State.modSlot_log (s : State) (c k : Nat) (f : Slot → Slot) : (s.modSlot c k f).log = s.log := rfl
@[simp] theorem State.modSlot_nextKey (s : State) (c k : Nat) (f : Slot → Slot) : (s.modSlot c k f).nextKey = s.nextKey := rfl
@[simp] theorem State.modSlot_mgmtKey (s : State) (c k : Nat) (f : Slot → Slot) : (s.modSlot c k f).mgmtKey = s.mgmtKey := rfl
@[simp] theorem State.modSlot_out (s : State) (c k : Nat) (f : Slot → Slot) : (s.modSlot c k f).out = s.out := rfl
@[simp] theorem State.modSlot_jtag (s : State) (c k : Nat) (f : Slot → Slot) : (s.modSlot c k f).jtag = s.jtag := rfl
@[simp] theorem State.modSlot_agenda (s : State) (c k : Nat) (f : Slot → Slot) : (s.modSlot c k f).agenda = s.agenda := rfl
@[simp] theorem State.modSlot_turn (s : State) (c k : Nat) (f : Slot → Slot) : (s.modSlot c k f).turn = s.turn := rfl
@[simp] theorem State.modSlot_fresh (s : State) (c k : Nat) (f : Slot → Slot) : (s.modSlot c k f).fresh = s.fresh := rfl
@[simp] theorem State.modSlot_seqno (s : State) (c k : Nat) (f : Slot → Slot) : (s.modSlot c k f).seqno = s.seqno := rfl
@[simp] theorem State.setClass_thr (s : State) (c k : Nat) (x : Class) : (s.setClass c k x).thr = s.thr := rfl
@[simp] theorem State.setClass_threads (s : State) (c k : Nat) (x : Class) : (s.setClass c k x).threads = s.threads := rfl
@[simp] theorem State.setClass_slots (s : State) (c k : Nat) (x : Class) : (s.setClass c k x).slots = s.slots := rfl
@[simp] theorem State.setClass_sram (s : State) (c k : Nat) (x : Class) : (s.setClass c k x).sram = s.sram := rfl
@[simp] theorem State.setClass_tags (s : State) (c k : Nat) (x : Class) : (s.setClass c k x).tags = s.tags := rfl
@[simp] theorem State.setClass_sramPois (s : State) (c k : Nat) (x : Class) : (s.setClass c k x).sramPois = s.sramPois := rfl
@[simp] theorem State.setClass_l1 (s : State) (c k : Nat) (x : Class) : (s.setClass c k x).l1 = s.l1 := rfl
@[simp] theorem State.setClass_l1cfg (s : State) (c k : Nat) (x : Class) : (s.setClass c k x).l1cfg = s.l1cfg := rfl
@[simp] theorem State.setClass_ibuf (s : State) (c k : Nat) (x : Class) : (s.setClass c k x).ibuf = s.ibuf := rfl
@[simp] theorem State.setClass_live (s : State) (c k : Nat) (x : Class) : (s.setClass c k x).live = s.live := rfl
@[simp] theorem State.setClass_net (s : State) (c k : Nat) (x : Class) : (s.setClass c k x).net = s.net := rfl
@[simp] theorem State.setClass_swept (s : State) (c k : Nat) (x : Class) : (s.setClass c k x).swept = s.swept := rfl
@[simp] theorem State.setClass_sectors (s : State) (c k : Nat) (x : Class) : (s.setClass c k x).sectors = s.sectors := rfl
@[simp] theorem State.setClass_tc (s : State) (c k : Nat) (x : Class) : (s.setClass c k x).tc = s.tc := rfl
@[simp] theorem State.setClass_held (s : State) (c k : Nat) (x : Class) : (s.setClass c k x).held = s.held := rfl
@[simp] theorem State.setClass_faults (s : State) (c k : Nat) (x : Class) : (s.setClass c k x).faults = s.faults := rfl
@[simp] theorem State.setClass_faultWaits (s : State) (c k : Nat) (x : Class) : (s.setClass c k x).faultWaits = s.faultWaits := rfl
@[simp] theorem State.setClass_wayWaits (s : State) (c k : Nat) (x : Class) : (s.setClass c k x).wayWaits = s.wayWaits := rfl
@[simp] theorem State.setClass_metAt (s : State) (c k : Nat) (x : Class) : (s.setClass c k x).metAt = s.metAt := rfl
@[simp] theorem State.setClass_mets (s : State) (c k : Nat) (x : Class) : (s.setClass c k x).mets = s.mets := rfl
@[simp] theorem State.setClass_tickets (s : State) (c k : Nat) (x : Class) : (s.setClass c k x).tickets = s.tickets := rfl
@[simp] theorem State.setClass_lost (s : State) (c k : Nat) (x : Class) : (s.setClass c k x).lost = s.lost := rfl
@[simp] theorem State.setClass_wbs (s : State) (c k : Nat) (x : Class) : (s.setClass c k x).wbs = s.wbs := rfl
@[simp] theorem State.setClass_bars (s : State) (c k : Nat) (x : Class) : (s.setClass c k x).bars = s.bars := rfl
@[simp] theorem State.setClass_swarms (s : State) (c k : Nat) (x : Class) : (s.setClass c k x).swarms = s.swarms := rfl
@[simp] theorem State.setClass_dev (s : State) (c k : Nat) (x : Class) : (s.setClass c k x).dev = s.dev := rfl
@[simp] theorem State.setClass_devKey (s : State) (c k : Nat) (x : Class) : (s.setClass c k x).devKey = s.devKey := rfl
@[simp] theorem State.setClass_devPois (s : State) (c k : Nat) (x : Class) : (s.setClass c k x).devPois = s.devPois := rfl
@[simp] theorem State.setClass_devErr (s : State) (c k : Nat) (x : Class) : (s.setClass c k x).devErr = s.devErr := rfl
@[simp] theorem State.setClass_host (s : State) (c k : Nat) (x : Class) : (s.setClass c k x).host = s.host := rfl
@[simp] theorem State.setClass_hostKey (s : State) (c k : Nat) (x : Class) : (s.setClass c k x).hostKey = s.hostKey := rfl
@[simp] theorem State.setClass_hostPois (s : State) (c k : Nat) (x : Class) : (s.setClass c k x).hostPois = s.hostPois := rfl
@[simp] theorem State.setClass_hostErr (s : State) (c k : Nat) (x : Class) : (s.setClass c k x).hostErr = s.hostErr := rfl
@[simp] theorem State.setClass_parts (s : State) (c k : Nat) (x : Class) : (s.setClass c k x).parts = s.parts := rfl
@[simp] theorem State.setClass_fns (s : State) (c k : Nat) (x : Class) : (s.setClass c k x).fns = s.fns := rfl
@[simp] theorem State.setClass_launches (s : State) (c k : Nat) (x : Class) : (s.setClass c k x).launches = s.launches := rfl
@[simp] theorem State.setClass_stores (s : State) (c k : Nat) (x : Class) : (s.setClass c k x).stores = s.stores := rfl
@[simp] theorem State.setClass_comb (s : State) (c k : Nat) (x : Class) : (s.setClass c k x).comb = s.comb := rfl
@[simp] theorem State.setClass_stackTab (s : State) (c k : Nat) (x : Class) : (s.setClass c k x).stackTab = s.stackTab := rfl
@[simp] theorem State.setClass_stackOps (s : State) (c k : Nat) (x : Class) : (s.setClass c k x).stackOps = s.stackOps := rfl
@[simp] theorem State.setClass_images (s : State) (c k : Nat) (x : Class) : (s.setClass c k x).images = s.images := rfl
@[simp] theorem State.setClass_gtime (s : State) (c k : Nat) (x : Class) : (s.setClass c k x).gtime = s.gtime := rfl
@[simp] theorem State.setClass_frac (s : State) (c k : Nat) (x : Class) : (s.setClass c k x).frac = s.frac := rfl
@[simp] theorem State.setClass_clocks (s : State) (c k : Nat) (x : Class) : (s.setClass c k x).clocks = s.clocks := rfl
@[simp] theorem State.setClass_gate (s : State) (c k : Nat) (x : Class) : (s.setClass c k x).gate = s.gate := rfl
@[simp] theorem State.setClass_errs (s : State) (c k : Nat) (x : Class) : (s.setClass c k x).errs = s.errs := rfl
@[simp] theorem State.setClass_links (s : State) (c k : Nat) (x : Class) : (s.setClass c k x).links = s.links := rfl
@[simp] theorem State.setClass_windows (s : State) (c k : Nat) (x : Class) : (s.setClass c k x).windows = s.windows := rfl
@[simp] theorem State.setClass_modnum (s : State) (c k : Nat) (x : Class) : (s.setClass c k x).modnum = s.modnum := rfl
@[simp] theorem State.setClass_hdm (s : State) (c k : Nat) (x : Class) : (s.setClass c k x).hdm = s.hdm := rfl
@[simp] theorem State.setClass_capgen (s : State) (c k : Nat) (x : Class) : (s.setClass c k x).capgen = s.capgen := rfl
@[simp] theorem State.setClass_mgmt (s : State) (c k : Nat) (x : Class) : (s.setClass c k x).mgmt = s.mgmt := rfl
@[simp] theorem State.setClass_log (s : State) (c k : Nat) (x : Class) : (s.setClass c k x).log = s.log := rfl
@[simp] theorem State.setClass_nextKey (s : State) (c k : Nat) (x : Class) : (s.setClass c k x).nextKey = s.nextKey := rfl
@[simp] theorem State.setClass_mgmtKey (s : State) (c k : Nat) (x : Class) : (s.setClass c k x).mgmtKey = s.mgmtKey := rfl
@[simp] theorem State.setClass_out (s : State) (c k : Nat) (x : Class) : (s.setClass c k x).out = s.out := rfl
@[simp] theorem State.setClass_jtag (s : State) (c k : Nat) (x : Class) : (s.setClass c k x).jtag = s.jtag := rfl
@[simp] theorem State.setClass_agenda (s : State) (c k : Nat) (x : Class) : (s.setClass c k x).agenda = s.agenda := rfl
@[simp] theorem State.setClass_turn (s : State) (c k : Nat) (x : Class) : (s.setClass c k x).turn = s.turn := rfl
@[simp] theorem State.setClass_fresh (s : State) (c k : Nat) (x : Class) : (s.setClass c k x).fresh = s.fresh := rfl
@[simp] theorem State.setClass_seqno (s : State) (c k : Nat) (x : Class) : (s.setClass c k x).seqno = s.seqno := rfl
@[simp] theorem State.setFn_thr (s : State) (n : Nat) (x : Fn) : (s.setFn n x).thr = s.thr := rfl
@[simp] theorem State.setFn_threads (s : State) (n : Nat) (x : Fn) : (s.setFn n x).threads = s.threads := rfl
@[simp] theorem State.setFn_slots (s : State) (n : Nat) (x : Fn) : (s.setFn n x).slots = s.slots := rfl
@[simp] theorem State.setFn_sram (s : State) (n : Nat) (x : Fn) : (s.setFn n x).sram = s.sram := rfl
@[simp] theorem State.setFn_tags (s : State) (n : Nat) (x : Fn) : (s.setFn n x).tags = s.tags := rfl
@[simp] theorem State.setFn_sramPois (s : State) (n : Nat) (x : Fn) : (s.setFn n x).sramPois = s.sramPois := rfl
@[simp] theorem State.setFn_l1 (s : State) (n : Nat) (x : Fn) : (s.setFn n x).l1 = s.l1 := rfl
@[simp] theorem State.setFn_l1cfg (s : State) (n : Nat) (x : Fn) : (s.setFn n x).l1cfg = s.l1cfg := rfl
@[simp] theorem State.setFn_ibuf (s : State) (n : Nat) (x : Fn) : (s.setFn n x).ibuf = s.ibuf := rfl
@[simp] theorem State.setFn_classes (s : State) (n : Nat) (x : Fn) : (s.setFn n x).classes = s.classes := rfl
@[simp] theorem State.setFn_live (s : State) (n : Nat) (x : Fn) : (s.setFn n x).live = s.live := rfl
@[simp] theorem State.setFn_net (s : State) (n : Nat) (x : Fn) : (s.setFn n x).net = s.net := rfl
@[simp] theorem State.setFn_swept (s : State) (n : Nat) (x : Fn) : (s.setFn n x).swept = s.swept := rfl
@[simp] theorem State.setFn_sectors (s : State) (n : Nat) (x : Fn) : (s.setFn n x).sectors = s.sectors := rfl
@[simp] theorem State.setFn_tc (s : State) (n : Nat) (x : Fn) : (s.setFn n x).tc = s.tc := rfl
@[simp] theorem State.setFn_held (s : State) (n : Nat) (x : Fn) : (s.setFn n x).held = s.held := rfl
@[simp] theorem State.setFn_faults (s : State) (n : Nat) (x : Fn) : (s.setFn n x).faults = s.faults := rfl
@[simp] theorem State.setFn_faultWaits (s : State) (n : Nat) (x : Fn) : (s.setFn n x).faultWaits = s.faultWaits := rfl
@[simp] theorem State.setFn_wayWaits (s : State) (n : Nat) (x : Fn) : (s.setFn n x).wayWaits = s.wayWaits := rfl
@[simp] theorem State.setFn_metAt (s : State) (n : Nat) (x : Fn) : (s.setFn n x).metAt = s.metAt := rfl
@[simp] theorem State.setFn_mets (s : State) (n : Nat) (x : Fn) : (s.setFn n x).mets = s.mets := rfl
@[simp] theorem State.setFn_tickets (s : State) (n : Nat) (x : Fn) : (s.setFn n x).tickets = s.tickets := rfl
@[simp] theorem State.setFn_lost (s : State) (n : Nat) (x : Fn) : (s.setFn n x).lost = s.lost := rfl
@[simp] theorem State.setFn_wbs (s : State) (n : Nat) (x : Fn) : (s.setFn n x).wbs = s.wbs := rfl
@[simp] theorem State.setFn_bars (s : State) (n : Nat) (x : Fn) : (s.setFn n x).bars = s.bars := rfl
@[simp] theorem State.setFn_swarms (s : State) (n : Nat) (x : Fn) : (s.setFn n x).swarms = s.swarms := rfl
@[simp] theorem State.setFn_dev (s : State) (n : Nat) (x : Fn) : (s.setFn n x).dev = s.dev := rfl
@[simp] theorem State.setFn_devKey (s : State) (n : Nat) (x : Fn) : (s.setFn n x).devKey = s.devKey := rfl
@[simp] theorem State.setFn_devPois (s : State) (n : Nat) (x : Fn) : (s.setFn n x).devPois = s.devPois := rfl
@[simp] theorem State.setFn_devErr (s : State) (n : Nat) (x : Fn) : (s.setFn n x).devErr = s.devErr := rfl
@[simp] theorem State.setFn_host (s : State) (n : Nat) (x : Fn) : (s.setFn n x).host = s.host := rfl
@[simp] theorem State.setFn_hostKey (s : State) (n : Nat) (x : Fn) : (s.setFn n x).hostKey = s.hostKey := rfl
@[simp] theorem State.setFn_hostPois (s : State) (n : Nat) (x : Fn) : (s.setFn n x).hostPois = s.hostPois := rfl
@[simp] theorem State.setFn_hostErr (s : State) (n : Nat) (x : Fn) : (s.setFn n x).hostErr = s.hostErr := rfl
@[simp] theorem State.setFn_parts (s : State) (n : Nat) (x : Fn) : (s.setFn n x).parts = s.parts := rfl
@[simp] theorem State.setFn_launches (s : State) (n : Nat) (x : Fn) : (s.setFn n x).launches = s.launches := rfl
@[simp] theorem State.setFn_stores (s : State) (n : Nat) (x : Fn) : (s.setFn n x).stores = s.stores := rfl
@[simp] theorem State.setFn_comb (s : State) (n : Nat) (x : Fn) : (s.setFn n x).comb = s.comb := rfl
@[simp] theorem State.setFn_stackTab (s : State) (n : Nat) (x : Fn) : (s.setFn n x).stackTab = s.stackTab := rfl
@[simp] theorem State.setFn_stackOps (s : State) (n : Nat) (x : Fn) : (s.setFn n x).stackOps = s.stackOps := rfl
@[simp] theorem State.setFn_images (s : State) (n : Nat) (x : Fn) : (s.setFn n x).images = s.images := rfl
@[simp] theorem State.setFn_gtime (s : State) (n : Nat) (x : Fn) : (s.setFn n x).gtime = s.gtime := rfl
@[simp] theorem State.setFn_frac (s : State) (n : Nat) (x : Fn) : (s.setFn n x).frac = s.frac := rfl
@[simp] theorem State.setFn_clocks (s : State) (n : Nat) (x : Fn) : (s.setFn n x).clocks = s.clocks := rfl
@[simp] theorem State.setFn_gate (s : State) (n : Nat) (x : Fn) : (s.setFn n x).gate = s.gate := rfl
@[simp] theorem State.setFn_errs (s : State) (n : Nat) (x : Fn) : (s.setFn n x).errs = s.errs := rfl
@[simp] theorem State.setFn_links (s : State) (n : Nat) (x : Fn) : (s.setFn n x).links = s.links := rfl
@[simp] theorem State.setFn_windows (s : State) (n : Nat) (x : Fn) : (s.setFn n x).windows = s.windows := rfl
@[simp] theorem State.setFn_modnum (s : State) (n : Nat) (x : Fn) : (s.setFn n x).modnum = s.modnum := rfl
@[simp] theorem State.setFn_hdm (s : State) (n : Nat) (x : Fn) : (s.setFn n x).hdm = s.hdm := rfl
@[simp] theorem State.setFn_capgen (s : State) (n : Nat) (x : Fn) : (s.setFn n x).capgen = s.capgen := rfl
@[simp] theorem State.setFn_mgmt (s : State) (n : Nat) (x : Fn) : (s.setFn n x).mgmt = s.mgmt := rfl
@[simp] theorem State.setFn_log (s : State) (n : Nat) (x : Fn) : (s.setFn n x).log = s.log := rfl
@[simp] theorem State.setFn_nextKey (s : State) (n : Nat) (x : Fn) : (s.setFn n x).nextKey = s.nextKey := rfl
@[simp] theorem State.setFn_mgmtKey (s : State) (n : Nat) (x : Fn) : (s.setFn n x).mgmtKey = s.mgmtKey := rfl
@[simp] theorem State.setFn_out (s : State) (n : Nat) (x : Fn) : (s.setFn n x).out = s.out := rfl
@[simp] theorem State.setFn_jtag (s : State) (n : Nat) (x : Fn) : (s.setFn n x).jtag = s.jtag := rfl
@[simp] theorem State.setFn_agenda (s : State) (n : Nat) (x : Fn) : (s.setFn n x).agenda = s.agenda := rfl
@[simp] theorem State.setFn_turn (s : State) (n : Nat) (x : Fn) : (s.setFn n x).turn = s.turn := rfl
@[simp] theorem State.setFn_fresh (s : State) (n : Nat) (x : Fn) : (s.setFn n x).fresh = s.fresh := rfl
@[simp] theorem State.setFn_seqno (s : State) (n : Nat) (x : Fn) : (s.setFn n x).seqno = s.seqno := rfl
@[simp] theorem State.mapThreads_slots (s : State) (f : Thread → Thread) : (s.mapThreads f).slots = s.slots := rfl
@[simp] theorem State.mapThreads_sram (s : State) (f : Thread → Thread) : (s.mapThreads f).sram = s.sram := rfl
@[simp] theorem State.mapThreads_tags (s : State) (f : Thread → Thread) : (s.mapThreads f).tags = s.tags := rfl
@[simp] theorem State.mapThreads_sramPois (s : State) (f : Thread → Thread) : (s.mapThreads f).sramPois = s.sramPois := rfl
@[simp] theorem State.mapThreads_l1 (s : State) (f : Thread → Thread) : (s.mapThreads f).l1 = s.l1 := rfl
@[simp] theorem State.mapThreads_l1cfg (s : State) (f : Thread → Thread) : (s.mapThreads f).l1cfg = s.l1cfg := rfl
@[simp] theorem State.mapThreads_ibuf (s : State) (f : Thread → Thread) : (s.mapThreads f).ibuf = s.ibuf := rfl
@[simp] theorem State.mapThreads_classes (s : State) (f : Thread → Thread) : (s.mapThreads f).classes = s.classes := rfl
@[simp] theorem State.mapThreads_live (s : State) (f : Thread → Thread) : (s.mapThreads f).live = s.live := rfl
@[simp] theorem State.mapThreads_net (s : State) (f : Thread → Thread) : (s.mapThreads f).net = s.net := rfl
@[simp] theorem State.mapThreads_swept (s : State) (f : Thread → Thread) : (s.mapThreads f).swept = s.swept := rfl
@[simp] theorem State.mapThreads_sectors (s : State) (f : Thread → Thread) : (s.mapThreads f).sectors = s.sectors := rfl
@[simp] theorem State.mapThreads_tc (s : State) (f : Thread → Thread) : (s.mapThreads f).tc = s.tc := rfl
@[simp] theorem State.mapThreads_held (s : State) (f : Thread → Thread) : (s.mapThreads f).held = s.held := rfl
@[simp] theorem State.mapThreads_faults (s : State) (f : Thread → Thread) : (s.mapThreads f).faults = s.faults := rfl
@[simp] theorem State.mapThreads_faultWaits (s : State) (f : Thread → Thread) : (s.mapThreads f).faultWaits = s.faultWaits := rfl
@[simp] theorem State.mapThreads_wayWaits (s : State) (f : Thread → Thread) : (s.mapThreads f).wayWaits = s.wayWaits := rfl
@[simp] theorem State.mapThreads_metAt (s : State) (f : Thread → Thread) : (s.mapThreads f).metAt = s.metAt := rfl
@[simp] theorem State.mapThreads_mets (s : State) (f : Thread → Thread) : (s.mapThreads f).mets = s.mets := rfl
@[simp] theorem State.mapThreads_tickets (s : State) (f : Thread → Thread) : (s.mapThreads f).tickets = s.tickets := rfl
@[simp] theorem State.mapThreads_lost (s : State) (f : Thread → Thread) : (s.mapThreads f).lost = s.lost := rfl
@[simp] theorem State.mapThreads_wbs (s : State) (f : Thread → Thread) : (s.mapThreads f).wbs = s.wbs := rfl
@[simp] theorem State.mapThreads_bars (s : State) (f : Thread → Thread) : (s.mapThreads f).bars = s.bars := rfl
@[simp] theorem State.mapThreads_swarms (s : State) (f : Thread → Thread) : (s.mapThreads f).swarms = s.swarms := rfl
@[simp] theorem State.mapThreads_dev (s : State) (f : Thread → Thread) : (s.mapThreads f).dev = s.dev := rfl
@[simp] theorem State.mapThreads_devKey (s : State) (f : Thread → Thread) : (s.mapThreads f).devKey = s.devKey := rfl
@[simp] theorem State.mapThreads_devPois (s : State) (f : Thread → Thread) : (s.mapThreads f).devPois = s.devPois := rfl
@[simp] theorem State.mapThreads_devErr (s : State) (f : Thread → Thread) : (s.mapThreads f).devErr = s.devErr := rfl
@[simp] theorem State.mapThreads_host (s : State) (f : Thread → Thread) : (s.mapThreads f).host = s.host := rfl
@[simp] theorem State.mapThreads_hostKey (s : State) (f : Thread → Thread) : (s.mapThreads f).hostKey = s.hostKey := rfl
@[simp] theorem State.mapThreads_hostPois (s : State) (f : Thread → Thread) : (s.mapThreads f).hostPois = s.hostPois := rfl
@[simp] theorem State.mapThreads_hostErr (s : State) (f : Thread → Thread) : (s.mapThreads f).hostErr = s.hostErr := rfl
@[simp] theorem State.mapThreads_parts (s : State) (f : Thread → Thread) : (s.mapThreads f).parts = s.parts := rfl
@[simp] theorem State.mapThreads_fns (s : State) (f : Thread → Thread) : (s.mapThreads f).fns = s.fns := rfl
@[simp] theorem State.mapThreads_launches (s : State) (f : Thread → Thread) : (s.mapThreads f).launches = s.launches := rfl
@[simp] theorem State.mapThreads_stores (s : State) (f : Thread → Thread) : (s.mapThreads f).stores = s.stores := rfl
@[simp] theorem State.mapThreads_comb (s : State) (f : Thread → Thread) : (s.mapThreads f).comb = s.comb := rfl
@[simp] theorem State.mapThreads_stackTab (s : State) (f : Thread → Thread) : (s.mapThreads f).stackTab = s.stackTab := rfl
@[simp] theorem State.mapThreads_stackOps (s : State) (f : Thread → Thread) : (s.mapThreads f).stackOps = s.stackOps := rfl
@[simp] theorem State.mapThreads_images (s : State) (f : Thread → Thread) : (s.mapThreads f).images = s.images := rfl
@[simp] theorem State.mapThreads_gtime (s : State) (f : Thread → Thread) : (s.mapThreads f).gtime = s.gtime := rfl
@[simp] theorem State.mapThreads_frac (s : State) (f : Thread → Thread) : (s.mapThreads f).frac = s.frac := rfl
@[simp] theorem State.mapThreads_clocks (s : State) (f : Thread → Thread) : (s.mapThreads f).clocks = s.clocks := rfl
@[simp] theorem State.mapThreads_gate (s : State) (f : Thread → Thread) : (s.mapThreads f).gate = s.gate := rfl
@[simp] theorem State.mapThreads_errs (s : State) (f : Thread → Thread) : (s.mapThreads f).errs = s.errs := rfl
@[simp] theorem State.mapThreads_links (s : State) (f : Thread → Thread) : (s.mapThreads f).links = s.links := rfl
@[simp] theorem State.mapThreads_windows (s : State) (f : Thread → Thread) : (s.mapThreads f).windows = s.windows := rfl
@[simp] theorem State.mapThreads_modnum (s : State) (f : Thread → Thread) : (s.mapThreads f).modnum = s.modnum := rfl
@[simp] theorem State.mapThreads_hdm (s : State) (f : Thread → Thread) : (s.mapThreads f).hdm = s.hdm := rfl
@[simp] theorem State.mapThreads_capgen (s : State) (f : Thread → Thread) : (s.mapThreads f).capgen = s.capgen := rfl
@[simp] theorem State.mapThreads_mgmt (s : State) (f : Thread → Thread) : (s.mapThreads f).mgmt = s.mgmt := rfl
@[simp] theorem State.mapThreads_log (s : State) (f : Thread → Thread) : (s.mapThreads f).log = s.log := rfl
@[simp] theorem State.mapThreads_nextKey (s : State) (f : Thread → Thread) : (s.mapThreads f).nextKey = s.nextKey := rfl
@[simp] theorem State.mapThreads_mgmtKey (s : State) (f : Thread → Thread) : (s.mapThreads f).mgmtKey = s.mgmtKey := rfl
@[simp] theorem State.mapThreads_out (s : State) (f : Thread → Thread) : (s.mapThreads f).out = s.out := rfl
@[simp] theorem State.mapThreads_jtag (s : State) (f : Thread → Thread) : (s.mapThreads f).jtag = s.jtag := rfl
@[simp] theorem State.mapThreads_agenda (s : State) (f : Thread → Thread) : (s.mapThreads f).agenda = s.agenda := rfl
@[simp] theorem State.mapThreads_turn (s : State) (f : Thread → Thread) : (s.mapThreads f).turn = s.turn := rfl
@[simp] theorem State.mapThreads_fresh (s : State) (f : Thread → Thread) : (s.mapThreads f).fresh = s.fresh := rfl
@[simp] theorem State.mapThreads_seqno (s : State) (f : Thread → Thread) : (s.mapThreads f).seqno = s.seqno := rfl
@[simp] theorem State.modClock_thr (s : State) (q : Nat) (f : Clock → Clock) : (s.modClock q f).thr = s.thr := rfl
@[simp] theorem State.modClock_threads (s : State) (q : Nat) (f : Clock → Clock) : (s.modClock q f).threads = s.threads := rfl
@[simp] theorem State.modClock_slots (s : State) (q : Nat) (f : Clock → Clock) : (s.modClock q f).slots = s.slots := rfl
@[simp] theorem State.modClock_sram (s : State) (q : Nat) (f : Clock → Clock) : (s.modClock q f).sram = s.sram := rfl
@[simp] theorem State.modClock_tags (s : State) (q : Nat) (f : Clock → Clock) : (s.modClock q f).tags = s.tags := rfl
@[simp] theorem State.modClock_sramPois (s : State) (q : Nat) (f : Clock → Clock) : (s.modClock q f).sramPois = s.sramPois := rfl
@[simp] theorem State.modClock_l1 (s : State) (q : Nat) (f : Clock → Clock) : (s.modClock q f).l1 = s.l1 := rfl
@[simp] theorem State.modClock_l1cfg (s : State) (q : Nat) (f : Clock → Clock) : (s.modClock q f).l1cfg = s.l1cfg := rfl
@[simp] theorem State.modClock_ibuf (s : State) (q : Nat) (f : Clock → Clock) : (s.modClock q f).ibuf = s.ibuf := rfl
@[simp] theorem State.modClock_classes (s : State) (q : Nat) (f : Clock → Clock) : (s.modClock q f).classes = s.classes := rfl
@[simp] theorem State.modClock_live (s : State) (q : Nat) (f : Clock → Clock) : (s.modClock q f).live = s.live := rfl
@[simp] theorem State.modClock_net (s : State) (q : Nat) (f : Clock → Clock) : (s.modClock q f).net = s.net := rfl
@[simp] theorem State.modClock_swept (s : State) (q : Nat) (f : Clock → Clock) : (s.modClock q f).swept = s.swept := rfl
@[simp] theorem State.modClock_sectors (s : State) (q : Nat) (f : Clock → Clock) : (s.modClock q f).sectors = s.sectors := rfl
@[simp] theorem State.modClock_tc (s : State) (q : Nat) (f : Clock → Clock) : (s.modClock q f).tc = s.tc := rfl
@[simp] theorem State.modClock_held (s : State) (q : Nat) (f : Clock → Clock) : (s.modClock q f).held = s.held := rfl
@[simp] theorem State.modClock_faults (s : State) (q : Nat) (f : Clock → Clock) : (s.modClock q f).faults = s.faults := rfl
@[simp] theorem State.modClock_faultWaits (s : State) (q : Nat) (f : Clock → Clock) : (s.modClock q f).faultWaits = s.faultWaits := rfl
@[simp] theorem State.modClock_wayWaits (s : State) (q : Nat) (f : Clock → Clock) : (s.modClock q f).wayWaits = s.wayWaits := rfl
@[simp] theorem State.modClock_metAt (s : State) (q : Nat) (f : Clock → Clock) : (s.modClock q f).metAt = s.metAt := rfl
@[simp] theorem State.modClock_mets (s : State) (q : Nat) (f : Clock → Clock) : (s.modClock q f).mets = s.mets := rfl
@[simp] theorem State.modClock_tickets (s : State) (q : Nat) (f : Clock → Clock) : (s.modClock q f).tickets = s.tickets := rfl
@[simp] theorem State.modClock_lost (s : State) (q : Nat) (f : Clock → Clock) : (s.modClock q f).lost = s.lost := rfl
@[simp] theorem State.modClock_wbs (s : State) (q : Nat) (f : Clock → Clock) : (s.modClock q f).wbs = s.wbs := rfl
@[simp] theorem State.modClock_bars (s : State) (q : Nat) (f : Clock → Clock) : (s.modClock q f).bars = s.bars := rfl
@[simp] theorem State.modClock_swarms (s : State) (q : Nat) (f : Clock → Clock) : (s.modClock q f).swarms = s.swarms := rfl
@[simp] theorem State.modClock_dev (s : State) (q : Nat) (f : Clock → Clock) : (s.modClock q f).dev = s.dev := rfl
@[simp] theorem State.modClock_devKey (s : State) (q : Nat) (f : Clock → Clock) : (s.modClock q f).devKey = s.devKey := rfl
@[simp] theorem State.modClock_devPois (s : State) (q : Nat) (f : Clock → Clock) : (s.modClock q f).devPois = s.devPois := rfl
@[simp] theorem State.modClock_devErr (s : State) (q : Nat) (f : Clock → Clock) : (s.modClock q f).devErr = s.devErr := rfl
@[simp] theorem State.modClock_host (s : State) (q : Nat) (f : Clock → Clock) : (s.modClock q f).host = s.host := rfl
@[simp] theorem State.modClock_hostKey (s : State) (q : Nat) (f : Clock → Clock) : (s.modClock q f).hostKey = s.hostKey := rfl
@[simp] theorem State.modClock_hostPois (s : State) (q : Nat) (f : Clock → Clock) : (s.modClock q f).hostPois = s.hostPois := rfl
@[simp] theorem State.modClock_hostErr (s : State) (q : Nat) (f : Clock → Clock) : (s.modClock q f).hostErr = s.hostErr := rfl
@[simp] theorem State.modClock_parts (s : State) (q : Nat) (f : Clock → Clock) : (s.modClock q f).parts = s.parts := rfl
@[simp] theorem State.modClock_fns (s : State) (q : Nat) (f : Clock → Clock) : (s.modClock q f).fns = s.fns := rfl
@[simp] theorem State.modClock_launches (s : State) (q : Nat) (f : Clock → Clock) : (s.modClock q f).launches = s.launches := rfl
@[simp] theorem State.modClock_stores (s : State) (q : Nat) (f : Clock → Clock) : (s.modClock q f).stores = s.stores := rfl
@[simp] theorem State.modClock_comb (s : State) (q : Nat) (f : Clock → Clock) : (s.modClock q f).comb = s.comb := rfl
@[simp] theorem State.modClock_stackTab (s : State) (q : Nat) (f : Clock → Clock) : (s.modClock q f).stackTab = s.stackTab := rfl
@[simp] theorem State.modClock_stackOps (s : State) (q : Nat) (f : Clock → Clock) : (s.modClock q f).stackOps = s.stackOps := rfl
@[simp] theorem State.modClock_images (s : State) (q : Nat) (f : Clock → Clock) : (s.modClock q f).images = s.images := rfl
@[simp] theorem State.modClock_gtime (s : State) (q : Nat) (f : Clock → Clock) : (s.modClock q f).gtime = s.gtime := rfl
@[simp] theorem State.modClock_frac (s : State) (q : Nat) (f : Clock → Clock) : (s.modClock q f).frac = s.frac := rfl
@[simp] theorem State.modClock_gate (s : State) (q : Nat) (f : Clock → Clock) : (s.modClock q f).gate = s.gate := rfl
@[simp] theorem State.modClock_errs (s : State) (q : Nat) (f : Clock → Clock) : (s.modClock q f).errs = s.errs := rfl
@[simp] theorem State.modClock_links (s : State) (q : Nat) (f : Clock → Clock) : (s.modClock q f).links = s.links := rfl
@[simp] theorem State.modClock_windows (s : State) (q : Nat) (f : Clock → Clock) : (s.modClock q f).windows = s.windows := rfl
@[simp] theorem State.modClock_modnum (s : State) (q : Nat) (f : Clock → Clock) : (s.modClock q f).modnum = s.modnum := rfl
@[simp] theorem State.modClock_hdm (s : State) (q : Nat) (f : Clock → Clock) : (s.modClock q f).hdm = s.hdm := rfl
@[simp] theorem State.modClock_capgen (s : State) (q : Nat) (f : Clock → Clock) : (s.modClock q f).capgen = s.capgen := rfl
@[simp] theorem State.modClock_mgmt (s : State) (q : Nat) (f : Clock → Clock) : (s.modClock q f).mgmt = s.mgmt := rfl
@[simp] theorem State.modClock_log (s : State) (q : Nat) (f : Clock → Clock) : (s.modClock q f).log = s.log := rfl
@[simp] theorem State.modClock_nextKey (s : State) (q : Nat) (f : Clock → Clock) : (s.modClock q f).nextKey = s.nextKey := rfl
@[simp] theorem State.modClock_mgmtKey (s : State) (q : Nat) (f : Clock → Clock) : (s.modClock q f).mgmtKey = s.mgmtKey := rfl
@[simp] theorem State.modClock_out (s : State) (q : Nat) (f : Clock → Clock) : (s.modClock q f).out = s.out := rfl
@[simp] theorem State.modClock_jtag (s : State) (q : Nat) (f : Clock → Clock) : (s.modClock q f).jtag = s.jtag := rfl
@[simp] theorem State.modClock_agenda (s : State) (q : Nat) (f : Clock → Clock) : (s.modClock q f).agenda = s.agenda := rfl
@[simp] theorem State.modClock_turn (s : State) (q : Nat) (f : Clock → Clock) : (s.modClock q f).turn = s.turn := rfl
@[simp] theorem State.modClock_fresh (s : State) (q : Nat) (f : Clock → Clock) : (s.modClock q f).fresh = s.fresh := rfl
@[simp] theorem State.modClock_seqno (s : State) (q : Nat) (f : Clock → Clock) : (s.modClock q f).seqno = s.seqno := rfl
@[simp] theorem State.send_thr (s : State) (p c : Nat) (b : Body) : (s.send p c b).thr = s.thr := rfl
@[simp] theorem State.send_threads (s : State) (p c : Nat) (b : Body) : (s.send p c b).threads = s.threads := rfl
@[simp] theorem State.send_slots (s : State) (p c : Nat) (b : Body) : (s.send p c b).slots = s.slots := rfl
@[simp] theorem State.send_sram (s : State) (p c : Nat) (b : Body) : (s.send p c b).sram = s.sram := rfl
@[simp] theorem State.send_tags (s : State) (p c : Nat) (b : Body) : (s.send p c b).tags = s.tags := rfl
@[simp] theorem State.send_sramPois (s : State) (p c : Nat) (b : Body) : (s.send p c b).sramPois = s.sramPois := rfl
@[simp] theorem State.send_l1 (s : State) (p c : Nat) (b : Body) : (s.send p c b).l1 = s.l1 := rfl
@[simp] theorem State.send_l1cfg (s : State) (p c : Nat) (b : Body) : (s.send p c b).l1cfg = s.l1cfg := rfl
@[simp] theorem State.send_ibuf (s : State) (p c : Nat) (b : Body) : (s.send p c b).ibuf = s.ibuf := rfl
@[simp] theorem State.send_classes (s : State) (p c : Nat) (b : Body) : (s.send p c b).classes = s.classes := rfl
@[simp] theorem State.send_live (s : State) (p c : Nat) (b : Body) : (s.send p c b).live = s.live := rfl
@[simp] theorem State.send_swept (s : State) (p c : Nat) (b : Body) : (s.send p c b).swept = s.swept := rfl
@[simp] theorem State.send_sectors (s : State) (p c : Nat) (b : Body) : (s.send p c b).sectors = s.sectors := rfl
@[simp] theorem State.send_tc (s : State) (p c : Nat) (b : Body) : (s.send p c b).tc = s.tc := rfl
@[simp] theorem State.send_held (s : State) (p c : Nat) (b : Body) : (s.send p c b).held = s.held := rfl
@[simp] theorem State.send_faults (s : State) (p c : Nat) (b : Body) : (s.send p c b).faults = s.faults := rfl
@[simp] theorem State.send_faultWaits (s : State) (p c : Nat) (b : Body) : (s.send p c b).faultWaits = s.faultWaits := rfl
@[simp] theorem State.send_wayWaits (s : State) (p c : Nat) (b : Body) : (s.send p c b).wayWaits = s.wayWaits := rfl
@[simp] theorem State.send_metAt (s : State) (p c : Nat) (b : Body) : (s.send p c b).metAt = s.metAt := rfl
@[simp] theorem State.send_mets (s : State) (p c : Nat) (b : Body) : (s.send p c b).mets = s.mets := rfl
@[simp] theorem State.send_tickets (s : State) (p c : Nat) (b : Body) : (s.send p c b).tickets = s.tickets := rfl
@[simp] theorem State.send_lost (s : State) (p c : Nat) (b : Body) : (s.send p c b).lost = s.lost := rfl
@[simp] theorem State.send_wbs (s : State) (p c : Nat) (b : Body) : (s.send p c b).wbs = s.wbs := rfl
@[simp] theorem State.send_bars (s : State) (p c : Nat) (b : Body) : (s.send p c b).bars = s.bars := rfl
@[simp] theorem State.send_swarms (s : State) (p c : Nat) (b : Body) : (s.send p c b).swarms = s.swarms := rfl
@[simp] theorem State.send_dev (s : State) (p c : Nat) (b : Body) : (s.send p c b).dev = s.dev := rfl
@[simp] theorem State.send_devKey (s : State) (p c : Nat) (b : Body) : (s.send p c b).devKey = s.devKey := rfl
@[simp] theorem State.send_devPois (s : State) (p c : Nat) (b : Body) : (s.send p c b).devPois = s.devPois := rfl
@[simp] theorem State.send_devErr (s : State) (p c : Nat) (b : Body) : (s.send p c b).devErr = s.devErr := rfl
@[simp] theorem State.send_host (s : State) (p c : Nat) (b : Body) : (s.send p c b).host = s.host := rfl
@[simp] theorem State.send_hostKey (s : State) (p c : Nat) (b : Body) : (s.send p c b).hostKey = s.hostKey := rfl
@[simp] theorem State.send_hostPois (s : State) (p c : Nat) (b : Body) : (s.send p c b).hostPois = s.hostPois := rfl
@[simp] theorem State.send_hostErr (s : State) (p c : Nat) (b : Body) : (s.send p c b).hostErr = s.hostErr := rfl
@[simp] theorem State.send_parts (s : State) (p c : Nat) (b : Body) : (s.send p c b).parts = s.parts := rfl
@[simp] theorem State.send_fns (s : State) (p c : Nat) (b : Body) : (s.send p c b).fns = s.fns := rfl
@[simp] theorem State.send_launches (s : State) (p c : Nat) (b : Body) : (s.send p c b).launches = s.launches := rfl
@[simp] theorem State.send_stores (s : State) (p c : Nat) (b : Body) : (s.send p c b).stores = s.stores := rfl
@[simp] theorem State.send_comb (s : State) (p c : Nat) (b : Body) : (s.send p c b).comb = s.comb := rfl
@[simp] theorem State.send_stackTab (s : State) (p c : Nat) (b : Body) : (s.send p c b).stackTab = s.stackTab := rfl
@[simp] theorem State.send_stackOps (s : State) (p c : Nat) (b : Body) : (s.send p c b).stackOps = s.stackOps := rfl
@[simp] theorem State.send_images (s : State) (p c : Nat) (b : Body) : (s.send p c b).images = s.images := rfl
@[simp] theorem State.send_gtime (s : State) (p c : Nat) (b : Body) : (s.send p c b).gtime = s.gtime := rfl
@[simp] theorem State.send_frac (s : State) (p c : Nat) (b : Body) : (s.send p c b).frac = s.frac := rfl
@[simp] theorem State.send_clocks (s : State) (p c : Nat) (b : Body) : (s.send p c b).clocks = s.clocks := rfl
@[simp] theorem State.send_gate (s : State) (p c : Nat) (b : Body) : (s.send p c b).gate = s.gate := rfl
@[simp] theorem State.send_errs (s : State) (p c : Nat) (b : Body) : (s.send p c b).errs = s.errs := rfl
@[simp] theorem State.send_links (s : State) (p c : Nat) (b : Body) : (s.send p c b).links = s.links := rfl
@[simp] theorem State.send_windows (s : State) (p c : Nat) (b : Body) : (s.send p c b).windows = s.windows := rfl
@[simp] theorem State.send_modnum (s : State) (p c : Nat) (b : Body) : (s.send p c b).modnum = s.modnum := rfl
@[simp] theorem State.send_hdm (s : State) (p c : Nat) (b : Body) : (s.send p c b).hdm = s.hdm := rfl
@[simp] theorem State.send_capgen (s : State) (p c : Nat) (b : Body) : (s.send p c b).capgen = s.capgen := rfl
@[simp] theorem State.send_mgmt (s : State) (p c : Nat) (b : Body) : (s.send p c b).mgmt = s.mgmt := rfl
@[simp] theorem State.send_log (s : State) (p c : Nat) (b : Body) : (s.send p c b).log = s.log := rfl
@[simp] theorem State.send_nextKey (s : State) (p c : Nat) (b : Body) : (s.send p c b).nextKey = s.nextKey := rfl
@[simp] theorem State.send_mgmtKey (s : State) (p c : Nat) (b : Body) : (s.send p c b).mgmtKey = s.mgmtKey := rfl
@[simp] theorem State.send_out (s : State) (p c : Nat) (b : Body) : (s.send p c b).out = s.out := rfl
@[simp] theorem State.send_jtag (s : State) (p c : Nat) (b : Body) : (s.send p c b).jtag = s.jtag := rfl
@[simp] theorem State.send_agenda (s : State) (p c : Nat) (b : Body) : (s.send p c b).agenda = s.agenda := rfl
@[simp] theorem State.send_turn (s : State) (p c : Nat) (b : Body) : (s.send p c b).turn = s.turn := rfl
@[simp] theorem State.send_fresh (s : State) (p c : Nat) (b : Body) : (s.send p c b).fresh = s.fresh := rfl
@[simp] theorem State.request_threads (s : State) (b : Body) : (s.request b).threads = s.threads := rfl
@[simp] theorem State.request_slots (s : State) (b : Body) : (s.request b).slots = s.slots := rfl
@[simp] theorem State.request_sram (s : State) (b : Body) : (s.request b).sram = s.sram := rfl
@[simp] theorem State.request_tags (s : State) (b : Body) : (s.request b).tags = s.tags := rfl
@[simp] theorem State.request_sramPois (s : State) (b : Body) : (s.request b).sramPois = s.sramPois := rfl
@[simp] theorem State.request_l1 (s : State) (b : Body) : (s.request b).l1 = s.l1 := rfl
@[simp] theorem State.request_l1cfg (s : State) (b : Body) : (s.request b).l1cfg = s.l1cfg := rfl
@[simp] theorem State.request_ibuf (s : State) (b : Body) : (s.request b).ibuf = s.ibuf := rfl
@[simp] theorem State.request_classes (s : State) (b : Body) : (s.request b).classes = s.classes := rfl
@[simp] theorem State.request_live (s : State) (b : Body) : (s.request b).live = s.live := rfl
@[simp] theorem State.request_swept (s : State) (b : Body) : (s.request b).swept = s.swept := rfl
@[simp] theorem State.request_sectors (s : State) (b : Body) : (s.request b).sectors = s.sectors := rfl
@[simp] theorem State.request_tc (s : State) (b : Body) : (s.request b).tc = s.tc := rfl
@[simp] theorem State.request_held (s : State) (b : Body) : (s.request b).held = s.held := rfl
@[simp] theorem State.request_faults (s : State) (b : Body) : (s.request b).faults = s.faults := rfl
@[simp] theorem State.request_faultWaits (s : State) (b : Body) : (s.request b).faultWaits = s.faultWaits := rfl
@[simp] theorem State.request_wayWaits (s : State) (b : Body) : (s.request b).wayWaits = s.wayWaits := rfl
@[simp] theorem State.request_metAt (s : State) (b : Body) : (s.request b).metAt = s.metAt := rfl
@[simp] theorem State.request_mets (s : State) (b : Body) : (s.request b).mets = s.mets := rfl
@[simp] theorem State.request_tickets (s : State) (b : Body) : (s.request b).tickets = s.tickets := rfl
@[simp] theorem State.request_lost (s : State) (b : Body) : (s.request b).lost = s.lost := rfl
@[simp] theorem State.request_wbs (s : State) (b : Body) : (s.request b).wbs = s.wbs := rfl
@[simp] theorem State.request_bars (s : State) (b : Body) : (s.request b).bars = s.bars := rfl
@[simp] theorem State.request_swarms (s : State) (b : Body) : (s.request b).swarms = s.swarms := rfl
@[simp] theorem State.request_dev (s : State) (b : Body) : (s.request b).dev = s.dev := rfl
@[simp] theorem State.request_devKey (s : State) (b : Body) : (s.request b).devKey = s.devKey := rfl
@[simp] theorem State.request_devPois (s : State) (b : Body) : (s.request b).devPois = s.devPois := rfl
@[simp] theorem State.request_devErr (s : State) (b : Body) : (s.request b).devErr = s.devErr := rfl
@[simp] theorem State.request_host (s : State) (b : Body) : (s.request b).host = s.host := rfl
@[simp] theorem State.request_hostKey (s : State) (b : Body) : (s.request b).hostKey = s.hostKey := rfl
@[simp] theorem State.request_hostPois (s : State) (b : Body) : (s.request b).hostPois = s.hostPois := rfl
@[simp] theorem State.request_hostErr (s : State) (b : Body) : (s.request b).hostErr = s.hostErr := rfl
@[simp] theorem State.request_parts (s : State) (b : Body) : (s.request b).parts = s.parts := rfl
@[simp] theorem State.request_fns (s : State) (b : Body) : (s.request b).fns = s.fns := rfl
@[simp] theorem State.request_launches (s : State) (b : Body) : (s.request b).launches = s.launches := rfl
@[simp] theorem State.request_stores (s : State) (b : Body) : (s.request b).stores = s.stores := rfl
@[simp] theorem State.request_comb (s : State) (b : Body) : (s.request b).comb = s.comb := rfl
@[simp] theorem State.request_stackTab (s : State) (b : Body) : (s.request b).stackTab = s.stackTab := rfl
@[simp] theorem State.request_stackOps (s : State) (b : Body) : (s.request b).stackOps = s.stackOps := rfl
@[simp] theorem State.request_images (s : State) (b : Body) : (s.request b).images = s.images := rfl
@[simp] theorem State.request_gtime (s : State) (b : Body) : (s.request b).gtime = s.gtime := rfl
@[simp] theorem State.request_frac (s : State) (b : Body) : (s.request b).frac = s.frac := rfl
@[simp] theorem State.request_clocks (s : State) (b : Body) : (s.request b).clocks = s.clocks := rfl
@[simp] theorem State.request_gate (s : State) (b : Body) : (s.request b).gate = s.gate := rfl
@[simp] theorem State.request_errs (s : State) (b : Body) : (s.request b).errs = s.errs := rfl
@[simp] theorem State.request_links (s : State) (b : Body) : (s.request b).links = s.links := rfl
@[simp] theorem State.request_windows (s : State) (b : Body) : (s.request b).windows = s.windows := rfl
@[simp] theorem State.request_modnum (s : State) (b : Body) : (s.request b).modnum = s.modnum := rfl
@[simp] theorem State.request_hdm (s : State) (b : Body) : (s.request b).hdm = s.hdm := rfl
@[simp] theorem State.request_capgen (s : State) (b : Body) : (s.request b).capgen = s.capgen := rfl
@[simp] theorem State.request_mgmt (s : State) (b : Body) : (s.request b).mgmt = s.mgmt := rfl
@[simp] theorem State.request_log (s : State) (b : Body) : (s.request b).log = s.log := rfl
@[simp] theorem State.request_nextKey (s : State) (b : Body) : (s.request b).nextKey = s.nextKey := rfl
@[simp] theorem State.request_mgmtKey (s : State) (b : Body) : (s.request b).mgmtKey = s.mgmtKey := rfl
@[simp] theorem State.request_out (s : State) (b : Body) : (s.request b).out = s.out := rfl
@[simp] theorem State.request_jtag (s : State) (b : Body) : (s.request b).jtag = s.jtag := rfl
@[simp] theorem State.request_agenda (s : State) (b : Body) : (s.request b).agenda = s.agenda := rfl
@[simp] theorem State.request_turn (s : State) (b : Body) : (s.request b).turn = s.turn := rfl
@[simp] theorem State.request_fresh (s : State) (b : Body) : (s.request b).fresh = s.fresh := rfl
@[simp] theorem State.dropPacket_thr (s : State) (n : Nat) : (s.dropPacket n).thr = s.thr := rfl
@[simp] theorem State.dropPacket_threads (s : State) (n : Nat) : (s.dropPacket n).threads = s.threads := rfl
@[simp] theorem State.dropPacket_slots (s : State) (n : Nat) : (s.dropPacket n).slots = s.slots := rfl
@[simp] theorem State.dropPacket_sram (s : State) (n : Nat) : (s.dropPacket n).sram = s.sram := rfl
@[simp] theorem State.dropPacket_tags (s : State) (n : Nat) : (s.dropPacket n).tags = s.tags := rfl
@[simp] theorem State.dropPacket_sramPois (s : State) (n : Nat) : (s.dropPacket n).sramPois = s.sramPois := rfl
@[simp] theorem State.dropPacket_l1 (s : State) (n : Nat) : (s.dropPacket n).l1 = s.l1 := rfl
@[simp] theorem State.dropPacket_l1cfg (s : State) (n : Nat) : (s.dropPacket n).l1cfg = s.l1cfg := rfl
@[simp] theorem State.dropPacket_ibuf (s : State) (n : Nat) : (s.dropPacket n).ibuf = s.ibuf := rfl
@[simp] theorem State.dropPacket_classes (s : State) (n : Nat) : (s.dropPacket n).classes = s.classes := rfl
@[simp] theorem State.dropPacket_live (s : State) (n : Nat) : (s.dropPacket n).live = s.live := rfl
@[simp] theorem State.dropPacket_swept (s : State) (n : Nat) : (s.dropPacket n).swept = s.swept := rfl
@[simp] theorem State.dropPacket_sectors (s : State) (n : Nat) : (s.dropPacket n).sectors = s.sectors := rfl
@[simp] theorem State.dropPacket_tc (s : State) (n : Nat) : (s.dropPacket n).tc = s.tc := rfl
@[simp] theorem State.dropPacket_held (s : State) (n : Nat) : (s.dropPacket n).held = s.held := rfl
@[simp] theorem State.dropPacket_faults (s : State) (n : Nat) : (s.dropPacket n).faults = s.faults := rfl
@[simp] theorem State.dropPacket_faultWaits (s : State) (n : Nat) : (s.dropPacket n).faultWaits = s.faultWaits := rfl
@[simp] theorem State.dropPacket_wayWaits (s : State) (n : Nat) : (s.dropPacket n).wayWaits = s.wayWaits := rfl
@[simp] theorem State.dropPacket_metAt (s : State) (n : Nat) : (s.dropPacket n).metAt = s.metAt := rfl
@[simp] theorem State.dropPacket_mets (s : State) (n : Nat) : (s.dropPacket n).mets = s.mets := rfl
@[simp] theorem State.dropPacket_tickets (s : State) (n : Nat) : (s.dropPacket n).tickets = s.tickets := rfl
@[simp] theorem State.dropPacket_lost (s : State) (n : Nat) : (s.dropPacket n).lost = s.lost := rfl
@[simp] theorem State.dropPacket_wbs (s : State) (n : Nat) : (s.dropPacket n).wbs = s.wbs := rfl
@[simp] theorem State.dropPacket_bars (s : State) (n : Nat) : (s.dropPacket n).bars = s.bars := rfl
@[simp] theorem State.dropPacket_swarms (s : State) (n : Nat) : (s.dropPacket n).swarms = s.swarms := rfl
@[simp] theorem State.dropPacket_dev (s : State) (n : Nat) : (s.dropPacket n).dev = s.dev := rfl
@[simp] theorem State.dropPacket_devKey (s : State) (n : Nat) : (s.dropPacket n).devKey = s.devKey := rfl
@[simp] theorem State.dropPacket_devPois (s : State) (n : Nat) : (s.dropPacket n).devPois = s.devPois := rfl
@[simp] theorem State.dropPacket_devErr (s : State) (n : Nat) : (s.dropPacket n).devErr = s.devErr := rfl
@[simp] theorem State.dropPacket_host (s : State) (n : Nat) : (s.dropPacket n).host = s.host := rfl
@[simp] theorem State.dropPacket_hostKey (s : State) (n : Nat) : (s.dropPacket n).hostKey = s.hostKey := rfl
@[simp] theorem State.dropPacket_hostPois (s : State) (n : Nat) : (s.dropPacket n).hostPois = s.hostPois := rfl
@[simp] theorem State.dropPacket_hostErr (s : State) (n : Nat) : (s.dropPacket n).hostErr = s.hostErr := rfl
@[simp] theorem State.dropPacket_parts (s : State) (n : Nat) : (s.dropPacket n).parts = s.parts := rfl
@[simp] theorem State.dropPacket_fns (s : State) (n : Nat) : (s.dropPacket n).fns = s.fns := rfl
@[simp] theorem State.dropPacket_launches (s : State) (n : Nat) : (s.dropPacket n).launches = s.launches := rfl
@[simp] theorem State.dropPacket_stores (s : State) (n : Nat) : (s.dropPacket n).stores = s.stores := rfl
@[simp] theorem State.dropPacket_comb (s : State) (n : Nat) : (s.dropPacket n).comb = s.comb := rfl
@[simp] theorem State.dropPacket_stackTab (s : State) (n : Nat) : (s.dropPacket n).stackTab = s.stackTab := rfl
@[simp] theorem State.dropPacket_stackOps (s : State) (n : Nat) : (s.dropPacket n).stackOps = s.stackOps := rfl
@[simp] theorem State.dropPacket_images (s : State) (n : Nat) : (s.dropPacket n).images = s.images := rfl
@[simp] theorem State.dropPacket_gtime (s : State) (n : Nat) : (s.dropPacket n).gtime = s.gtime := rfl
@[simp] theorem State.dropPacket_frac (s : State) (n : Nat) : (s.dropPacket n).frac = s.frac := rfl
@[simp] theorem State.dropPacket_clocks (s : State) (n : Nat) : (s.dropPacket n).clocks = s.clocks := rfl
@[simp] theorem State.dropPacket_gate (s : State) (n : Nat) : (s.dropPacket n).gate = s.gate := rfl
@[simp] theorem State.dropPacket_errs (s : State) (n : Nat) : (s.dropPacket n).errs = s.errs := rfl
@[simp] theorem State.dropPacket_links (s : State) (n : Nat) : (s.dropPacket n).links = s.links := rfl
@[simp] theorem State.dropPacket_windows (s : State) (n : Nat) : (s.dropPacket n).windows = s.windows := rfl
@[simp] theorem State.dropPacket_modnum (s : State) (n : Nat) : (s.dropPacket n).modnum = s.modnum := rfl
@[simp] theorem State.dropPacket_hdm (s : State) (n : Nat) : (s.dropPacket n).hdm = s.hdm := rfl
@[simp] theorem State.dropPacket_capgen (s : State) (n : Nat) : (s.dropPacket n).capgen = s.capgen := rfl
@[simp] theorem State.dropPacket_mgmt (s : State) (n : Nat) : (s.dropPacket n).mgmt = s.mgmt := rfl
@[simp] theorem State.dropPacket_log (s : State) (n : Nat) : (s.dropPacket n).log = s.log := rfl
@[simp] theorem State.dropPacket_nextKey (s : State) (n : Nat) : (s.dropPacket n).nextKey = s.nextKey := rfl
@[simp] theorem State.dropPacket_mgmtKey (s : State) (n : Nat) : (s.dropPacket n).mgmtKey = s.mgmtKey := rfl
@[simp] theorem State.dropPacket_out (s : State) (n : Nat) : (s.dropPacket n).out = s.out := rfl
@[simp] theorem State.dropPacket_jtag (s : State) (n : Nat) : (s.dropPacket n).jtag = s.jtag := rfl
@[simp] theorem State.dropPacket_agenda (s : State) (n : Nat) : (s.dropPacket n).agenda = s.agenda := rfl
@[simp] theorem State.dropPacket_turn (s : State) (n : Nat) : (s.dropPacket n).turn = s.turn := rfl
@[simp] theorem State.dropPacket_fresh (s : State) (n : Nat) : (s.dropPacket n).fresh = s.fresh := rfl
@[simp] theorem State.dropPacket_seqno (s : State) (n : Nat) : (s.dropPacket n).seqno = s.seqno := rfl
@[simp] theorem State.tick_thr (s : State) : (s.tick).thr = s.thr := rfl
@[simp] theorem State.tick_threads (s : State) : (s.tick).threads = s.threads := rfl
@[simp] theorem State.tick_slots (s : State) : (s.tick).slots = s.slots := rfl
@[simp] theorem State.tick_sram (s : State) : (s.tick).sram = s.sram := rfl
@[simp] theorem State.tick_tags (s : State) : (s.tick).tags = s.tags := rfl
@[simp] theorem State.tick_sramPois (s : State) : (s.tick).sramPois = s.sramPois := rfl
@[simp] theorem State.tick_l1 (s : State) : (s.tick).l1 = s.l1 := rfl
@[simp] theorem State.tick_l1cfg (s : State) : (s.tick).l1cfg = s.l1cfg := rfl
@[simp] theorem State.tick_ibuf (s : State) : (s.tick).ibuf = s.ibuf := rfl
@[simp] theorem State.tick_classes (s : State) : (s.tick).classes = s.classes := rfl
@[simp] theorem State.tick_live (s : State) : (s.tick).live = s.live := rfl
@[simp] theorem State.tick_net (s : State) : (s.tick).net = s.net := rfl
@[simp] theorem State.tick_swept (s : State) : (s.tick).swept = s.swept := rfl
@[simp] theorem State.tick_sectors (s : State) : (s.tick).sectors = s.sectors := rfl
@[simp] theorem State.tick_tc (s : State) : (s.tick).tc = s.tc := rfl
@[simp] theorem State.tick_held (s : State) : (s.tick).held = s.held := rfl
@[simp] theorem State.tick_faults (s : State) : (s.tick).faults = s.faults := rfl
@[simp] theorem State.tick_faultWaits (s : State) : (s.tick).faultWaits = s.faultWaits := rfl
@[simp] theorem State.tick_wayWaits (s : State) : (s.tick).wayWaits = s.wayWaits := rfl
@[simp] theorem State.tick_metAt (s : State) : (s.tick).metAt = s.metAt := rfl
@[simp] theorem State.tick_mets (s : State) : (s.tick).mets = s.mets := rfl
@[simp] theorem State.tick_tickets (s : State) : (s.tick).tickets = s.tickets := rfl
@[simp] theorem State.tick_lost (s : State) : (s.tick).lost = s.lost := rfl
@[simp] theorem State.tick_wbs (s : State) : (s.tick).wbs = s.wbs := rfl
@[simp] theorem State.tick_bars (s : State) : (s.tick).bars = s.bars := rfl
@[simp] theorem State.tick_swarms (s : State) : (s.tick).swarms = s.swarms := rfl
@[simp] theorem State.tick_dev (s : State) : (s.tick).dev = s.dev := rfl
@[simp] theorem State.tick_devKey (s : State) : (s.tick).devKey = s.devKey := rfl
@[simp] theorem State.tick_devPois (s : State) : (s.tick).devPois = s.devPois := rfl
@[simp] theorem State.tick_devErr (s : State) : (s.tick).devErr = s.devErr := rfl
@[simp] theorem State.tick_host (s : State) : (s.tick).host = s.host := rfl
@[simp] theorem State.tick_hostKey (s : State) : (s.tick).hostKey = s.hostKey := rfl
@[simp] theorem State.tick_hostPois (s : State) : (s.tick).hostPois = s.hostPois := rfl
@[simp] theorem State.tick_hostErr (s : State) : (s.tick).hostErr = s.hostErr := rfl
@[simp] theorem State.tick_parts (s : State) : (s.tick).parts = s.parts := rfl
@[simp] theorem State.tick_fns (s : State) : (s.tick).fns = s.fns := rfl
@[simp] theorem State.tick_launches (s : State) : (s.tick).launches = s.launches := rfl
@[simp] theorem State.tick_stores (s : State) : (s.tick).stores = s.stores := rfl
@[simp] theorem State.tick_comb (s : State) : (s.tick).comb = s.comb := rfl
@[simp] theorem State.tick_stackTab (s : State) : (s.tick).stackTab = s.stackTab := rfl
@[simp] theorem State.tick_stackOps (s : State) : (s.tick).stackOps = s.stackOps := rfl
@[simp] theorem State.tick_images (s : State) : (s.tick).images = s.images := rfl
@[simp] theorem State.tick_gtime (s : State) : (s.tick).gtime = s.gtime := rfl
@[simp] theorem State.tick_frac (s : State) : (s.tick).frac = s.frac := rfl
@[simp] theorem State.tick_clocks (s : State) : (s.tick).clocks = s.clocks := rfl
@[simp] theorem State.tick_gate (s : State) : (s.tick).gate = s.gate := rfl
@[simp] theorem State.tick_errs (s : State) : (s.tick).errs = s.errs := rfl
@[simp] theorem State.tick_links (s : State) : (s.tick).links = s.links := rfl
@[simp] theorem State.tick_windows (s : State) : (s.tick).windows = s.windows := rfl
@[simp] theorem State.tick_modnum (s : State) : (s.tick).modnum = s.modnum := rfl
@[simp] theorem State.tick_hdm (s : State) : (s.tick).hdm = s.hdm := rfl
@[simp] theorem State.tick_capgen (s : State) : (s.tick).capgen = s.capgen := rfl
@[simp] theorem State.tick_mgmt (s : State) : (s.tick).mgmt = s.mgmt := rfl
@[simp] theorem State.tick_log (s : State) : (s.tick).log = s.log := rfl
@[simp] theorem State.tick_nextKey (s : State) : (s.tick).nextKey = s.nextKey := rfl
@[simp] theorem State.tick_mgmtKey (s : State) : (s.tick).mgmtKey = s.mgmtKey := rfl
@[simp] theorem State.tick_out (s : State) : (s.tick).out = s.out := rfl
@[simp] theorem State.tick_jtag (s : State) : (s.tick).jtag = s.jtag := rfl
@[simp] theorem State.tick_agenda (s : State) : (s.tick).agenda = s.agenda := rfl
@[simp] theorem State.tick_turn (s : State) : (s.tick).turn = s.turn := rfl
@[simp] theorem State.tick_seqno (s : State) : (s.tick).seqno = s.seqno := rfl
@[simp] theorem State.advance_thr (s : State) (n : Nat) : (s.advance n).thr = s.thr := rfl
@[simp] theorem State.advance_threads (s : State) (n : Nat) : (s.advance n).threads = s.threads := rfl
@[simp] theorem State.advance_slots (s : State) (n : Nat) : (s.advance n).slots = s.slots := rfl
@[simp] theorem State.advance_sram (s : State) (n : Nat) : (s.advance n).sram = s.sram := rfl
@[simp] theorem State.advance_tags (s : State) (n : Nat) : (s.advance n).tags = s.tags := rfl
@[simp] theorem State.advance_sramPois (s : State) (n : Nat) : (s.advance n).sramPois = s.sramPois := rfl
@[simp] theorem State.advance_l1 (s : State) (n : Nat) : (s.advance n).l1 = s.l1 := rfl
@[simp] theorem State.advance_l1cfg (s : State) (n : Nat) : (s.advance n).l1cfg = s.l1cfg := rfl
@[simp] theorem State.advance_ibuf (s : State) (n : Nat) : (s.advance n).ibuf = s.ibuf := rfl
@[simp] theorem State.advance_classes (s : State) (n : Nat) : (s.advance n).classes = s.classes := rfl
@[simp] theorem State.advance_live (s : State) (n : Nat) : (s.advance n).live = s.live := rfl
@[simp] theorem State.advance_net (s : State) (n : Nat) : (s.advance n).net = s.net := rfl
@[simp] theorem State.advance_swept (s : State) (n : Nat) : (s.advance n).swept = s.swept := rfl
@[simp] theorem State.advance_sectors (s : State) (n : Nat) : (s.advance n).sectors = s.sectors := rfl
@[simp] theorem State.advance_tc (s : State) (n : Nat) : (s.advance n).tc = s.tc := rfl
@[simp] theorem State.advance_held (s : State) (n : Nat) : (s.advance n).held = s.held := rfl
@[simp] theorem State.advance_faults (s : State) (n : Nat) : (s.advance n).faults = s.faults := rfl
@[simp] theorem State.advance_faultWaits (s : State) (n : Nat) : (s.advance n).faultWaits = s.faultWaits := rfl
@[simp] theorem State.advance_wayWaits (s : State) (n : Nat) : (s.advance n).wayWaits = s.wayWaits := rfl
@[simp] theorem State.advance_metAt (s : State) (n : Nat) : (s.advance n).metAt = s.metAt := rfl
@[simp] theorem State.advance_mets (s : State) (n : Nat) : (s.advance n).mets = s.mets := rfl
@[simp] theorem State.advance_tickets (s : State) (n : Nat) : (s.advance n).tickets = s.tickets := rfl
@[simp] theorem State.advance_lost (s : State) (n : Nat) : (s.advance n).lost = s.lost := rfl
@[simp] theorem State.advance_wbs (s : State) (n : Nat) : (s.advance n).wbs = s.wbs := rfl
@[simp] theorem State.advance_bars (s : State) (n : Nat) : (s.advance n).bars = s.bars := rfl
@[simp] theorem State.advance_swarms (s : State) (n : Nat) : (s.advance n).swarms = s.swarms := rfl
@[simp] theorem State.advance_dev (s : State) (n : Nat) : (s.advance n).dev = s.dev := rfl
@[simp] theorem State.advance_devKey (s : State) (n : Nat) : (s.advance n).devKey = s.devKey := rfl
@[simp] theorem State.advance_devPois (s : State) (n : Nat) : (s.advance n).devPois = s.devPois := rfl
@[simp] theorem State.advance_devErr (s : State) (n : Nat) : (s.advance n).devErr = s.devErr := rfl
@[simp] theorem State.advance_host (s : State) (n : Nat) : (s.advance n).host = s.host := rfl
@[simp] theorem State.advance_hostKey (s : State) (n : Nat) : (s.advance n).hostKey = s.hostKey := rfl
@[simp] theorem State.advance_hostPois (s : State) (n : Nat) : (s.advance n).hostPois = s.hostPois := rfl
@[simp] theorem State.advance_hostErr (s : State) (n : Nat) : (s.advance n).hostErr = s.hostErr := rfl
@[simp] theorem State.advance_parts (s : State) (n : Nat) : (s.advance n).parts = s.parts := rfl
@[simp] theorem State.advance_fns (s : State) (n : Nat) : (s.advance n).fns = s.fns := rfl
@[simp] theorem State.advance_launches (s : State) (n : Nat) : (s.advance n).launches = s.launches := rfl
@[simp] theorem State.advance_stores (s : State) (n : Nat) : (s.advance n).stores = s.stores := rfl
@[simp] theorem State.advance_comb (s : State) (n : Nat) : (s.advance n).comb = s.comb := rfl
@[simp] theorem State.advance_stackTab (s : State) (n : Nat) : (s.advance n).stackTab = s.stackTab := rfl
@[simp] theorem State.advance_stackOps (s : State) (n : Nat) : (s.advance n).stackOps = s.stackOps := rfl
@[simp] theorem State.advance_images (s : State) (n : Nat) : (s.advance n).images = s.images := rfl
@[simp] theorem State.advance_clocks (s : State) (n : Nat) : (s.advance n).clocks = s.clocks := rfl
@[simp] theorem State.advance_gate (s : State) (n : Nat) : (s.advance n).gate = s.gate := rfl
@[simp] theorem State.advance_errs (s : State) (n : Nat) : (s.advance n).errs = s.errs := rfl
@[simp] theorem State.advance_links (s : State) (n : Nat) : (s.advance n).links = s.links := rfl
@[simp] theorem State.advance_windows (s : State) (n : Nat) : (s.advance n).windows = s.windows := rfl
@[simp] theorem State.advance_modnum (s : State) (n : Nat) : (s.advance n).modnum = s.modnum := rfl
@[simp] theorem State.advance_hdm (s : State) (n : Nat) : (s.advance n).hdm = s.hdm := rfl
@[simp] theorem State.advance_capgen (s : State) (n : Nat) : (s.advance n).capgen = s.capgen := rfl
@[simp] theorem State.advance_mgmt (s : State) (n : Nat) : (s.advance n).mgmt = s.mgmt := rfl
@[simp] theorem State.advance_log (s : State) (n : Nat) : (s.advance n).log = s.log := rfl
@[simp] theorem State.advance_nextKey (s : State) (n : Nat) : (s.advance n).nextKey = s.nextKey := rfl
@[simp] theorem State.advance_mgmtKey (s : State) (n : Nat) : (s.advance n).mgmtKey = s.mgmtKey := rfl
@[simp] theorem State.advance_out (s : State) (n : Nat) : (s.advance n).out = s.out := rfl
@[simp] theorem State.advance_jtag (s : State) (n : Nat) : (s.advance n).jtag = s.jtag := rfl
@[simp] theorem State.advance_agenda (s : State) (n : Nat) : (s.advance n).agenda = s.agenda := rfl
@[simp] theorem State.advance_turn (s : State) (n : Nat) : (s.advance n).turn = s.turn := rfl
@[simp] theorem State.advance_fresh (s : State) (n : Nat) : (s.advance n).fresh = s.fresh := rfl
@[simp] theorem State.advance_seqno (s : State) (n : Nat) : (s.advance n).seqno = s.seqno := rfl
@[simp] theorem State.charge_threads (s : State) (n : Nat) : (s.charge n).threads = s.threads := rfl
@[simp] theorem State.charge_slots (s : State) (n : Nat) : (s.charge n).slots = s.slots := rfl
@[simp] theorem State.charge_sram (s : State) (n : Nat) : (s.charge n).sram = s.sram := rfl
@[simp] theorem State.charge_tags (s : State) (n : Nat) : (s.charge n).tags = s.tags := rfl
@[simp] theorem State.charge_sramPois (s : State) (n : Nat) : (s.charge n).sramPois = s.sramPois := rfl
@[simp] theorem State.charge_l1 (s : State) (n : Nat) : (s.charge n).l1 = s.l1 := rfl
@[simp] theorem State.charge_l1cfg (s : State) (n : Nat) : (s.charge n).l1cfg = s.l1cfg := rfl
@[simp] theorem State.charge_ibuf (s : State) (n : Nat) : (s.charge n).ibuf = s.ibuf := rfl
@[simp] theorem State.charge_classes (s : State) (n : Nat) : (s.charge n).classes = s.classes := rfl
@[simp] theorem State.charge_live (s : State) (n : Nat) : (s.charge n).live = s.live := rfl
@[simp] theorem State.charge_net (s : State) (n : Nat) : (s.charge n).net = s.net := rfl
@[simp] theorem State.charge_swept (s : State) (n : Nat) : (s.charge n).swept = s.swept := rfl
@[simp] theorem State.charge_sectors (s : State) (n : Nat) : (s.charge n).sectors = s.sectors := rfl
@[simp] theorem State.charge_tc (s : State) (n : Nat) : (s.charge n).tc = s.tc := rfl
@[simp] theorem State.charge_held (s : State) (n : Nat) : (s.charge n).held = s.held := rfl
@[simp] theorem State.charge_faults (s : State) (n : Nat) : (s.charge n).faults = s.faults := rfl
@[simp] theorem State.charge_faultWaits (s : State) (n : Nat) : (s.charge n).faultWaits = s.faultWaits := rfl
@[simp] theorem State.charge_wayWaits (s : State) (n : Nat) : (s.charge n).wayWaits = s.wayWaits := rfl
@[simp] theorem State.charge_metAt (s : State) (n : Nat) : (s.charge n).metAt = s.metAt := rfl
@[simp] theorem State.charge_mets (s : State) (n : Nat) : (s.charge n).mets = s.mets := rfl
@[simp] theorem State.charge_tickets (s : State) (n : Nat) : (s.charge n).tickets = s.tickets := rfl
@[simp] theorem State.charge_lost (s : State) (n : Nat) : (s.charge n).lost = s.lost := rfl
@[simp] theorem State.charge_wbs (s : State) (n : Nat) : (s.charge n).wbs = s.wbs := rfl
@[simp] theorem State.charge_bars (s : State) (n : Nat) : (s.charge n).bars = s.bars := rfl
@[simp] theorem State.charge_swarms (s : State) (n : Nat) : (s.charge n).swarms = s.swarms := rfl
@[simp] theorem State.charge_dev (s : State) (n : Nat) : (s.charge n).dev = s.dev := rfl
@[simp] theorem State.charge_devKey (s : State) (n : Nat) : (s.charge n).devKey = s.devKey := rfl
@[simp] theorem State.charge_devPois (s : State) (n : Nat) : (s.charge n).devPois = s.devPois := rfl
@[simp] theorem State.charge_devErr (s : State) (n : Nat) : (s.charge n).devErr = s.devErr := rfl
@[simp] theorem State.charge_host (s : State) (n : Nat) : (s.charge n).host = s.host := rfl
@[simp] theorem State.charge_hostKey (s : State) (n : Nat) : (s.charge n).hostKey = s.hostKey := rfl
@[simp] theorem State.charge_hostPois (s : State) (n : Nat) : (s.charge n).hostPois = s.hostPois := rfl
@[simp] theorem State.charge_hostErr (s : State) (n : Nat) : (s.charge n).hostErr = s.hostErr := rfl
@[simp] theorem State.charge_parts (s : State) (n : Nat) : (s.charge n).parts = s.parts := rfl
@[simp] theorem State.charge_fns (s : State) (n : Nat) : (s.charge n).fns = s.fns := rfl
@[simp] theorem State.charge_launches (s : State) (n : Nat) : (s.charge n).launches = s.launches := rfl
@[simp] theorem State.charge_stores (s : State) (n : Nat) : (s.charge n).stores = s.stores := rfl
@[simp] theorem State.charge_comb (s : State) (n : Nat) : (s.charge n).comb = s.comb := rfl
@[simp] theorem State.charge_stackTab (s : State) (n : Nat) : (s.charge n).stackTab = s.stackTab := rfl
@[simp] theorem State.charge_stackOps (s : State) (n : Nat) : (s.charge n).stackOps = s.stackOps := rfl
@[simp] theorem State.charge_images (s : State) (n : Nat) : (s.charge n).images = s.images := rfl
@[simp] theorem State.charge_gtime (s : State) (n : Nat) : (s.charge n).gtime = s.gtime := rfl
@[simp] theorem State.charge_frac (s : State) (n : Nat) : (s.charge n).frac = s.frac := rfl
@[simp] theorem State.charge_clocks (s : State) (n : Nat) : (s.charge n).clocks = s.clocks := rfl
@[simp] theorem State.charge_gate (s : State) (n : Nat) : (s.charge n).gate = s.gate := rfl
@[simp] theorem State.charge_errs (s : State) (n : Nat) : (s.charge n).errs = s.errs := rfl
@[simp] theorem State.charge_links (s : State) (n : Nat) : (s.charge n).links = s.links := rfl
@[simp] theorem State.charge_windows (s : State) (n : Nat) : (s.charge n).windows = s.windows := rfl
@[simp] theorem State.charge_modnum (s : State) (n : Nat) : (s.charge n).modnum = s.modnum := rfl
@[simp] theorem State.charge_hdm (s : State) (n : Nat) : (s.charge n).hdm = s.hdm := rfl
@[simp] theorem State.charge_capgen (s : State) (n : Nat) : (s.charge n).capgen = s.capgen := rfl
@[simp] theorem State.charge_mgmt (s : State) (n : Nat) : (s.charge n).mgmt = s.mgmt := rfl
@[simp] theorem State.charge_log (s : State) (n : Nat) : (s.charge n).log = s.log := rfl
@[simp] theorem State.charge_nextKey (s : State) (n : Nat) : (s.charge n).nextKey = s.nextKey := rfl
@[simp] theorem State.charge_mgmtKey (s : State) (n : Nat) : (s.charge n).mgmtKey = s.mgmtKey := rfl
@[simp] theorem State.charge_out (s : State) (n : Nat) : (s.charge n).out = s.out := rfl
@[simp] theorem State.charge_jtag (s : State) (n : Nat) : (s.charge n).jtag = s.jtag := rfl
@[simp] theorem State.charge_agenda (s : State) (n : Nat) : (s.charge n).agenda = s.agenda := rfl
@[simp] theorem State.charge_turn (s : State) (n : Nat) : (s.charge n).turn = s.turn := rfl
@[simp] theorem State.charge_fresh (s : State) (n : Nat) : (s.charge n).fresh = s.fresh := rfl
@[simp] theorem State.charge_seqno (s : State) (n : Nat) : (s.charge n).seqno = s.seqno := rfl
@[simp] theorem State.pass_threads (s : State) (n : Nat) : (s.pass n).threads = s.threads := rfl
@[simp] theorem State.pass_slots (s : State) (n : Nat) : (s.pass n).slots = s.slots := rfl
@[simp] theorem State.pass_sram (s : State) (n : Nat) : (s.pass n).sram = s.sram := rfl
@[simp] theorem State.pass_tags (s : State) (n : Nat) : (s.pass n).tags = s.tags := rfl
@[simp] theorem State.pass_sramPois (s : State) (n : Nat) : (s.pass n).sramPois = s.sramPois := rfl
@[simp] theorem State.pass_l1 (s : State) (n : Nat) : (s.pass n).l1 = s.l1 := rfl
@[simp] theorem State.pass_l1cfg (s : State) (n : Nat) : (s.pass n).l1cfg = s.l1cfg := rfl
@[simp] theorem State.pass_ibuf (s : State) (n : Nat) : (s.pass n).ibuf = s.ibuf := rfl
@[simp] theorem State.pass_classes (s : State) (n : Nat) : (s.pass n).classes = s.classes := rfl
@[simp] theorem State.pass_live (s : State) (n : Nat) : (s.pass n).live = s.live := rfl
@[simp] theorem State.pass_net (s : State) (n : Nat) : (s.pass n).net = s.net := rfl
@[simp] theorem State.pass_swept (s : State) (n : Nat) : (s.pass n).swept = s.swept := rfl
@[simp] theorem State.pass_sectors (s : State) (n : Nat) : (s.pass n).sectors = s.sectors := rfl
@[simp] theorem State.pass_tc (s : State) (n : Nat) : (s.pass n).tc = s.tc := rfl
@[simp] theorem State.pass_held (s : State) (n : Nat) : (s.pass n).held = s.held := rfl
@[simp] theorem State.pass_faults (s : State) (n : Nat) : (s.pass n).faults = s.faults := rfl
@[simp] theorem State.pass_faultWaits (s : State) (n : Nat) : (s.pass n).faultWaits = s.faultWaits := rfl
@[simp] theorem State.pass_wayWaits (s : State) (n : Nat) : (s.pass n).wayWaits = s.wayWaits := rfl
@[simp] theorem State.pass_metAt (s : State) (n : Nat) : (s.pass n).metAt = s.metAt := rfl
@[simp] theorem State.pass_mets (s : State) (n : Nat) : (s.pass n).mets = s.mets := rfl
@[simp] theorem State.pass_tickets (s : State) (n : Nat) : (s.pass n).tickets = s.tickets := rfl
@[simp] theorem State.pass_lost (s : State) (n : Nat) : (s.pass n).lost = s.lost := rfl
@[simp] theorem State.pass_wbs (s : State) (n : Nat) : (s.pass n).wbs = s.wbs := rfl
@[simp] theorem State.pass_bars (s : State) (n : Nat) : (s.pass n).bars = s.bars := rfl
@[simp] theorem State.pass_swarms (s : State) (n : Nat) : (s.pass n).swarms = s.swarms := rfl
@[simp] theorem State.pass_dev (s : State) (n : Nat) : (s.pass n).dev = s.dev := rfl
@[simp] theorem State.pass_devKey (s : State) (n : Nat) : (s.pass n).devKey = s.devKey := rfl
@[simp] theorem State.pass_devPois (s : State) (n : Nat) : (s.pass n).devPois = s.devPois := rfl
@[simp] theorem State.pass_devErr (s : State) (n : Nat) : (s.pass n).devErr = s.devErr := rfl
@[simp] theorem State.pass_host (s : State) (n : Nat) : (s.pass n).host = s.host := rfl
@[simp] theorem State.pass_hostKey (s : State) (n : Nat) : (s.pass n).hostKey = s.hostKey := rfl
@[simp] theorem State.pass_hostPois (s : State) (n : Nat) : (s.pass n).hostPois = s.hostPois := rfl
@[simp] theorem State.pass_hostErr (s : State) (n : Nat) : (s.pass n).hostErr = s.hostErr := rfl
@[simp] theorem State.pass_parts (s : State) (n : Nat) : (s.pass n).parts = s.parts := rfl
@[simp] theorem State.pass_fns (s : State) (n : Nat) : (s.pass n).fns = s.fns := rfl
@[simp] theorem State.pass_launches (s : State) (n : Nat) : (s.pass n).launches = s.launches := rfl
@[simp] theorem State.pass_stores (s : State) (n : Nat) : (s.pass n).stores = s.stores := rfl
@[simp] theorem State.pass_comb (s : State) (n : Nat) : (s.pass n).comb = s.comb := rfl
@[simp] theorem State.pass_stackTab (s : State) (n : Nat) : (s.pass n).stackTab = s.stackTab := rfl
@[simp] theorem State.pass_stackOps (s : State) (n : Nat) : (s.pass n).stackOps = s.stackOps := rfl
@[simp] theorem State.pass_images (s : State) (n : Nat) : (s.pass n).images = s.images := rfl
@[simp] theorem State.pass_gtime (s : State) (n : Nat) : (s.pass n).gtime = s.gtime := rfl
@[simp] theorem State.pass_frac (s : State) (n : Nat) : (s.pass n).frac = s.frac := rfl
@[simp] theorem State.pass_clocks (s : State) (n : Nat) : (s.pass n).clocks = s.clocks := rfl
@[simp] theorem State.pass_gate (s : State) (n : Nat) : (s.pass n).gate = s.gate := rfl
@[simp] theorem State.pass_errs (s : State) (n : Nat) : (s.pass n).errs = s.errs := rfl
@[simp] theorem State.pass_links (s : State) (n : Nat) : (s.pass n).links = s.links := rfl
@[simp] theorem State.pass_windows (s : State) (n : Nat) : (s.pass n).windows = s.windows := rfl
@[simp] theorem State.pass_modnum (s : State) (n : Nat) : (s.pass n).modnum = s.modnum := rfl
@[simp] theorem State.pass_hdm (s : State) (n : Nat) : (s.pass n).hdm = s.hdm := rfl
@[simp] theorem State.pass_capgen (s : State) (n : Nat) : (s.pass n).capgen = s.capgen := rfl
@[simp] theorem State.pass_mgmt (s : State) (n : Nat) : (s.pass n).mgmt = s.mgmt := rfl
@[simp] theorem State.pass_log (s : State) (n : Nat) : (s.pass n).log = s.log := rfl
@[simp] theorem State.pass_nextKey (s : State) (n : Nat) : (s.pass n).nextKey = s.nextKey := rfl
@[simp] theorem State.pass_mgmtKey (s : State) (n : Nat) : (s.pass n).mgmtKey = s.mgmtKey := rfl
@[simp] theorem State.pass_out (s : State) (n : Nat) : (s.pass n).out = s.out := rfl
@[simp] theorem State.pass_jtag (s : State) (n : Nat) : (s.pass n).jtag = s.jtag := rfl
@[simp] theorem State.pass_agenda (s : State) (n : Nat) : (s.pass n).agenda = s.agenda := rfl
@[simp] theorem State.pass_turn (s : State) (n : Nat) : (s.pass n).turn = s.turn := rfl
@[simp] theorem State.pass_fresh (s : State) (n : Nat) : (s.pass n).fresh = s.fresh := rfl
@[simp] theorem State.pass_seqno (s : State) (n : Nat) : (s.pass n).seqno = s.seqno := rfl
@[simp] theorem State.hostWrite_thr (s : State) (a : Nat) (bs : List Byte) : (s.hostWrite a bs).thr = s.thr := rfl
@[simp] theorem State.hostWrite_threads (s : State) (a : Nat) (bs : List Byte) : (s.hostWrite a bs).threads = s.threads := rfl
@[simp] theorem State.hostWrite_slots (s : State) (a : Nat) (bs : List Byte) : (s.hostWrite a bs).slots = s.slots := rfl
@[simp] theorem State.hostWrite_sram (s : State) (a : Nat) (bs : List Byte) : (s.hostWrite a bs).sram = s.sram := rfl
@[simp] theorem State.hostWrite_tags (s : State) (a : Nat) (bs : List Byte) : (s.hostWrite a bs).tags = s.tags := rfl
@[simp] theorem State.hostWrite_sramPois (s : State) (a : Nat) (bs : List Byte) : (s.hostWrite a bs).sramPois = s.sramPois := rfl
@[simp] theorem State.hostWrite_l1 (s : State) (a : Nat) (bs : List Byte) : (s.hostWrite a bs).l1 = s.l1 := rfl
@[simp] theorem State.hostWrite_l1cfg (s : State) (a : Nat) (bs : List Byte) : (s.hostWrite a bs).l1cfg = s.l1cfg := rfl
@[simp] theorem State.hostWrite_ibuf (s : State) (a : Nat) (bs : List Byte) : (s.hostWrite a bs).ibuf = s.ibuf := rfl
@[simp] theorem State.hostWrite_classes (s : State) (a : Nat) (bs : List Byte) : (s.hostWrite a bs).classes = s.classes := rfl
@[simp] theorem State.hostWrite_live (s : State) (a : Nat) (bs : List Byte) : (s.hostWrite a bs).live = s.live := rfl
@[simp] theorem State.hostWrite_net (s : State) (a : Nat) (bs : List Byte) : (s.hostWrite a bs).net = s.net := rfl
@[simp] theorem State.hostWrite_swept (s : State) (a : Nat) (bs : List Byte) : (s.hostWrite a bs).swept = s.swept := rfl
@[simp] theorem State.hostWrite_sectors (s : State) (a : Nat) (bs : List Byte) : (s.hostWrite a bs).sectors = s.sectors := rfl
@[simp] theorem State.hostWrite_tc (s : State) (a : Nat) (bs : List Byte) : (s.hostWrite a bs).tc = s.tc := rfl
@[simp] theorem State.hostWrite_held (s : State) (a : Nat) (bs : List Byte) : (s.hostWrite a bs).held = s.held := rfl
@[simp] theorem State.hostWrite_faults (s : State) (a : Nat) (bs : List Byte) : (s.hostWrite a bs).faults = s.faults := rfl
@[simp] theorem State.hostWrite_faultWaits (s : State) (a : Nat) (bs : List Byte) : (s.hostWrite a bs).faultWaits = s.faultWaits := rfl
@[simp] theorem State.hostWrite_wayWaits (s : State) (a : Nat) (bs : List Byte) : (s.hostWrite a bs).wayWaits = s.wayWaits := rfl
@[simp] theorem State.hostWrite_metAt (s : State) (a : Nat) (bs : List Byte) : (s.hostWrite a bs).metAt = s.metAt := rfl
@[simp] theorem State.hostWrite_mets (s : State) (a : Nat) (bs : List Byte) : (s.hostWrite a bs).mets = s.mets := rfl
@[simp] theorem State.hostWrite_tickets (s : State) (a : Nat) (bs : List Byte) : (s.hostWrite a bs).tickets = s.tickets := rfl
@[simp] theorem State.hostWrite_lost (s : State) (a : Nat) (bs : List Byte) : (s.hostWrite a bs).lost = s.lost := rfl
@[simp] theorem State.hostWrite_wbs (s : State) (a : Nat) (bs : List Byte) : (s.hostWrite a bs).wbs = s.wbs := rfl
@[simp] theorem State.hostWrite_bars (s : State) (a : Nat) (bs : List Byte) : (s.hostWrite a bs).bars = s.bars := rfl
@[simp] theorem State.hostWrite_swarms (s : State) (a : Nat) (bs : List Byte) : (s.hostWrite a bs).swarms = s.swarms := rfl
@[simp] theorem State.hostWrite_dev (s : State) (a : Nat) (bs : List Byte) : (s.hostWrite a bs).dev = s.dev := rfl
@[simp] theorem State.hostWrite_devKey (s : State) (a : Nat) (bs : List Byte) : (s.hostWrite a bs).devKey = s.devKey := rfl
@[simp] theorem State.hostWrite_devPois (s : State) (a : Nat) (bs : List Byte) : (s.hostWrite a bs).devPois = s.devPois := rfl
@[simp] theorem State.hostWrite_devErr (s : State) (a : Nat) (bs : List Byte) : (s.hostWrite a bs).devErr = s.devErr := rfl
@[simp] theorem State.hostWrite_hostKey (s : State) (a : Nat) (bs : List Byte) : (s.hostWrite a bs).hostKey = s.hostKey := rfl
@[simp] theorem State.hostWrite_hostPois (s : State) (a : Nat) (bs : List Byte) : (s.hostWrite a bs).hostPois = s.hostPois := rfl
@[simp] theorem State.hostWrite_hostErr (s : State) (a : Nat) (bs : List Byte) : (s.hostWrite a bs).hostErr = s.hostErr := rfl
@[simp] theorem State.hostWrite_parts (s : State) (a : Nat) (bs : List Byte) : (s.hostWrite a bs).parts = s.parts := rfl
@[simp] theorem State.hostWrite_fns (s : State) (a : Nat) (bs : List Byte) : (s.hostWrite a bs).fns = s.fns := rfl
@[simp] theorem State.hostWrite_launches (s : State) (a : Nat) (bs : List Byte) : (s.hostWrite a bs).launches = s.launches := rfl
@[simp] theorem State.hostWrite_stores (s : State) (a : Nat) (bs : List Byte) : (s.hostWrite a bs).stores = s.stores := rfl
@[simp] theorem State.hostWrite_comb (s : State) (a : Nat) (bs : List Byte) : (s.hostWrite a bs).comb = s.comb := rfl
@[simp] theorem State.hostWrite_stackTab (s : State) (a : Nat) (bs : List Byte) : (s.hostWrite a bs).stackTab = s.stackTab := rfl
@[simp] theorem State.hostWrite_stackOps (s : State) (a : Nat) (bs : List Byte) : (s.hostWrite a bs).stackOps = s.stackOps := rfl
@[simp] theorem State.hostWrite_images (s : State) (a : Nat) (bs : List Byte) : (s.hostWrite a bs).images = s.images := rfl
@[simp] theorem State.hostWrite_gtime (s : State) (a : Nat) (bs : List Byte) : (s.hostWrite a bs).gtime = s.gtime := rfl
@[simp] theorem State.hostWrite_frac (s : State) (a : Nat) (bs : List Byte) : (s.hostWrite a bs).frac = s.frac := rfl
@[simp] theorem State.hostWrite_clocks (s : State) (a : Nat) (bs : List Byte) : (s.hostWrite a bs).clocks = s.clocks := rfl
@[simp] theorem State.hostWrite_gate (s : State) (a : Nat) (bs : List Byte) : (s.hostWrite a bs).gate = s.gate := rfl
@[simp] theorem State.hostWrite_errs (s : State) (a : Nat) (bs : List Byte) : (s.hostWrite a bs).errs = s.errs := rfl
@[simp] theorem State.hostWrite_links (s : State) (a : Nat) (bs : List Byte) : (s.hostWrite a bs).links = s.links := rfl
@[simp] theorem State.hostWrite_windows (s : State) (a : Nat) (bs : List Byte) : (s.hostWrite a bs).windows = s.windows := rfl
@[simp] theorem State.hostWrite_modnum (s : State) (a : Nat) (bs : List Byte) : (s.hostWrite a bs).modnum = s.modnum := rfl
@[simp] theorem State.hostWrite_hdm (s : State) (a : Nat) (bs : List Byte) : (s.hostWrite a bs).hdm = s.hdm := rfl
@[simp] theorem State.hostWrite_capgen (s : State) (a : Nat) (bs : List Byte) : (s.hostWrite a bs).capgen = s.capgen := rfl
@[simp] theorem State.hostWrite_mgmt (s : State) (a : Nat) (bs : List Byte) : (s.hostWrite a bs).mgmt = s.mgmt := rfl
@[simp] theorem State.hostWrite_log (s : State) (a : Nat) (bs : List Byte) : (s.hostWrite a bs).log = s.log := rfl
@[simp] theorem State.hostWrite_nextKey (s : State) (a : Nat) (bs : List Byte) : (s.hostWrite a bs).nextKey = s.nextKey := rfl
@[simp] theorem State.hostWrite_mgmtKey (s : State) (a : Nat) (bs : List Byte) : (s.hostWrite a bs).mgmtKey = s.mgmtKey := rfl
@[simp] theorem State.hostWrite_out (s : State) (a : Nat) (bs : List Byte) : (s.hostWrite a bs).out = s.out := rfl
@[simp] theorem State.hostWrite_jtag (s : State) (a : Nat) (bs : List Byte) : (s.hostWrite a bs).jtag = s.jtag := rfl
@[simp] theorem State.hostWrite_agenda (s : State) (a : Nat) (bs : List Byte) : (s.hostWrite a bs).agenda = s.agenda := rfl
@[simp] theorem State.hostWrite_turn (s : State) (a : Nat) (bs : List Byte) : (s.hostWrite a bs).turn = s.turn := rfl
@[simp] theorem State.hostWrite_fresh (s : State) (a : Nat) (bs : List Byte) : (s.hostWrite a bs).fresh = s.fresh := rfl
@[simp] theorem State.hostWrite_seqno (s : State) (a : Nat) (bs : List Byte) : (s.hostWrite a bs).seqno = s.seqno := rfl
@[simp] theorem State.logEntry_thr (s : State) (k a b : Nat) : (s.logEntry k a b).thr = s.thr := rfl
@[simp] theorem State.logEntry_threads (s : State) (k a b : Nat) : (s.logEntry k a b).threads = s.threads := rfl
@[simp] theorem State.logEntry_slots (s : State) (k a b : Nat) : (s.logEntry k a b).slots = s.slots := rfl
@[simp] theorem State.logEntry_sram (s : State) (k a b : Nat) : (s.logEntry k a b).sram = s.sram := rfl
@[simp] theorem State.logEntry_tags (s : State) (k a b : Nat) : (s.logEntry k a b).tags = s.tags := rfl
@[simp] theorem State.logEntry_sramPois (s : State) (k a b : Nat) : (s.logEntry k a b).sramPois = s.sramPois := rfl
@[simp] theorem State.logEntry_l1 (s : State) (k a b : Nat) : (s.logEntry k a b).l1 = s.l1 := rfl
@[simp] theorem State.logEntry_l1cfg (s : State) (k a b : Nat) : (s.logEntry k a b).l1cfg = s.l1cfg := rfl
@[simp] theorem State.logEntry_ibuf (s : State) (k a b : Nat) : (s.logEntry k a b).ibuf = s.ibuf := rfl
@[simp] theorem State.logEntry_classes (s : State) (k a b : Nat) : (s.logEntry k a b).classes = s.classes := rfl
@[simp] theorem State.logEntry_live (s : State) (k a b : Nat) : (s.logEntry k a b).live = s.live := rfl
@[simp] theorem State.logEntry_net (s : State) (k a b : Nat) : (s.logEntry k a b).net = s.net := rfl
@[simp] theorem State.logEntry_swept (s : State) (k a b : Nat) : (s.logEntry k a b).swept = s.swept := rfl
@[simp] theorem State.logEntry_sectors (s : State) (k a b : Nat) : (s.logEntry k a b).sectors = s.sectors := rfl
@[simp] theorem State.logEntry_tc (s : State) (k a b : Nat) : (s.logEntry k a b).tc = s.tc := rfl
@[simp] theorem State.logEntry_held (s : State) (k a b : Nat) : (s.logEntry k a b).held = s.held := rfl
@[simp] theorem State.logEntry_faults (s : State) (k a b : Nat) : (s.logEntry k a b).faults = s.faults := rfl
@[simp] theorem State.logEntry_faultWaits (s : State) (k a b : Nat) : (s.logEntry k a b).faultWaits = s.faultWaits := rfl
@[simp] theorem State.logEntry_wayWaits (s : State) (k a b : Nat) : (s.logEntry k a b).wayWaits = s.wayWaits := rfl
@[simp] theorem State.logEntry_metAt (s : State) (k a b : Nat) : (s.logEntry k a b).metAt = s.metAt := rfl
@[simp] theorem State.logEntry_mets (s : State) (k a b : Nat) : (s.logEntry k a b).mets = s.mets := rfl
@[simp] theorem State.logEntry_tickets (s : State) (k a b : Nat) : (s.logEntry k a b).tickets = s.tickets := rfl
@[simp] theorem State.logEntry_lost (s : State) (k a b : Nat) : (s.logEntry k a b).lost = s.lost := rfl
@[simp] theorem State.logEntry_wbs (s : State) (k a b : Nat) : (s.logEntry k a b).wbs = s.wbs := rfl
@[simp] theorem State.logEntry_bars (s : State) (k a b : Nat) : (s.logEntry k a b).bars = s.bars := rfl
@[simp] theorem State.logEntry_swarms (s : State) (k a b : Nat) : (s.logEntry k a b).swarms = s.swarms := rfl
@[simp] theorem State.logEntry_dev (s : State) (k a b : Nat) : (s.logEntry k a b).dev = s.dev := rfl
@[simp] theorem State.logEntry_devKey (s : State) (k a b : Nat) : (s.logEntry k a b).devKey = s.devKey := rfl
@[simp] theorem State.logEntry_devPois (s : State) (k a b : Nat) : (s.logEntry k a b).devPois = s.devPois := rfl
@[simp] theorem State.logEntry_devErr (s : State) (k a b : Nat) : (s.logEntry k a b).devErr = s.devErr := rfl
@[simp] theorem State.logEntry_host (s : State) (k a b : Nat) : (s.logEntry k a b).host = s.host := rfl
@[simp] theorem State.logEntry_hostKey (s : State) (k a b : Nat) : (s.logEntry k a b).hostKey = s.hostKey := rfl
@[simp] theorem State.logEntry_hostPois (s : State) (k a b : Nat) : (s.logEntry k a b).hostPois = s.hostPois := rfl
@[simp] theorem State.logEntry_hostErr (s : State) (k a b : Nat) : (s.logEntry k a b).hostErr = s.hostErr := rfl
@[simp] theorem State.logEntry_parts (s : State) (k a b : Nat) : (s.logEntry k a b).parts = s.parts := rfl
@[simp] theorem State.logEntry_fns (s : State) (k a b : Nat) : (s.logEntry k a b).fns = s.fns := rfl
@[simp] theorem State.logEntry_launches (s : State) (k a b : Nat) : (s.logEntry k a b).launches = s.launches := rfl
@[simp] theorem State.logEntry_stores (s : State) (k a b : Nat) : (s.logEntry k a b).stores = s.stores := rfl
@[simp] theorem State.logEntry_comb (s : State) (k a b : Nat) : (s.logEntry k a b).comb = s.comb := rfl
@[simp] theorem State.logEntry_stackTab (s : State) (k a b : Nat) : (s.logEntry k a b).stackTab = s.stackTab := rfl
@[simp] theorem State.logEntry_stackOps (s : State) (k a b : Nat) : (s.logEntry k a b).stackOps = s.stackOps := rfl
@[simp] theorem State.logEntry_images (s : State) (k a b : Nat) : (s.logEntry k a b).images = s.images := rfl
@[simp] theorem State.logEntry_gtime (s : State) (k a b : Nat) : (s.logEntry k a b).gtime = s.gtime := rfl
@[simp] theorem State.logEntry_frac (s : State) (k a b : Nat) : (s.logEntry k a b).frac = s.frac := rfl
@[simp] theorem State.logEntry_clocks (s : State) (k a b : Nat) : (s.logEntry k a b).clocks = s.clocks := rfl
@[simp] theorem State.logEntry_gate (s : State) (k a b : Nat) : (s.logEntry k a b).gate = s.gate := rfl
@[simp] theorem State.logEntry_errs (s : State) (k a b : Nat) : (s.logEntry k a b).errs = s.errs := rfl
@[simp] theorem State.logEntry_links (s : State) (k a b : Nat) : (s.logEntry k a b).links = s.links := rfl
@[simp] theorem State.logEntry_windows (s : State) (k a b : Nat) : (s.logEntry k a b).windows = s.windows := rfl
@[simp] theorem State.logEntry_modnum (s : State) (k a b : Nat) : (s.logEntry k a b).modnum = s.modnum := rfl
@[simp] theorem State.logEntry_hdm (s : State) (k a b : Nat) : (s.logEntry k a b).hdm = s.hdm := rfl
@[simp] theorem State.logEntry_capgen (s : State) (k a b : Nat) : (s.logEntry k a b).capgen = s.capgen := rfl
@[simp] theorem State.logEntry_nextKey (s : State) (k a b : Nat) : (s.logEntry k a b).nextKey = s.nextKey := rfl
@[simp] theorem State.logEntry_mgmtKey (s : State) (k a b : Nat) : (s.logEntry k a b).mgmtKey = s.mgmtKey := rfl
@[simp] theorem State.logEntry_out (s : State) (k a b : Nat) : (s.logEntry k a b).out = s.out := rfl
@[simp] theorem State.logEntry_jtag (s : State) (k a b : Nat) : (s.logEntry k a b).jtag = s.jtag := rfl
@[simp] theorem State.logEntry_agenda (s : State) (k a b : Nat) : (s.logEntry k a b).agenda = s.agenda := rfl
@[simp] theorem State.logEntry_turn (s : State) (k a b : Nat) : (s.logEntry k a b).turn = s.turn := rfl
@[simp] theorem State.logEntry_fresh (s : State) (k a b : Nat) : (s.logEntry k a b).fresh = s.fresh := rfl
@[simp] theorem State.logEntry_seqno (s : State) (k a b : Nat) : (s.logEntry k a b).seqno = s.seqno := rfl
@[simp] theorem State.modErrs_thr (s : State) (d : Nat) (f : Errs → Errs) : (s.modErrs d f).thr = s.thr := rfl
@[simp] theorem State.modErrs_threads (s : State) (d : Nat) (f : Errs → Errs) : (s.modErrs d f).threads = s.threads := rfl
@[simp] theorem State.modErrs_slots (s : State) (d : Nat) (f : Errs → Errs) : (s.modErrs d f).slots = s.slots := rfl
@[simp] theorem State.modErrs_sram (s : State) (d : Nat) (f : Errs → Errs) : (s.modErrs d f).sram = s.sram := rfl
@[simp] theorem State.modErrs_tags (s : State) (d : Nat) (f : Errs → Errs) : (s.modErrs d f).tags = s.tags := rfl
@[simp] theorem State.modErrs_sramPois (s : State) (d : Nat) (f : Errs → Errs) : (s.modErrs d f).sramPois = s.sramPois := rfl
@[simp] theorem State.modErrs_l1 (s : State) (d : Nat) (f : Errs → Errs) : (s.modErrs d f).l1 = s.l1 := rfl
@[simp] theorem State.modErrs_l1cfg (s : State) (d : Nat) (f : Errs → Errs) : (s.modErrs d f).l1cfg = s.l1cfg := rfl
@[simp] theorem State.modErrs_ibuf (s : State) (d : Nat) (f : Errs → Errs) : (s.modErrs d f).ibuf = s.ibuf := rfl
@[simp] theorem State.modErrs_classes (s : State) (d : Nat) (f : Errs → Errs) : (s.modErrs d f).classes = s.classes := rfl
@[simp] theorem State.modErrs_live (s : State) (d : Nat) (f : Errs → Errs) : (s.modErrs d f).live = s.live := rfl
@[simp] theorem State.modErrs_net (s : State) (d : Nat) (f : Errs → Errs) : (s.modErrs d f).net = s.net := rfl
@[simp] theorem State.modErrs_swept (s : State) (d : Nat) (f : Errs → Errs) : (s.modErrs d f).swept = s.swept := rfl
@[simp] theorem State.modErrs_sectors (s : State) (d : Nat) (f : Errs → Errs) : (s.modErrs d f).sectors = s.sectors := rfl
@[simp] theorem State.modErrs_tc (s : State) (d : Nat) (f : Errs → Errs) : (s.modErrs d f).tc = s.tc := rfl
@[simp] theorem State.modErrs_held (s : State) (d : Nat) (f : Errs → Errs) : (s.modErrs d f).held = s.held := rfl
@[simp] theorem State.modErrs_faults (s : State) (d : Nat) (f : Errs → Errs) : (s.modErrs d f).faults = s.faults := rfl
@[simp] theorem State.modErrs_faultWaits (s : State) (d : Nat) (f : Errs → Errs) : (s.modErrs d f).faultWaits = s.faultWaits := rfl
@[simp] theorem State.modErrs_wayWaits (s : State) (d : Nat) (f : Errs → Errs) : (s.modErrs d f).wayWaits = s.wayWaits := rfl
@[simp] theorem State.modErrs_metAt (s : State) (d : Nat) (f : Errs → Errs) : (s.modErrs d f).metAt = s.metAt := rfl
@[simp] theorem State.modErrs_mets (s : State) (d : Nat) (f : Errs → Errs) : (s.modErrs d f).mets = s.mets := rfl
@[simp] theorem State.modErrs_tickets (s : State) (d : Nat) (f : Errs → Errs) : (s.modErrs d f).tickets = s.tickets := rfl
@[simp] theorem State.modErrs_lost (s : State) (d : Nat) (f : Errs → Errs) : (s.modErrs d f).lost = s.lost := rfl
@[simp] theorem State.modErrs_wbs (s : State) (d : Nat) (f : Errs → Errs) : (s.modErrs d f).wbs = s.wbs := rfl
@[simp] theorem State.modErrs_bars (s : State) (d : Nat) (f : Errs → Errs) : (s.modErrs d f).bars = s.bars := rfl
@[simp] theorem State.modErrs_swarms (s : State) (d : Nat) (f : Errs → Errs) : (s.modErrs d f).swarms = s.swarms := rfl
@[simp] theorem State.modErrs_dev (s : State) (d : Nat) (f : Errs → Errs) : (s.modErrs d f).dev = s.dev := rfl
@[simp] theorem State.modErrs_devKey (s : State) (d : Nat) (f : Errs → Errs) : (s.modErrs d f).devKey = s.devKey := rfl
@[simp] theorem State.modErrs_devPois (s : State) (d : Nat) (f : Errs → Errs) : (s.modErrs d f).devPois = s.devPois := rfl
@[simp] theorem State.modErrs_devErr (s : State) (d : Nat) (f : Errs → Errs) : (s.modErrs d f).devErr = s.devErr := rfl
@[simp] theorem State.modErrs_host (s : State) (d : Nat) (f : Errs → Errs) : (s.modErrs d f).host = s.host := rfl
@[simp] theorem State.modErrs_hostKey (s : State) (d : Nat) (f : Errs → Errs) : (s.modErrs d f).hostKey = s.hostKey := rfl
@[simp] theorem State.modErrs_hostPois (s : State) (d : Nat) (f : Errs → Errs) : (s.modErrs d f).hostPois = s.hostPois := rfl
@[simp] theorem State.modErrs_hostErr (s : State) (d : Nat) (f : Errs → Errs) : (s.modErrs d f).hostErr = s.hostErr := rfl
@[simp] theorem State.modErrs_parts (s : State) (d : Nat) (f : Errs → Errs) : (s.modErrs d f).parts = s.parts := rfl
@[simp] theorem State.modErrs_fns (s : State) (d : Nat) (f : Errs → Errs) : (s.modErrs d f).fns = s.fns := rfl
@[simp] theorem State.modErrs_launches (s : State) (d : Nat) (f : Errs → Errs) : (s.modErrs d f).launches = s.launches := rfl
@[simp] theorem State.modErrs_stores (s : State) (d : Nat) (f : Errs → Errs) : (s.modErrs d f).stores = s.stores := rfl
@[simp] theorem State.modErrs_comb (s : State) (d : Nat) (f : Errs → Errs) : (s.modErrs d f).comb = s.comb := rfl
@[simp] theorem State.modErrs_stackTab (s : State) (d : Nat) (f : Errs → Errs) : (s.modErrs d f).stackTab = s.stackTab := rfl
@[simp] theorem State.modErrs_stackOps (s : State) (d : Nat) (f : Errs → Errs) : (s.modErrs d f).stackOps = s.stackOps := rfl
@[simp] theorem State.modErrs_images (s : State) (d : Nat) (f : Errs → Errs) : (s.modErrs d f).images = s.images := rfl
@[simp] theorem State.modErrs_gtime (s : State) (d : Nat) (f : Errs → Errs) : (s.modErrs d f).gtime = s.gtime := rfl
@[simp] theorem State.modErrs_frac (s : State) (d : Nat) (f : Errs → Errs) : (s.modErrs d f).frac = s.frac := rfl
@[simp] theorem State.modErrs_clocks (s : State) (d : Nat) (f : Errs → Errs) : (s.modErrs d f).clocks = s.clocks := rfl
@[simp] theorem State.modErrs_gate (s : State) (d : Nat) (f : Errs → Errs) : (s.modErrs d f).gate = s.gate := rfl
@[simp] theorem State.modErrs_links (s : State) (d : Nat) (f : Errs → Errs) : (s.modErrs d f).links = s.links := rfl
@[simp] theorem State.modErrs_windows (s : State) (d : Nat) (f : Errs → Errs) : (s.modErrs d f).windows = s.windows := rfl
@[simp] theorem State.modErrs_modnum (s : State) (d : Nat) (f : Errs → Errs) : (s.modErrs d f).modnum = s.modnum := rfl
@[simp] theorem State.modErrs_hdm (s : State) (d : Nat) (f : Errs → Errs) : (s.modErrs d f).hdm = s.hdm := rfl
@[simp] theorem State.modErrs_capgen (s : State) (d : Nat) (f : Errs → Errs) : (s.modErrs d f).capgen = s.capgen := rfl
@[simp] theorem State.modErrs_mgmt (s : State) (d : Nat) (f : Errs → Errs) : (s.modErrs d f).mgmt = s.mgmt := rfl
@[simp] theorem State.modErrs_log (s : State) (d : Nat) (f : Errs → Errs) : (s.modErrs d f).log = s.log := rfl
@[simp] theorem State.modErrs_nextKey (s : State) (d : Nat) (f : Errs → Errs) : (s.modErrs d f).nextKey = s.nextKey := rfl
@[simp] theorem State.modErrs_mgmtKey (s : State) (d : Nat) (f : Errs → Errs) : (s.modErrs d f).mgmtKey = s.mgmtKey := rfl
@[simp] theorem State.modErrs_out (s : State) (d : Nat) (f : Errs → Errs) : (s.modErrs d f).out = s.out := rfl
@[simp] theorem State.modErrs_jtag (s : State) (d : Nat) (f : Errs → Errs) : (s.modErrs d f).jtag = s.jtag := rfl
@[simp] theorem State.modErrs_agenda (s : State) (d : Nat) (f : Errs → Errs) : (s.modErrs d f).agenda = s.agenda := rfl
@[simp] theorem State.modErrs_turn (s : State) (d : Nat) (f : Errs → Errs) : (s.modErrs d f).turn = s.turn := rfl
@[simp] theorem State.modErrs_fresh (s : State) (d : Nat) (f : Errs → Errs) : (s.modErrs d f).fresh = s.fresh := rfl
@[simp] theorem State.modErrs_seqno (s : State) (d : Nat) (f : Errs → Errs) : (s.modErrs d f).seqno = s.seqno := rfl
@[simp] theorem State.countIssue_thr (s : State) : (s.countIssue).thr = s.thr := rfl
@[simp] theorem State.countIssue_threads (s : State) : (s.countIssue).threads = s.threads := rfl
@[simp] theorem State.countIssue_slots (s : State) : (s.countIssue).slots = s.slots := rfl
@[simp] theorem State.countIssue_sram (s : State) : (s.countIssue).sram = s.sram := rfl
@[simp] theorem State.countIssue_tags (s : State) : (s.countIssue).tags = s.tags := rfl
@[simp] theorem State.countIssue_sramPois (s : State) : (s.countIssue).sramPois = s.sramPois := rfl
@[simp] theorem State.countIssue_l1 (s : State) : (s.countIssue).l1 = s.l1 := rfl
@[simp] theorem State.countIssue_l1cfg (s : State) : (s.countIssue).l1cfg = s.l1cfg := rfl
@[simp] theorem State.countIssue_ibuf (s : State) : (s.countIssue).ibuf = s.ibuf := rfl
@[simp] theorem State.countIssue_classes (s : State) : (s.countIssue).classes = s.classes := rfl
@[simp] theorem State.countIssue_live (s : State) : (s.countIssue).live = s.live := rfl
@[simp] theorem State.countIssue_net (s : State) : (s.countIssue).net = s.net := rfl
@[simp] theorem State.countIssue_swept (s : State) : (s.countIssue).swept = s.swept := rfl
@[simp] theorem State.countIssue_sectors (s : State) : (s.countIssue).sectors = s.sectors := rfl
@[simp] theorem State.countIssue_tc (s : State) : (s.countIssue).tc = s.tc := rfl
@[simp] theorem State.countIssue_held (s : State) : (s.countIssue).held = s.held := rfl
@[simp] theorem State.countIssue_faults (s : State) : (s.countIssue).faults = s.faults := rfl
@[simp] theorem State.countIssue_faultWaits (s : State) : (s.countIssue).faultWaits = s.faultWaits := rfl
@[simp] theorem State.countIssue_wayWaits (s : State) : (s.countIssue).wayWaits = s.wayWaits := rfl
@[simp] theorem State.countIssue_metAt (s : State) : (s.countIssue).metAt = s.metAt := rfl
@[simp] theorem State.countIssue_mets (s : State) : (s.countIssue).mets = s.mets := rfl
@[simp] theorem State.countIssue_tickets (s : State) : (s.countIssue).tickets = s.tickets := rfl
@[simp] theorem State.countIssue_lost (s : State) : (s.countIssue).lost = s.lost := rfl
@[simp] theorem State.countIssue_wbs (s : State) : (s.countIssue).wbs = s.wbs := rfl
@[simp] theorem State.countIssue_bars (s : State) : (s.countIssue).bars = s.bars := rfl
@[simp] theorem State.countIssue_swarms (s : State) : (s.countIssue).swarms = s.swarms := rfl
@[simp] theorem State.countIssue_dev (s : State) : (s.countIssue).dev = s.dev := rfl
@[simp] theorem State.countIssue_devKey (s : State) : (s.countIssue).devKey = s.devKey := rfl
@[simp] theorem State.countIssue_devPois (s : State) : (s.countIssue).devPois = s.devPois := rfl
@[simp] theorem State.countIssue_devErr (s : State) : (s.countIssue).devErr = s.devErr := rfl
@[simp] theorem State.countIssue_host (s : State) : (s.countIssue).host = s.host := rfl
@[simp] theorem State.countIssue_hostKey (s : State) : (s.countIssue).hostKey = s.hostKey := rfl
@[simp] theorem State.countIssue_hostPois (s : State) : (s.countIssue).hostPois = s.hostPois := rfl
@[simp] theorem State.countIssue_hostErr (s : State) : (s.countIssue).hostErr = s.hostErr := rfl
@[simp] theorem State.countIssue_parts (s : State) : (s.countIssue).parts = s.parts := rfl
@[simp] theorem State.countIssue_fns (s : State) : (s.countIssue).fns = s.fns := rfl
@[simp] theorem State.countIssue_launches (s : State) : (s.countIssue).launches = s.launches := rfl
@[simp] theorem State.countIssue_stores (s : State) : (s.countIssue).stores = s.stores := rfl
@[simp] theorem State.countIssue_comb (s : State) : (s.countIssue).comb = s.comb := rfl
@[simp] theorem State.countIssue_stackTab (s : State) : (s.countIssue).stackTab = s.stackTab := rfl
@[simp] theorem State.countIssue_stackOps (s : State) : (s.countIssue).stackOps = s.stackOps := rfl
@[simp] theorem State.countIssue_images (s : State) : (s.countIssue).images = s.images := rfl
@[simp] theorem State.countIssue_gtime (s : State) : (s.countIssue).gtime = s.gtime := rfl
@[simp] theorem State.countIssue_frac (s : State) : (s.countIssue).frac = s.frac := rfl
@[simp] theorem State.countIssue_clocks (s : State) : (s.countIssue).clocks = s.clocks := rfl
@[simp] theorem State.countIssue_gate (s : State) : (s.countIssue).gate = s.gate := rfl
@[simp] theorem State.countIssue_errs (s : State) : (s.countIssue).errs = s.errs := rfl
@[simp] theorem State.countIssue_links (s : State) : (s.countIssue).links = s.links := rfl
@[simp] theorem State.countIssue_windows (s : State) : (s.countIssue).windows = s.windows := rfl
@[simp] theorem State.countIssue_modnum (s : State) : (s.countIssue).modnum = s.modnum := rfl
@[simp] theorem State.countIssue_hdm (s : State) : (s.countIssue).hdm = s.hdm := rfl
@[simp] theorem State.countIssue_capgen (s : State) : (s.countIssue).capgen = s.capgen := rfl
@[simp] theorem State.countIssue_mgmt (s : State) : (s.countIssue).mgmt = s.mgmt := rfl
@[simp] theorem State.countIssue_log (s : State) : (s.countIssue).log = s.log := rfl
@[simp] theorem State.countIssue_nextKey (s : State) : (s.countIssue).nextKey = s.nextKey := rfl
@[simp] theorem State.countIssue_mgmtKey (s : State) : (s.countIssue).mgmtKey = s.mgmtKey := rfl
@[simp] theorem State.countIssue_out (s : State) : (s.countIssue).out = s.out := rfl
@[simp] theorem State.countIssue_jtag (s : State) : (s.countIssue).jtag = s.jtag := rfl
@[simp] theorem State.countIssue_agenda (s : State) : (s.countIssue).agenda = s.agenda := rfl
@[simp] theorem State.countIssue_fresh (s : State) : (s.countIssue).fresh = s.fresh := rfl
@[simp] theorem State.countIssue_seqno (s : State) : (s.countIssue).seqno = s.seqno := rfl

@[simp] theorem Thread.ws_tid (t : Thread) (r : BitVec 4) (x : Word) : (t.ws r x).tid = t.tid := rfl
@[simp] theorem Thread.ws_p (t : Thread) (r : BitVec 4) (x : Word) : (t.ws r x).p = t.p := rfl
@[simp] theorem Thread.ws_v (t : Thread) (r : BitVec 4) (x : Word) : (t.ws r x).v = t.v := rfl
@[simp] theorem Thread.ws_k (t : Thread) (r : BitVec 4) (x : Word) : (t.ws r x).k = t.k := rfl
@[simp] theorem Thread.ws_pc (t : Thread) (r : BitVec 4) (x : Word) : (t.ws r x).pc = t.pc := rfl
@[simp] theorem Thread.ws_csr (t : Thread) (r : BitVec 4) (x : Word) : (t.ws r x).csr = t.csr := rfl
@[simp] theorem Thread.ws_grp (t : Thread) (r : BitVec 4) (x : Word) : (t.ws r x).grp = t.grp := rfl
@[simp] theorem Thread.ws_sigHL (t : Thread) (r : BitVec 4) (x : Word) : (t.ws r x).sigHL = t.sigHL := rfl
@[simp] theorem Thread.ws_flog (t : Thread) (r : BitVec 4) (x : Word) : (t.ws r x).flog = t.flog := rfl
@[simp] theorem Thread.ws_fix (t : Thread) (r : BitVec 4) (x : Word) : (t.ws r x).fix = t.fix := rfl
@[simp] theorem Thread.ws_det (t : Thread) (r : BitVec 4) (x : Word) : (t.ws r x).det = t.det := rfl
@[simp] theorem Thread.ws_prv (t : Thread) (r : BitVec 4) (x : Word) : (t.ws r x).prv = t.prv := rfl
@[simp] theorem Thread.ws_lperm (t : Thread) (r : BitVec 4) (x : Word) : (t.ws r x).lperm = t.lperm := rfl
@[simp] theorem Thread.ws_core (t : Thread) (r : BitVec 4) (x : Word) : (t.ws r x).core = t.core := rfl
@[simp] theorem Thread.ws_slot (t : Thread) (r : BitVec 4) (x : Word) : (t.ws r x).slot = t.slot := rfl
@[simp] theorem Thread.ws_home (t : Thread) (r : BitVec 4) (x : Word) : (t.ws r x).home = t.home := rfl
@[simp] theorem Thread.ws_travelling (t : Thread) (r : BitVec 4) (x : Word) : (t.ws r x).travelling = t.travelling := rfl
@[simp] theorem Thread.ws_wake (t : Thread) (r : BitVec 4) (x : Word) : (t.ws r x).wake = t.wake := rfl
@[simp] theorem Thread.ws_cycHi (t : Thread) (r : BitVec 4) (x : Word) : (t.ws r x).cycHi = t.cycHi := rfl
@[simp] theorem Thread.ws_timeHi (t : Thread) (r : BitVec 4) (x : Word) : (t.ws r x).timeHi = t.timeHi := rfl
@[simp] theorem Thread.ws_acc (t : Thread) (r : BitVec 4) (x : Word) : (t.ws r x).acc = t.acc := rfl
@[simp] theorem Thread.ws_seen (t : Thread) (r : BitVec 4) (x : Word) : (t.ws r x).seen = t.seen := rfl
@[simp] theorem Thread.ws_attach (t : Thread) (r : BitVec 4) (x : Word) : (t.ws r x).attach = t.attach := rfl
@[simp] theorem Thread.ws_told (t : Thread) (r : BitVec 4) (x : Word) : (t.ws r x).told = t.told := rfl
@[simp] theorem Thread.ws_arr (t : Thread) (r : BitVec 4) (x : Word) : (t.ws r x).arr = t.arr := rfl
@[simp] theorem Thread.ws_acquired (t : Thread) (r : BitVec 4) (x : Word) : (t.ws r x).acquired = t.acquired := rfl
@[simp] theorem Thread.ws_phase (t : Thread) (r : BitVec 4) (x : Word) : (t.ws r x).phase = t.phase := rfl
@[simp] theorem Thread.ws_stage (t : Thread) (r : BitVec 4) (x : Word) : (t.ws r x).stage = t.stage := rfl
@[simp] theorem Thread.ws_answer (t : Thread) (r : BitVec 4) (x : Word) : (t.ws r x).answer = t.answer := rfl
@[simp] theorem Thread.ws_expect (t : Thread) (r : BitVec 4) (x : Word) : (t.ws r x).expect = t.expect := rfl
@[simp] theorem Thread.ws_rep (t : Thread) (r : BitVec 4) (x : Word) : (t.ws r x).rep = t.rep := rfl
@[simp] theorem Thread.ws_latch (t : Thread) (r : BitVec 4) (x : Word) : (t.ws r x).latch = t.latch := rfl
@[simp] theorem Thread.ws_fetchRow (t : Thread) (r : BitVec 4) (x : Word) : (t.ws r x).fetchRow = t.fetchRow := rfl
@[simp] theorem Thread.ws_entered (t : Thread) (r : BitVec 4) (x : Word) : (t.ws r x).entered = t.entered := rfl
@[simp] theorem Thread.ws_parkSeq (t : Thread) (r : BitVec 4) (x : Word) : (t.ws r x).parkSeq = t.parkSeq := rfl
@[simp] theorem Thread.ws_parkTime (t : Thread) (r : BitVec 4) (x : Word) : (t.ws r x).parkTime = t.parkTime := rfl
@[simp] theorem Thread.ws_waited (t : Thread) (r : BitVec 4) (x : Word) : (t.ws r x).waited = t.waited := rfl
@[simp] theorem Thread.ws_owed (t : Thread) (r : BitVec 4) (x : Word) : (t.ws r x).owed = t.owed := rfl
@[simp] theorem Thread.ws_issued (t : Thread) (r : BitVec 4) (x : Word) : (t.ws r x).issued = t.issued := rfl
@[simp] theorem Thread.ws_rdmsDue (t : Thread) (r : BitVec 4) (x : Word) : (t.ws r x).rdmsDue = t.rdmsDue := rfl
@[simp] theorem Thread.ws_unserved (t : Thread) (r : BitVec 4) (x : Word) : (t.ws r x).unserved = t.unserved := rfl
@[simp] theorem Thread.wa_tid (t : Thread) (r : BitVec 3) (x : DWord) : (t.wa r x).tid = t.tid := rfl
@[simp] theorem Thread.wa_p (t : Thread) (r : BitVec 3) (x : DWord) : (t.wa r x).p = t.p := rfl
@[simp] theorem Thread.wa_v (t : Thread) (r : BitVec 3) (x : DWord) : (t.wa r x).v = t.v := rfl
@[simp] theorem Thread.wa_k (t : Thread) (r : BitVec 3) (x : DWord) : (t.wa r x).k = t.k := rfl
@[simp] theorem Thread.wa_pc (t : Thread) (r : BitVec 3) (x : DWord) : (t.wa r x).pc = t.pc := rfl
@[simp] theorem Thread.wa_csr (t : Thread) (r : BitVec 3) (x : DWord) : (t.wa r x).csr = t.csr := rfl
@[simp] theorem Thread.wa_grp (t : Thread) (r : BitVec 3) (x : DWord) : (t.wa r x).grp = t.grp := rfl
@[simp] theorem Thread.wa_sigHL (t : Thread) (r : BitVec 3) (x : DWord) : (t.wa r x).sigHL = t.sigHL := rfl
@[simp] theorem Thread.wa_flog (t : Thread) (r : BitVec 3) (x : DWord) : (t.wa r x).flog = t.flog := rfl
@[simp] theorem Thread.wa_fix (t : Thread) (r : BitVec 3) (x : DWord) : (t.wa r x).fix = t.fix := rfl
@[simp] theorem Thread.wa_det (t : Thread) (r : BitVec 3) (x : DWord) : (t.wa r x).det = t.det := rfl
@[simp] theorem Thread.wa_prv (t : Thread) (r : BitVec 3) (x : DWord) : (t.wa r x).prv = t.prv := rfl
@[simp] theorem Thread.wa_lperm (t : Thread) (r : BitVec 3) (x : DWord) : (t.wa r x).lperm = t.lperm := rfl
@[simp] theorem Thread.wa_core (t : Thread) (r : BitVec 3) (x : DWord) : (t.wa r x).core = t.core := rfl
@[simp] theorem Thread.wa_slot (t : Thread) (r : BitVec 3) (x : DWord) : (t.wa r x).slot = t.slot := rfl
@[simp] theorem Thread.wa_home (t : Thread) (r : BitVec 3) (x : DWord) : (t.wa r x).home = t.home := rfl
@[simp] theorem Thread.wa_travelling (t : Thread) (r : BitVec 3) (x : DWord) : (t.wa r x).travelling = t.travelling := rfl
@[simp] theorem Thread.wa_wake (t : Thread) (r : BitVec 3) (x : DWord) : (t.wa r x).wake = t.wake := rfl
@[simp] theorem Thread.wa_cycHi (t : Thread) (r : BitVec 3) (x : DWord) : (t.wa r x).cycHi = t.cycHi := rfl
@[simp] theorem Thread.wa_timeHi (t : Thread) (r : BitVec 3) (x : DWord) : (t.wa r x).timeHi = t.timeHi := rfl
@[simp] theorem Thread.wa_acc (t : Thread) (r : BitVec 3) (x : DWord) : (t.wa r x).acc = t.acc := rfl
@[simp] theorem Thread.wa_seen (t : Thread) (r : BitVec 3) (x : DWord) : (t.wa r x).seen = t.seen := rfl
@[simp] theorem Thread.wa_attach (t : Thread) (r : BitVec 3) (x : DWord) : (t.wa r x).attach = t.attach := rfl
@[simp] theorem Thread.wa_told (t : Thread) (r : BitVec 3) (x : DWord) : (t.wa r x).told = t.told := rfl
@[simp] theorem Thread.wa_arr (t : Thread) (r : BitVec 3) (x : DWord) : (t.wa r x).arr = t.arr := rfl
@[simp] theorem Thread.wa_acquired (t : Thread) (r : BitVec 3) (x : DWord) : (t.wa r x).acquired = t.acquired := rfl
@[simp] theorem Thread.wa_phase (t : Thread) (r : BitVec 3) (x : DWord) : (t.wa r x).phase = t.phase := rfl
@[simp] theorem Thread.wa_stage (t : Thread) (r : BitVec 3) (x : DWord) : (t.wa r x).stage = t.stage := rfl
@[simp] theorem Thread.wa_answer (t : Thread) (r : BitVec 3) (x : DWord) : (t.wa r x).answer = t.answer := rfl
@[simp] theorem Thread.wa_expect (t : Thread) (r : BitVec 3) (x : DWord) : (t.wa r x).expect = t.expect := rfl
@[simp] theorem Thread.wa_rep (t : Thread) (r : BitVec 3) (x : DWord) : (t.wa r x).rep = t.rep := rfl
@[simp] theorem Thread.wa_latch (t : Thread) (r : BitVec 3) (x : DWord) : (t.wa r x).latch = t.latch := rfl
@[simp] theorem Thread.wa_fetchRow (t : Thread) (r : BitVec 3) (x : DWord) : (t.wa r x).fetchRow = t.fetchRow := rfl
@[simp] theorem Thread.wa_entered (t : Thread) (r : BitVec 3) (x : DWord) : (t.wa r x).entered = t.entered := rfl
@[simp] theorem Thread.wa_parkSeq (t : Thread) (r : BitVec 3) (x : DWord) : (t.wa r x).parkSeq = t.parkSeq := rfl
@[simp] theorem Thread.wa_parkTime (t : Thread) (r : BitVec 3) (x : DWord) : (t.wa r x).parkTime = t.parkTime := rfl
@[simp] theorem Thread.wa_waited (t : Thread) (r : BitVec 3) (x : DWord) : (t.wa r x).waited = t.waited := rfl
@[simp] theorem Thread.wa_owed (t : Thread) (r : BitVec 3) (x : DWord) : (t.wa r x).owed = t.owed := rfl
@[simp] theorem Thread.wa_issued (t : Thread) (r : BitVec 3) (x : DWord) : (t.wa r x).issued = t.issued := rfl
@[simp] theorem Thread.wa_rdmsDue (t : Thread) (r : BitVec 3) (x : DWord) : (t.wa r x).rdmsDue = t.rdmsDue := rfl
@[simp] theorem Thread.wa_unserved (t : Thread) (r : BitVec 3) (x : DWord) : (t.wa r x).unserved = t.unserved := rfl
@[simp] theorem Thread.wv_tid (t : Thread) (r : BitVec 7) (x : VReg) : (t.wv r x).tid = t.tid := rfl
@[simp] theorem Thread.wv_s (t : Thread) (r : BitVec 7) (x : VReg) : (t.wv r x).s = t.s := rfl
@[simp] theorem Thread.wv_p (t : Thread) (r : BitVec 7) (x : VReg) : (t.wv r x).p = t.p := rfl
@[simp] theorem Thread.wv_k (t : Thread) (r : BitVec 7) (x : VReg) : (t.wv r x).k = t.k := rfl
@[simp] theorem Thread.wv_pc (t : Thread) (r : BitVec 7) (x : VReg) : (t.wv r x).pc = t.pc := rfl
@[simp] theorem Thread.wv_csr (t : Thread) (r : BitVec 7) (x : VReg) : (t.wv r x).csr = t.csr := rfl
@[simp] theorem Thread.wv_grp (t : Thread) (r : BitVec 7) (x : VReg) : (t.wv r x).grp = t.grp := rfl
@[simp] theorem Thread.wv_sigHL (t : Thread) (r : BitVec 7) (x : VReg) : (t.wv r x).sigHL = t.sigHL := rfl
@[simp] theorem Thread.wv_flog (t : Thread) (r : BitVec 7) (x : VReg) : (t.wv r x).flog = t.flog := rfl
@[simp] theorem Thread.wv_fix (t : Thread) (r : BitVec 7) (x : VReg) : (t.wv r x).fix = t.fix := rfl
@[simp] theorem Thread.wv_det (t : Thread) (r : BitVec 7) (x : VReg) : (t.wv r x).det = t.det := rfl
@[simp] theorem Thread.wv_prv (t : Thread) (r : BitVec 7) (x : VReg) : (t.wv r x).prv = t.prv := rfl
@[simp] theorem Thread.wv_lperm (t : Thread) (r : BitVec 7) (x : VReg) : (t.wv r x).lperm = t.lperm := rfl
@[simp] theorem Thread.wv_core (t : Thread) (r : BitVec 7) (x : VReg) : (t.wv r x).core = t.core := rfl
@[simp] theorem Thread.wv_slot (t : Thread) (r : BitVec 7) (x : VReg) : (t.wv r x).slot = t.slot := rfl
@[simp] theorem Thread.wv_home (t : Thread) (r : BitVec 7) (x : VReg) : (t.wv r x).home = t.home := rfl
@[simp] theorem Thread.wv_travelling (t : Thread) (r : BitVec 7) (x : VReg) : (t.wv r x).travelling = t.travelling := rfl
@[simp] theorem Thread.wv_wake (t : Thread) (r : BitVec 7) (x : VReg) : (t.wv r x).wake = t.wake := rfl
@[simp] theorem Thread.wv_cycHi (t : Thread) (r : BitVec 7) (x : VReg) : (t.wv r x).cycHi = t.cycHi := rfl
@[simp] theorem Thread.wv_timeHi (t : Thread) (r : BitVec 7) (x : VReg) : (t.wv r x).timeHi = t.timeHi := rfl
@[simp] theorem Thread.wv_acc (t : Thread) (r : BitVec 7) (x : VReg) : (t.wv r x).acc = t.acc := rfl
@[simp] theorem Thread.wv_seen (t : Thread) (r : BitVec 7) (x : VReg) : (t.wv r x).seen = t.seen := rfl
@[simp] theorem Thread.wv_attach (t : Thread) (r : BitVec 7) (x : VReg) : (t.wv r x).attach = t.attach := rfl
@[simp] theorem Thread.wv_told (t : Thread) (r : BitVec 7) (x : VReg) : (t.wv r x).told = t.told := rfl
@[simp] theorem Thread.wv_arr (t : Thread) (r : BitVec 7) (x : VReg) : (t.wv r x).arr = t.arr := rfl
@[simp] theorem Thread.wv_acquired (t : Thread) (r : BitVec 7) (x : VReg) : (t.wv r x).acquired = t.acquired := rfl
@[simp] theorem Thread.wv_phase (t : Thread) (r : BitVec 7) (x : VReg) : (t.wv r x).phase = t.phase := rfl
@[simp] theorem Thread.wv_stage (t : Thread) (r : BitVec 7) (x : VReg) : (t.wv r x).stage = t.stage := rfl
@[simp] theorem Thread.wv_answer (t : Thread) (r : BitVec 7) (x : VReg) : (t.wv r x).answer = t.answer := rfl
@[simp] theorem Thread.wv_expect (t : Thread) (r : BitVec 7) (x : VReg) : (t.wv r x).expect = t.expect := rfl
@[simp] theorem Thread.wv_rep (t : Thread) (r : BitVec 7) (x : VReg) : (t.wv r x).rep = t.rep := rfl
@[simp] theorem Thread.wv_latch (t : Thread) (r : BitVec 7) (x : VReg) : (t.wv r x).latch = t.latch := rfl
@[simp] theorem Thread.wv_fetchRow (t : Thread) (r : BitVec 7) (x : VReg) : (t.wv r x).fetchRow = t.fetchRow := rfl
@[simp] theorem Thread.wv_entered (t : Thread) (r : BitVec 7) (x : VReg) : (t.wv r x).entered = t.entered := rfl
@[simp] theorem Thread.wv_parkSeq (t : Thread) (r : BitVec 7) (x : VReg) : (t.wv r x).parkSeq = t.parkSeq := rfl
@[simp] theorem Thread.wv_parkTime (t : Thread) (r : BitVec 7) (x : VReg) : (t.wv r x).parkTime = t.parkTime := rfl
@[simp] theorem Thread.wv_waited (t : Thread) (r : BitVec 7) (x : VReg) : (t.wv r x).waited = t.waited := rfl
@[simp] theorem Thread.wv_owed (t : Thread) (r : BitVec 7) (x : VReg) : (t.wv r x).owed = t.owed := rfl
@[simp] theorem Thread.wv_issued (t : Thread) (r : BitVec 7) (x : VReg) : (t.wv r x).issued = t.issued := rfl
@[simp] theorem Thread.wv_rdmsDue (t : Thread) (r : BitVec 7) (x : VReg) : (t.wv r x).rdmsDue = t.rdmsDue := rfl
@[simp] theorem Thread.wv_unserved (t : Thread) (r : BitVec 7) (x : VReg) : (t.wv r x).unserved = t.unserved := rfl
@[simp] theorem Thread.wvp_tid (t : Thread) (r : BitVec 6) (x : Line) : (t.wvp r x).tid = t.tid := rfl
@[simp] theorem Thread.wvp_s (t : Thread) (r : BitVec 6) (x : Line) : (t.wvp r x).s = t.s := rfl
@[simp] theorem Thread.wvp_p (t : Thread) (r : BitVec 6) (x : Line) : (t.wvp r x).p = t.p := rfl
@[simp] theorem Thread.wvp_k (t : Thread) (r : BitVec 6) (x : Line) : (t.wvp r x).k = t.k := rfl
@[simp] theorem Thread.wvp_pc (t : Thread) (r : BitVec 6) (x : Line) : (t.wvp r x).pc = t.pc := rfl
@[simp] theorem Thread.wvp_csr (t : Thread) (r : BitVec 6) (x : Line) : (t.wvp r x).csr = t.csr := rfl
@[simp] theorem Thread.wvp_grp (t : Thread) (r : BitVec 6) (x : Line) : (t.wvp r x).grp = t.grp := rfl
@[simp] theorem Thread.wvp_sigHL (t : Thread) (r : BitVec 6) (x : Line) : (t.wvp r x).sigHL = t.sigHL := rfl
@[simp] theorem Thread.wvp_flog (t : Thread) (r : BitVec 6) (x : Line) : (t.wvp r x).flog = t.flog := rfl
@[simp] theorem Thread.wvp_fix (t : Thread) (r : BitVec 6) (x : Line) : (t.wvp r x).fix = t.fix := rfl
@[simp] theorem Thread.wvp_det (t : Thread) (r : BitVec 6) (x : Line) : (t.wvp r x).det = t.det := rfl
@[simp] theorem Thread.wvp_prv (t : Thread) (r : BitVec 6) (x : Line) : (t.wvp r x).prv = t.prv := rfl
@[simp] theorem Thread.wvp_lperm (t : Thread) (r : BitVec 6) (x : Line) : (t.wvp r x).lperm = t.lperm := rfl
@[simp] theorem Thread.wvp_core (t : Thread) (r : BitVec 6) (x : Line) : (t.wvp r x).core = t.core := rfl
@[simp] theorem Thread.wvp_slot (t : Thread) (r : BitVec 6) (x : Line) : (t.wvp r x).slot = t.slot := rfl
@[simp] theorem Thread.wvp_home (t : Thread) (r : BitVec 6) (x : Line) : (t.wvp r x).home = t.home := rfl
@[simp] theorem Thread.wvp_travelling (t : Thread) (r : BitVec 6) (x : Line) : (t.wvp r x).travelling = t.travelling := rfl
@[simp] theorem Thread.wvp_wake (t : Thread) (r : BitVec 6) (x : Line) : (t.wvp r x).wake = t.wake := rfl
@[simp] theorem Thread.wvp_cycHi (t : Thread) (r : BitVec 6) (x : Line) : (t.wvp r x).cycHi = t.cycHi := rfl
@[simp] theorem Thread.wvp_timeHi (t : Thread) (r : BitVec 6) (x : Line) : (t.wvp r x).timeHi = t.timeHi := rfl
@[simp] theorem Thread.wvp_acc (t : Thread) (r : BitVec 6) (x : Line) : (t.wvp r x).acc = t.acc := rfl
@[simp] theorem Thread.wvp_seen (t : Thread) (r : BitVec 6) (x : Line) : (t.wvp r x).seen = t.seen := rfl
@[simp] theorem Thread.wvp_attach (t : Thread) (r : BitVec 6) (x : Line) : (t.wvp r x).attach = t.attach := rfl
@[simp] theorem Thread.wvp_told (t : Thread) (r : BitVec 6) (x : Line) : (t.wvp r x).told = t.told := rfl
@[simp] theorem Thread.wvp_arr (t : Thread) (r : BitVec 6) (x : Line) : (t.wvp r x).arr = t.arr := rfl
@[simp] theorem Thread.wvp_acquired (t : Thread) (r : BitVec 6) (x : Line) : (t.wvp r x).acquired = t.acquired := rfl
@[simp] theorem Thread.wvp_phase (t : Thread) (r : BitVec 6) (x : Line) : (t.wvp r x).phase = t.phase := rfl
@[simp] theorem Thread.wvp_stage (t : Thread) (r : BitVec 6) (x : Line) : (t.wvp r x).stage = t.stage := rfl
@[simp] theorem Thread.wvp_answer (t : Thread) (r : BitVec 6) (x : Line) : (t.wvp r x).answer = t.answer := rfl
@[simp] theorem Thread.wvp_expect (t : Thread) (r : BitVec 6) (x : Line) : (t.wvp r x).expect = t.expect := rfl
@[simp] theorem Thread.wvp_rep (t : Thread) (r : BitVec 6) (x : Line) : (t.wvp r x).rep = t.rep := rfl
@[simp] theorem Thread.wvp_latch (t : Thread) (r : BitVec 6) (x : Line) : (t.wvp r x).latch = t.latch := rfl
@[simp] theorem Thread.wvp_fetchRow (t : Thread) (r : BitVec 6) (x : Line) : (t.wvp r x).fetchRow = t.fetchRow := rfl
@[simp] theorem Thread.wvp_entered (t : Thread) (r : BitVec 6) (x : Line) : (t.wvp r x).entered = t.entered := rfl
@[simp] theorem Thread.wvp_parkSeq (t : Thread) (r : BitVec 6) (x : Line) : (t.wvp r x).parkSeq = t.parkSeq := rfl
@[simp] theorem Thread.wvp_parkTime (t : Thread) (r : BitVec 6) (x : Line) : (t.wvp r x).parkTime = t.parkTime := rfl
@[simp] theorem Thread.wvp_waited (t : Thread) (r : BitVec 6) (x : Line) : (t.wvp r x).waited = t.waited := rfl
@[simp] theorem Thread.wvp_owed (t : Thread) (r : BitVec 6) (x : Line) : (t.wvp r x).owed = t.owed := rfl
@[simp] theorem Thread.wvp_issued (t : Thread) (r : BitVec 6) (x : Line) : (t.wvp r x).issued = t.issued := rfl
@[simp] theorem Thread.wvp_rdmsDue (t : Thread) (r : BitVec 6) (x : Line) : (t.wvp r x).rdmsDue = t.rdmsDue := rfl
@[simp] theorem Thread.wvp_unserved (t : Thread) (r : BitVec 6) (x : Line) : (t.wvp r x).unserved = t.unserved := rfl
@[simp] theorem Thread.wk_tid (t : Thread) (r : BitVec 3) (x : Half) : (t.wk r x).tid = t.tid := rfl
@[simp] theorem Thread.wk_s (t : Thread) (r : BitVec 3) (x : Half) : (t.wk r x).s = t.s := rfl
@[simp] theorem Thread.wk_p (t : Thread) (r : BitVec 3) (x : Half) : (t.wk r x).p = t.p := rfl
@[simp] theorem Thread.wk_v (t : Thread) (r : BitVec 3) (x : Half) : (t.wk r x).v = t.v := rfl
@[simp] theorem Thread.wk_pc (t : Thread) (r : BitVec 3) (x : Half) : (t.wk r x).pc = t.pc := rfl
@[simp] theorem Thread.wk_csr (t : Thread) (r : BitVec 3) (x : Half) : (t.wk r x).csr = t.csr := rfl
@[simp] theorem Thread.wk_grp (t : Thread) (r : BitVec 3) (x : Half) : (t.wk r x).grp = t.grp := rfl
@[simp] theorem Thread.wk_sigHL (t : Thread) (r : BitVec 3) (x : Half) : (t.wk r x).sigHL = t.sigHL := rfl
@[simp] theorem Thread.wk_flog (t : Thread) (r : BitVec 3) (x : Half) : (t.wk r x).flog = t.flog := rfl
@[simp] theorem Thread.wk_fix (t : Thread) (r : BitVec 3) (x : Half) : (t.wk r x).fix = t.fix := rfl
@[simp] theorem Thread.wk_det (t : Thread) (r : BitVec 3) (x : Half) : (t.wk r x).det = t.det := rfl
@[simp] theorem Thread.wk_prv (t : Thread) (r : BitVec 3) (x : Half) : (t.wk r x).prv = t.prv := rfl
@[simp] theorem Thread.wk_lperm (t : Thread) (r : BitVec 3) (x : Half) : (t.wk r x).lperm = t.lperm := rfl
@[simp] theorem Thread.wk_core (t : Thread) (r : BitVec 3) (x : Half) : (t.wk r x).core = t.core := rfl
@[simp] theorem Thread.wk_slot (t : Thread) (r : BitVec 3) (x : Half) : (t.wk r x).slot = t.slot := rfl
@[simp] theorem Thread.wk_home (t : Thread) (r : BitVec 3) (x : Half) : (t.wk r x).home = t.home := rfl
@[simp] theorem Thread.wk_travelling (t : Thread) (r : BitVec 3) (x : Half) : (t.wk r x).travelling = t.travelling := rfl
@[simp] theorem Thread.wk_wake (t : Thread) (r : BitVec 3) (x : Half) : (t.wk r x).wake = t.wake := rfl
@[simp] theorem Thread.wk_cycHi (t : Thread) (r : BitVec 3) (x : Half) : (t.wk r x).cycHi = t.cycHi := rfl
@[simp] theorem Thread.wk_timeHi (t : Thread) (r : BitVec 3) (x : Half) : (t.wk r x).timeHi = t.timeHi := rfl
@[simp] theorem Thread.wk_acc (t : Thread) (r : BitVec 3) (x : Half) : (t.wk r x).acc = t.acc := rfl
@[simp] theorem Thread.wk_seen (t : Thread) (r : BitVec 3) (x : Half) : (t.wk r x).seen = t.seen := rfl
@[simp] theorem Thread.wk_attach (t : Thread) (r : BitVec 3) (x : Half) : (t.wk r x).attach = t.attach := rfl
@[simp] theorem Thread.wk_told (t : Thread) (r : BitVec 3) (x : Half) : (t.wk r x).told = t.told := rfl
@[simp] theorem Thread.wk_arr (t : Thread) (r : BitVec 3) (x : Half) : (t.wk r x).arr = t.arr := rfl
@[simp] theorem Thread.wk_acquired (t : Thread) (r : BitVec 3) (x : Half) : (t.wk r x).acquired = t.acquired := rfl
@[simp] theorem Thread.wk_phase (t : Thread) (r : BitVec 3) (x : Half) : (t.wk r x).phase = t.phase := rfl
@[simp] theorem Thread.wk_stage (t : Thread) (r : BitVec 3) (x : Half) : (t.wk r x).stage = t.stage := rfl
@[simp] theorem Thread.wk_answer (t : Thread) (r : BitVec 3) (x : Half) : (t.wk r x).answer = t.answer := rfl
@[simp] theorem Thread.wk_expect (t : Thread) (r : BitVec 3) (x : Half) : (t.wk r x).expect = t.expect := rfl
@[simp] theorem Thread.wk_rep (t : Thread) (r : BitVec 3) (x : Half) : (t.wk r x).rep = t.rep := rfl
@[simp] theorem Thread.wk_latch (t : Thread) (r : BitVec 3) (x : Half) : (t.wk r x).latch = t.latch := rfl
@[simp] theorem Thread.wk_fetchRow (t : Thread) (r : BitVec 3) (x : Half) : (t.wk r x).fetchRow = t.fetchRow := rfl
@[simp] theorem Thread.wk_entered (t : Thread) (r : BitVec 3) (x : Half) : (t.wk r x).entered = t.entered := rfl
@[simp] theorem Thread.wk_parkSeq (t : Thread) (r : BitVec 3) (x : Half) : (t.wk r x).parkSeq = t.parkSeq := rfl
@[simp] theorem Thread.wk_parkTime (t : Thread) (r : BitVec 3) (x : Half) : (t.wk r x).parkTime = t.parkTime := rfl
@[simp] theorem Thread.wk_waited (t : Thread) (r : BitVec 3) (x : Half) : (t.wk r x).waited = t.waited := rfl
@[simp] theorem Thread.wk_owed (t : Thread) (r : BitVec 3) (x : Half) : (t.wk r x).owed = t.owed := rfl
@[simp] theorem Thread.wk_issued (t : Thread) (r : BitVec 3) (x : Half) : (t.wk r x).issued = t.issued := rfl
@[simp] theorem Thread.wk_rdmsDue (t : Thread) (r : BitVec 3) (x : Half) : (t.wk r x).rdmsDue = t.rdmsDue := rfl
@[simp] theorem Thread.wk_unserved (t : Thread) (r : BitVec 3) (x : Half) : (t.wk r x).unserved = t.unserved := rfl
@[simp] theorem Thread.orFlags_tid (t : Thread) (f : BitVec 6) : (t.orFlags f).tid = t.tid := rfl
@[simp] theorem Thread.orFlags_s (t : Thread) (f : BitVec 6) : (t.orFlags f).s = t.s := rfl
@[simp] theorem Thread.orFlags_p (t : Thread) (f : BitVec 6) : (t.orFlags f).p = t.p := rfl
@[simp] theorem Thread.orFlags_v (t : Thread) (f : BitVec 6) : (t.orFlags f).v = t.v := rfl
@[simp] theorem Thread.orFlags_k (t : Thread) (f : BitVec 6) : (t.orFlags f).k = t.k := rfl
@[simp] theorem Thread.orFlags_pc (t : Thread) (f : BitVec 6) : (t.orFlags f).pc = t.pc := rfl
@[simp] theorem Thread.orFlags_grp (t : Thread) (f : BitVec 6) : (t.orFlags f).grp = t.grp := rfl
@[simp] theorem Thread.orFlags_sigHL (t : Thread) (f : BitVec 6) : (t.orFlags f).sigHL = t.sigHL := rfl
@[simp] theorem Thread.orFlags_flog (t : Thread) (f : BitVec 6) : (t.orFlags f).flog = t.flog := rfl
@[simp] theorem Thread.orFlags_fix (t : Thread) (f : BitVec 6) : (t.orFlags f).fix = t.fix := rfl
@[simp] theorem Thread.orFlags_det (t : Thread) (f : BitVec 6) : (t.orFlags f).det = t.det := rfl
@[simp] theorem Thread.orFlags_prv (t : Thread) (f : BitVec 6) : (t.orFlags f).prv = t.prv := rfl
@[simp] theorem Thread.orFlags_lperm (t : Thread) (f : BitVec 6) : (t.orFlags f).lperm = t.lperm := rfl
@[simp] theorem Thread.orFlags_core (t : Thread) (f : BitVec 6) : (t.orFlags f).core = t.core := rfl
@[simp] theorem Thread.orFlags_slot (t : Thread) (f : BitVec 6) : (t.orFlags f).slot = t.slot := rfl
@[simp] theorem Thread.orFlags_home (t : Thread) (f : BitVec 6) : (t.orFlags f).home = t.home := rfl
@[simp] theorem Thread.orFlags_travelling (t : Thread) (f : BitVec 6) : (t.orFlags f).travelling = t.travelling := rfl
@[simp] theorem Thread.orFlags_wake (t : Thread) (f : BitVec 6) : (t.orFlags f).wake = t.wake := rfl
@[simp] theorem Thread.orFlags_cycHi (t : Thread) (f : BitVec 6) : (t.orFlags f).cycHi = t.cycHi := rfl
@[simp] theorem Thread.orFlags_timeHi (t : Thread) (f : BitVec 6) : (t.orFlags f).timeHi = t.timeHi := rfl
@[simp] theorem Thread.orFlags_acc (t : Thread) (f : BitVec 6) : (t.orFlags f).acc = t.acc := rfl
@[simp] theorem Thread.orFlags_seen (t : Thread) (f : BitVec 6) : (t.orFlags f).seen = t.seen := rfl
@[simp] theorem Thread.orFlags_attach (t : Thread) (f : BitVec 6) : (t.orFlags f).attach = t.attach := rfl
@[simp] theorem Thread.orFlags_told (t : Thread) (f : BitVec 6) : (t.orFlags f).told = t.told := rfl
@[simp] theorem Thread.orFlags_arr (t : Thread) (f : BitVec 6) : (t.orFlags f).arr = t.arr := rfl
@[simp] theorem Thread.orFlags_acquired (t : Thread) (f : BitVec 6) : (t.orFlags f).acquired = t.acquired := rfl
@[simp] theorem Thread.orFlags_phase (t : Thread) (f : BitVec 6) : (t.orFlags f).phase = t.phase := rfl
@[simp] theorem Thread.orFlags_stage (t : Thread) (f : BitVec 6) : (t.orFlags f).stage = t.stage := rfl
@[simp] theorem Thread.orFlags_answer (t : Thread) (f : BitVec 6) : (t.orFlags f).answer = t.answer := rfl
@[simp] theorem Thread.orFlags_expect (t : Thread) (f : BitVec 6) : (t.orFlags f).expect = t.expect := rfl
@[simp] theorem Thread.orFlags_rep (t : Thread) (f : BitVec 6) : (t.orFlags f).rep = t.rep := rfl
@[simp] theorem Thread.orFlags_latch (t : Thread) (f : BitVec 6) : (t.orFlags f).latch = t.latch := rfl
@[simp] theorem Thread.orFlags_fetchRow (t : Thread) (f : BitVec 6) : (t.orFlags f).fetchRow = t.fetchRow := rfl
@[simp] theorem Thread.orFlags_entered (t : Thread) (f : BitVec 6) : (t.orFlags f).entered = t.entered := rfl
@[simp] theorem Thread.orFlags_parkSeq (t : Thread) (f : BitVec 6) : (t.orFlags f).parkSeq = t.parkSeq := rfl
@[simp] theorem Thread.orFlags_parkTime (t : Thread) (f : BitVec 6) : (t.orFlags f).parkTime = t.parkTime := rfl
@[simp] theorem Thread.orFlags_waited (t : Thread) (f : BitVec 6) : (t.orFlags f).waited = t.waited := rfl
@[simp] theorem Thread.orFlags_owed (t : Thread) (f : BitVec 6) : (t.orFlags f).owed = t.owed := rfl
@[simp] theorem Thread.orFlags_issued (t : Thread) (f : BitVec 6) : (t.orFlags f).issued = t.issued := rfl
@[simp] theorem Thread.orFlags_rdmsDue (t : Thread) (f : BitVec 6) : (t.orFlags f).rdmsDue = t.rdmsDue := rfl
@[simp] theorem Thread.orFlags_unserved (t : Thread) (f : BitVec 6) : (t.orFlags f).unserved = t.unserved := rfl
@[simp] theorem Thread.orFlags_poison (t : Thread) (f : BitVec 6) : (t.orFlags f).poison = t.poison := rfl
@[simp] theorem Thread.goOn_tid (t : Thread) (pc : DWord) (r : Option Rep) : (t.goOn pc r).tid = t.tid := rfl
@[simp] theorem Thread.goOn_s (t : Thread) (pc : DWord) (r : Option Rep) : (t.goOn pc r).s = t.s := rfl
@[simp] theorem Thread.goOn_p (t : Thread) (pc : DWord) (r : Option Rep) : (t.goOn pc r).p = t.p := rfl
@[simp] theorem Thread.goOn_v (t : Thread) (pc : DWord) (r : Option Rep) : (t.goOn pc r).v = t.v := rfl
@[simp] theorem Thread.goOn_k (t : Thread) (pc : DWord) (r : Option Rep) : (t.goOn pc r).k = t.k := rfl
@[simp] theorem Thread.goOn_csr (t : Thread) (pc : DWord) (r : Option Rep) : (t.goOn pc r).csr = t.csr := rfl
@[simp] theorem Thread.goOn_grp (t : Thread) (pc : DWord) (r : Option Rep) : (t.goOn pc r).grp = t.grp := rfl
@[simp] theorem Thread.goOn_sigHL (t : Thread) (pc : DWord) (r : Option Rep) : (t.goOn pc r).sigHL = t.sigHL := rfl
@[simp] theorem Thread.goOn_flog (t : Thread) (pc : DWord) (r : Option Rep) : (t.goOn pc r).flog = t.flog := rfl
@[simp] theorem Thread.goOn_fix (t : Thread) (pc : DWord) (r : Option Rep) : (t.goOn pc r).fix = t.fix := rfl
@[simp] theorem Thread.goOn_det (t : Thread) (pc : DWord) (r : Option Rep) : (t.goOn pc r).det = t.det := rfl
@[simp] theorem Thread.goOn_prv (t : Thread) (pc : DWord) (r : Option Rep) : (t.goOn pc r).prv = t.prv := rfl
@[simp] theorem Thread.goOn_lperm (t : Thread) (pc : DWord) (r : Option Rep) : (t.goOn pc r).lperm = t.lperm := rfl
@[simp] theorem Thread.goOn_core (t : Thread) (pc : DWord) (r : Option Rep) : (t.goOn pc r).core = t.core := rfl
@[simp] theorem Thread.goOn_slot (t : Thread) (pc : DWord) (r : Option Rep) : (t.goOn pc r).slot = t.slot := rfl
@[simp] theorem Thread.goOn_home (t : Thread) (pc : DWord) (r : Option Rep) : (t.goOn pc r).home = t.home := rfl
@[simp] theorem Thread.goOn_travelling (t : Thread) (pc : DWord) (r : Option Rep) : (t.goOn pc r).travelling = t.travelling := rfl
@[simp] theorem Thread.goOn_wake (t : Thread) (pc : DWord) (r : Option Rep) : (t.goOn pc r).wake = t.wake := rfl
@[simp] theorem Thread.goOn_cycHi (t : Thread) (pc : DWord) (r : Option Rep) : (t.goOn pc r).cycHi = t.cycHi := rfl
@[simp] theorem Thread.goOn_timeHi (t : Thread) (pc : DWord) (r : Option Rep) : (t.goOn pc r).timeHi = t.timeHi := rfl
@[simp] theorem Thread.goOn_acc (t : Thread) (pc : DWord) (r : Option Rep) : (t.goOn pc r).acc = t.acc := rfl
@[simp] theorem Thread.goOn_seen (t : Thread) (pc : DWord) (r : Option Rep) : (t.goOn pc r).seen = t.seen := rfl
@[simp] theorem Thread.goOn_attach (t : Thread) (pc : DWord) (r : Option Rep) : (t.goOn pc r).attach = t.attach := rfl
@[simp] theorem Thread.goOn_told (t : Thread) (pc : DWord) (r : Option Rep) : (t.goOn pc r).told = t.told := rfl
@[simp] theorem Thread.goOn_arr (t : Thread) (pc : DWord) (r : Option Rep) : (t.goOn pc r).arr = t.arr := rfl
@[simp] theorem Thread.goOn_acquired (t : Thread) (pc : DWord) (r : Option Rep) : (t.goOn pc r).acquired = t.acquired := rfl
@[simp] theorem Thread.goOn_fetchRow (t : Thread) (pc : DWord) (r : Option Rep) : (t.goOn pc r).fetchRow = t.fetchRow := rfl
@[simp] theorem Thread.goOn_parkSeq (t : Thread) (pc : DWord) (r : Option Rep) : (t.goOn pc r).parkSeq = t.parkSeq := rfl
@[simp] theorem Thread.goOn_parkTime (t : Thread) (pc : DWord) (r : Option Rep) : (t.goOn pc r).parkTime = t.parkTime := rfl
@[simp] theorem Thread.goOn_owed (t : Thread) (pc : DWord) (r : Option Rep) : (t.goOn pc r).owed = t.owed := rfl
@[simp] theorem Thread.goOn_issued (t : Thread) (pc : DWord) (r : Option Rep) : (t.goOn pc r).issued = t.issued := rfl
@[simp] theorem Thread.goOn_rdmsDue (t : Thread) (pc : DWord) (r : Option Rep) : (t.goOn pc r).rdmsDue = t.rdmsDue := rfl
@[simp] theorem Thread.goOn_unserved (t : Thread) (pc : DWord) (r : Option Rep) : (t.goOn pc r).unserved = t.unserved := rfl
@[simp] theorem Thread.goOn_poison (t : Thread) (pc : DWord) (r : Option Rep) : (t.goOn pc r).poison = t.poison := rfl

/-! ## A thread's predicates -/

@[simp] theorem Thread.wp_tid (t : Thread) (n : BitVec 3) (b : Bool) : (t.wp n b).tid = t.tid := by
  unfold Thread.wp; split <;> rfl
@[simp] theorem Thread.wp_s (t : Thread) (n : BitVec 3) (b : Bool) : (t.wp n b).s = t.s := by
  unfold Thread.wp; split <;> rfl
@[simp] theorem Thread.wp_v (t : Thread) (n : BitVec 3) (b : Bool) : (t.wp n b).v = t.v := by
  unfold Thread.wp; split <;> rfl
@[simp] theorem Thread.wp_k (t : Thread) (n : BitVec 3) (b : Bool) : (t.wp n b).k = t.k := by
  unfold Thread.wp; split <;> rfl
@[simp] theorem Thread.wp_pc (t : Thread) (n : BitVec 3) (b : Bool) : (t.wp n b).pc = t.pc := by
  unfold Thread.wp; split <;> rfl
@[simp] theorem Thread.wp_csr (t : Thread) (n : BitVec 3) (b : Bool) : (t.wp n b).csr = t.csr := by
  unfold Thread.wp; split <;> rfl
@[simp] theorem Thread.wp_grp (t : Thread) (n : BitVec 3) (b : Bool) : (t.wp n b).grp = t.grp := by
  unfold Thread.wp; split <;> rfl
@[simp] theorem Thread.wp_sigHL (t : Thread) (n : BitVec 3) (b : Bool) : (t.wp n b).sigHL = t.sigHL := by
  unfold Thread.wp; split <;> rfl
@[simp] theorem Thread.wp_flog (t : Thread) (n : BitVec 3) (b : Bool) : (t.wp n b).flog = t.flog := by
  unfold Thread.wp; split <;> rfl
@[simp] theorem Thread.wp_fix (t : Thread) (n : BitVec 3) (b : Bool) : (t.wp n b).fix = t.fix := by
  unfold Thread.wp; split <;> rfl
@[simp] theorem Thread.wp_det (t : Thread) (n : BitVec 3) (b : Bool) : (t.wp n b).det = t.det := by
  unfold Thread.wp; split <;> rfl
@[simp] theorem Thread.wp_prv (t : Thread) (n : BitVec 3) (b : Bool) : (t.wp n b).prv = t.prv := by
  unfold Thread.wp; split <;> rfl
@[simp] theorem Thread.wp_lperm (t : Thread) (n : BitVec 3) (b : Bool) : (t.wp n b).lperm = t.lperm := by
  unfold Thread.wp; split <;> rfl
@[simp] theorem Thread.wp_core (t : Thread) (n : BitVec 3) (b : Bool) : (t.wp n b).core = t.core := by
  unfold Thread.wp; split <;> rfl
@[simp] theorem Thread.wp_slot (t : Thread) (n : BitVec 3) (b : Bool) : (t.wp n b).slot = t.slot := by
  unfold Thread.wp; split <;> rfl
@[simp] theorem Thread.wp_home (t : Thread) (n : BitVec 3) (b : Bool) : (t.wp n b).home = t.home := by
  unfold Thread.wp; split <;> rfl
@[simp] theorem Thread.wp_travelling (t : Thread) (n : BitVec 3) (b : Bool) : (t.wp n b).travelling = t.travelling := by
  unfold Thread.wp; split <;> rfl
@[simp] theorem Thread.wp_wake (t : Thread) (n : BitVec 3) (b : Bool) : (t.wp n b).wake = t.wake := by
  unfold Thread.wp; split <;> rfl
@[simp] theorem Thread.wp_cycHi (t : Thread) (n : BitVec 3) (b : Bool) : (t.wp n b).cycHi = t.cycHi := by
  unfold Thread.wp; split <;> rfl
@[simp] theorem Thread.wp_timeHi (t : Thread) (n : BitVec 3) (b : Bool) : (t.wp n b).timeHi = t.timeHi := by
  unfold Thread.wp; split <;> rfl
@[simp] theorem Thread.wp_acc (t : Thread) (n : BitVec 3) (b : Bool) : (t.wp n b).acc = t.acc := by
  unfold Thread.wp; split <;> rfl
@[simp] theorem Thread.wp_seen (t : Thread) (n : BitVec 3) (b : Bool) : (t.wp n b).seen = t.seen := by
  unfold Thread.wp; split <;> rfl
@[simp] theorem Thread.wp_attach (t : Thread) (n : BitVec 3) (b : Bool) : (t.wp n b).attach = t.attach := by
  unfold Thread.wp; split <;> rfl
@[simp] theorem Thread.wp_told (t : Thread) (n : BitVec 3) (b : Bool) : (t.wp n b).told = t.told := by
  unfold Thread.wp; split <;> rfl
@[simp] theorem Thread.wp_arr (t : Thread) (n : BitVec 3) (b : Bool) : (t.wp n b).arr = t.arr := by
  unfold Thread.wp; split <;> rfl
@[simp] theorem Thread.wp_acquired (t : Thread) (n : BitVec 3) (b : Bool) : (t.wp n b).acquired = t.acquired := by
  unfold Thread.wp; split <;> rfl
@[simp] theorem Thread.wp_phase (t : Thread) (n : BitVec 3) (b : Bool) : (t.wp n b).phase = t.phase := by
  unfold Thread.wp; split <;> rfl
@[simp] theorem Thread.wp_stage (t : Thread) (n : BitVec 3) (b : Bool) : (t.wp n b).stage = t.stage := by
  unfold Thread.wp; split <;> rfl
@[simp] theorem Thread.wp_answer (t : Thread) (n : BitVec 3) (b : Bool) : (t.wp n b).answer = t.answer := by
  unfold Thread.wp; split <;> rfl
@[simp] theorem Thread.wp_expect (t : Thread) (n : BitVec 3) (b : Bool) : (t.wp n b).expect = t.expect := by
  unfold Thread.wp; split <;> rfl
@[simp] theorem Thread.wp_rep (t : Thread) (n : BitVec 3) (b : Bool) : (t.wp n b).rep = t.rep := by
  unfold Thread.wp; split <;> rfl
@[simp] theorem Thread.wp_latch (t : Thread) (n : BitVec 3) (b : Bool) : (t.wp n b).latch = t.latch := by
  unfold Thread.wp; split <;> rfl
@[simp] theorem Thread.wp_fetchRow (t : Thread) (n : BitVec 3) (b : Bool) : (t.wp n b).fetchRow = t.fetchRow := by
  unfold Thread.wp; split <;> rfl
@[simp] theorem Thread.wp_entered (t : Thread) (n : BitVec 3) (b : Bool) : (t.wp n b).entered = t.entered := by
  unfold Thread.wp; split <;> rfl
@[simp] theorem Thread.wp_parkSeq (t : Thread) (n : BitVec 3) (b : Bool) : (t.wp n b).parkSeq = t.parkSeq := by
  unfold Thread.wp; split <;> rfl
@[simp] theorem Thread.wp_parkTime (t : Thread) (n : BitVec 3) (b : Bool) : (t.wp n b).parkTime = t.parkTime := by
  unfold Thread.wp; split <;> rfl
@[simp] theorem Thread.wp_waited (t : Thread) (n : BitVec 3) (b : Bool) : (t.wp n b).waited = t.waited := by
  unfold Thread.wp; split <;> rfl
@[simp] theorem Thread.wp_owed (t : Thread) (n : BitVec 3) (b : Bool) : (t.wp n b).owed = t.owed := by
  unfold Thread.wp; split <;> rfl
@[simp] theorem Thread.wp_issued (t : Thread) (n : BitVec 3) (b : Bool) : (t.wp n b).issued = t.issued := by
  unfold Thread.wp; split <;> rfl
@[simp] theorem Thread.wp_rdmsDue (t : Thread) (n : BitVec 3) (b : Bool) : (t.wp n b).rdmsDue = t.rdmsDue := by
  unfold Thread.wp; split <;> rfl
@[simp] theorem Thread.wp_unserved (t : Thread) (n : BitVec 3) (b : Bool) : (t.wp n b).unserved = t.unserved := by
  unfold Thread.wp; split <;> rfl
@[simp] theorem Thread.wp_poison (t : Thread) (n : BitVec 3) (b : Bool) : (t.wp n b).poison = t.poison := by
  unfold Thread.wp; split <;> rfl

/-! ## What the updates set -/

@[simp] theorem State.charge_thr (s : State) (n : Nat) : (s.charge n).thr = { s.thr with issued := s.thr.issued + n } := rfl
@[simp] theorem State.tick_fresh (s : State) : s.tick.fresh = s.fresh + 1 := rfl
@[simp] theorem State.advance_gtime (s : State) (n : Nat) : (s.advance n).gtime = s.gtime + (s.frac + n) / 224 := rfl
@[simp] theorem State.advance_frac (s : State) (n : Nat) : (s.advance n).frac = (s.frac + n) % 224 := rfl
@[simp] theorem State.countIssue_turn (s : State) : s.countIssue.turn = s.turn + 1 := rfl
@[simp] theorem State.send_seqno (s : State) (p c : Nat) (b : Body) : (s.send p c b).seqno = s.seqno + 1 := rfl
@[simp] theorem Thread.goOn_pc (t : Thread) (pc : DWord) (r : Option Rep) : (t.goOn pc r).pc = pc := rfl
@[simp] theorem Thread.goOn_rep (t : Thread) (pc : DWord) (r : Option Rep) : (t.goOn pc r).rep = r := rfl
@[simp] theorem Thread.goOn_phase (t : Thread) (pc : DWord) (r : Option Rep) : (t.goOn pc r).phase = .run := rfl

end Sys2Proof.Machine
end

