-- ==== Sys2Proof/Laws/Ops.lean ====
section
/-! SUPPORT. What the shared operations come to, said once: retiring, passing, jumping, taking a trap, a guarded form, a
register form, a step that runs a decoded instruction. A statement about an instruction cites these and does not unfold
them. -/

namespace Sys2Proof.Claims

open Sys2Proof.Machine

/-! ## Retiring -/

theorem done_eq (s : State) (len cost : Nat) :
    ({ s.charge cost with thr := (s.charge cost).thr.goOn (s.thr.after len).1 (s.thr.after len).2 } : State)
      = done s len cost := by
  unfold done Thread.after
  cases s.thr.rep with
  | none => rfl
  | some r => by_cases h : r.i < r.last <;> simp only [h, if_true, if_false] <;> rfl

theorem stepped_plain (s : State) (old : DWord) (h : plain s) : s.stepped old = s := by
  have hp : (s.thr.csr.dbgctl == 1) = false := by simpa [plain] using h
  unfold State.stepped; rw [hp]; rfl

theorem retire_done (s : State) (len cost : Nat) (h : plain s) : s.retire len cost = done s len cost := by
  unfold State.retire State.retireTo
  rw [stepped_plain]
  · exact done_eq s len cost
  · exact h

theorem pass_done (s : State) (len : Nat) : s.pass len = done s len 1 := done_eq s len 1

theorem retireTo_jumped (s : State) (pc : DWord) (h : plain s) : s.retireTo 1 pc none = jumped s pc := by
  unfold State.retireTo
  rw [stepped_plain]
  · rfl
  · exact h

theorem guarded_on (g : BitVec 4) (len : Nat) (s : State) (f : State → State) (h : s.thr.enabled g = true) :
    guarded g len s f = .next (f s) := by
  unfold guarded; rw [h]; rfl

theorem guarded_off (g : BitVec 4) (len : Nat) (s : State) (f : State → State) (h : s.thr.enabled g = false) :
    guarded g len s f = .next (done s len 1) := by
  unfold guarded; rw [h]; simp only [Bool.false_eq_true, if_false, pass_done]

/-- A form that writes only registers of its thread, and not DBGCTL, retires with them written. -/
theorem regForm_done (g : BitVec 4) (cost : Nat) (s : State) (f : Thread → Thread) (h : on s g)
    (hf : (f s.thr).csr.dbgctl = s.thr.csr.dbgctl) :
    regForm g cost s f = .next (done (withThr s (f s.thr)) 4 cost) := by
  unfold regForm
  rw [guarded_on _ _ _ _ h.1, retire_done]
  · rfl
  · show (f s.thr).csr.dbgctl ≠ 1
    rw [hf]; exact h.2

/-- The same for a form without a guard. -/
theorem vecForm_done (cost : Nat) (s : State) (f : Thread → Thread) (h : plain s)
    (hf : (f s.thr).csr.dbgctl = s.thr.csr.dbgctl) :
    vecForm cost s f = .next (done (withThr s (f s.thr)) 4 cost) := by
  unfold vecForm
  rw [retire_done]
  · rfl
  · show (f s.thr).csr.dbgctl ≠ 1
    rw [hf]; exact h

/-! ## Traps -/

theorem repst_eq (r : Option Rep) : repstOf r = repstAt r := by
  cases r with
  | none => rfl
  | some r =>
    have key : ∀ a b : Fin 64, BitVec.ofNat 32 (2 ^ 31 + a.val * 256 + b.val)
        = 0x80000000#32 ||| (BitVec.ofNat 32 a.val <<< 8) ||| BitVec.ofNat 32 b.val := by decide
    exact key ⟨(r.last - r.i) % 64, Nat.mod_lt _ (by decide)⟩ ⟨r.i % 64, Nat.mod_lt _ (by decide)⟩

/-- A trap of a thread with a handler enters it. -/
theorem trapWith_entered (s : State) (cause : Nat) (d epc : DWord) (r : Word) (h : s.thr.tvec ≠ 0) (hc : cause < 256) :
    s.trapWith cause d epc r true = entered s 0 cause d epc r := by
  have hb : (s.thr.tvec != 0) = true := by simpa using h
  have hm : cause % 256 = cause := Nat.mod_eq_of_lt hc
  unfold State.trapWith Thread.takeTrap
  simp only [hb, Bool.true_and, if_true]
  unfold entered Csrs.trapped
  simp only [hm]
  rfl

theorem trapCost_entered (s : State) (cost cause : Nat) (d : DWord) (h : s.thr.tvec ≠ 0) (hc : cause < 256) :
    s.trapCost cost cause d = entered s cost cause d s.thr.pc (repstAt s.thr.rep) := by
  unfold State.trapCost
  rw [trapWith_entered (s.charge cost) _ _ _ _ h hc, repst_eq]
  rfl

theorem trap_entered (s : State) (cause : Nat) (d : DWord) (h : s.thr.tvec ≠ 0) (hc : cause < 256) :
    s.trap cause d = entered s 1 cause d s.thr.pc (repstAt s.thr.rep) := trapCost_entered s 1 cause d h hc

/-! ## CSRs -/

theorem csrRead_own (s : State) (r : CsrRow) (hr : r ∈ ownCsrs) : s.csrRead r.n.toNat = r.get s.thr.csr := by
  revert r
  rw [ownCsrs]
  simp only [List.forall_mem_cons]
  and_intros <;> first | rfl | exact List.forall_mem_nil _

theorem csrWrite_own (s : State) (r : CsrRow) (v : Word) (hr : r ∈ ownCsrs) :
    s.csrWrite r.n.toNat v = withThr s (setCsr s.thr r v) := by
  have hm : storeFmode v = if 6 ≤ v.toNat % 8 then v &&& 0x8 else v &&& 0xF := by
    unfold storeFmode bitsOf; simp
  revert r
  rw [ownCsrs]
  simp only [List.forall_mem_cons]
  and_intros <;> first | rfl | exact List.forall_mem_nil _ | (unfold setCsr; simp only [← hm]; rfl)

theorem csrRead_ro (s : State) (r : BitVec 12 × (State → Word)) (hr : r ∈ roCsrs) : s.csrRead r.1.toNat = r.2 s := by
  have h1 : loWord s.thr.sigHL = s.thr.sigHL.setWidth 32 := by
    unfold loWord; apply BitVec.eq_of_toNat_eq; simp
  have h2 : hiWord s.thr.sigHL = (s.thr.sigHL >>> 32).setWidth 32 := by
    unfold hiWord; apply BitVec.eq_of_toNat_eq; simp
  revert r
  rw [roCsrs]
  simp only [List.forall_mem_cons]
  and_intros <;> first
    | rfl
    | exact List.forall_mem_nil _
    | exact h1
    | exact h2
    | (simp only [State.csrRead]; simp [Vector.getD])

theorem csrWrite_ro (s : State) (r : BitVec 12 × (State → Word)) (v : Word) (hr : r ∈ roCsrs) :
    s.csrWrite r.1.toNat v = s := by
  revert r
  rw [roCsrs]
  simp only [List.forall_mem_cons]
  and_intros <;> first | rfl | exact List.forall_mem_nil _

/-- A CSR form but on L1CFG and DBGCTL, of a thread that is not single-stepped: the write, then the retirement. -/
theorem csrForm_on (g : BitVec 4) (d : Option (BitVec 4)) (n : Nat) (s : State) (f : Word → Word) (h : on s g)
    (h8 : n ≠ 0x080) (h7 : n ≠ 0x070) :
    csrForm g d n s f = .next (((match d with
      | some d => withThr s (s.thr.ws d (s.csrRead n))
      | none => s).csrWrite n (f (s.csrRead n))).retire 4 1) := by
  unfold csrForm State.csrRetire
  rw [guarded_on _ _ _ _ h.1]
  cases d <;> simp [h8, h7, withThr]

/-! ## A step -/

theorem fetchWord_held (s : State) (a : Nat) (w : Word) (h : s.word? a = some w) : s.fetchWord a = .ok w := by
  unfold State.fetchWord; rw [h]

theorem endFetch_run (s : State) (h : s.thr.phase = .run) : s.endFetch = s := by unfold State.endFetch; rw [h]

/-- What a step comes to when the focused thread's turn is not over. -/
theorem step_issue (s : State) (ha : s.agenda = []) (hc : s.canIssue = true) (hp : s.thr.phase = .run)
    (ht : s.turnOver = false) (he : s.pendingErrs = []) :
    step s = match s.countIssue.ready with
      | .done t => .next t
      | .run i t => exec i t := by
  have h1 : s.countIssue.canIssue = true := hc
  have h2 : s.countIssue.errorDue = false := by
    have : s.countIssue.pendingErrs = [] := he
    simp [State.errorDue, this]
  have hq : ((Phase.run : Phase) == Phase.run) = true := by decide
  unfold step
  rw [ha]
  simp only []
  unfold State.autoStep State.issueStep
  simp only [hc, hp, ht, h1, h2, hq, Bool.not_true, if_true, Bool.false_eq_true, if_false]
  all_goals rfl

/-- A read by the host changes nothing but what the module has sent (R4). -/
theorem State.hostReads_frame (s : State) (fn : Nat) (config : Bool) (a : Nat) :
    ∃ o, s.hostReads fn config a = { s with out := o } := by
  unfold State.hostReads
  split
  · exact ⟨s.out, rfl⟩
  · exact ⟨_, rfl⟩

theorem decoded_run (s : State) (w0 w1 : Word) (i : Instr) (h : decodeWords w0.toNat w1.toNat = .ok i)
    (h1 : shapeCheck s.thr.vregs s.thr.prv s.thr.lperm i = none) (h2 : s.thr.poisonRead w0.toNat i = none) :
    s.decoded w0 w1 = .run i s := by
  unfold State.decoded; simp only [h, h1, h2]

/-- A running thread outside a repeat issues the words held for its pc. -/
theorem ready_held (s : State) (w0 w1 : Word) (hp : s.thr.phase = .run) (hr : s.thr.rep = none)
    (hw : s.word? s.thr.pc.toNat = some w0)
    (h1 : if twoWord w0.toNat then s.word? (s.thr.pc + 4).toNat = some w1 else w1 = 0) :
    s.ready = s.decoded w0 w1 := by
  unfold State.ready
  rw [hr]
  simp only [fetchWord_held _ _ _ hw]
  split
  · rename_i ht
    rw [if_pos ht] at h1
    rw [fetchWord_held _ _ _ h1]
    simp only [endFetch_run s hp]
  · rename_i ht
    rw [if_neg ht] at h1
    subst h1
    rw [endFetch_run s hp]
    split <;> rfl

/-- The words of a repeat's target that are held. -/
theorem targetWords_held (s : State) (p : DWord) (w0 w1 : Word) (hw : s.word? (p + 4).toNat = some w0)
    (h1 : if twoWord w0.toNat then s.word? (p + 8).toNat = some w1 else w1 = 0) :
    s.targetWords p = .ok w0 w1 := by
  unfold State.targetWords
  rw [fetchWord_held _ _ _ hw]
  simp only []
  split
  · rename_i ht
    rw [if_pos ht] at h1
    rw [fetchWord_held _ _ _ h1]
  · rename_i ht
    rw [if_neg ht] at h1
    subst h1; rfl

end Sys2Proof.Claims
end

