-- ==== Sys2Proof/Laws/PerInstr.lean ====
section
/-! SUPPORT. The lemmas per instruction: an encoded instruction that passes the checks of its own fields is read back from the
bytes of its words, whole and with its length (R45, R55, R56). An event has no words. The fields of each shape of word are
read back once, in the `shape` lemmas. -/

namespace Sys2Proof.Laws

/-- What the family says of one instruction. -/
def roundTrip.Statement (i : Instr) : Prop :=
  formCheck i = none → encode i ≠ [] →
    decodeBytes ((encode i).flatMap bytesOfWord) = .ok (i, 4 * (encode i).length)

theorem bf_eq {w lo n : Nat} {x : BitVec n} (h : fld w lo n = x.toNat) : bf w lo n = x := by
  unfold bf; rw [h]; simp

/-- The four bytes of a word give the word. -/
theorem wordOfBytes_bytesOfWord {w : Nat} (h : w < 4294967296) :
    wordOfBytes (.ofNat 8 w) (.ofNat 8 (w / 256)) (.ofNat 8 (w / 65536)) (.ofNat 8 (w / 16777216)) = w := by
  simp only [wordOfBytes, BitVec.toNat_ofNat]; omega

theorem decodeWords_ok {w v : Nat} {i : Instr} (hr : decodeRaw w v = .ok i) (hf : formCheck i = none) :
    decodeWords w v = .ok i := by
  unfold decodeWords; rw [hr]; dsimp only; rw [hf]

theorem twoWord_of {w m : Nat} (h : fld w 26 6 = m) (hm : ((0x10 ≤ m && m ≤ 0x13) || m == 0x36) = b) : twoWord w = b := by
  unfold twoWord; rw [h]; exact hm

theorem decodeBytes_short {b0 b1 b2 b3 : BitVec 8} (h : twoWord (wordOfBytes b0 b1 b2 b3) = false) :
    decodeBytes [b0, b1, b2, b3] = (decodeWords (wordOfBytes b0 b1 b2 b3) 0).map (·, 4) := by
  simp only [decodeBytes, h, Bool.false_eq_true, if_false]

theorem decodeBytes_long {b0 b1 b2 b3 c0 c1 c2 c3 : BitVec 8} (h : twoWord (wordOfBytes b0 b1 b2 b3) = true) :
    decodeBytes [b0, b1, b2, b3, c0, c1, c2, c3] =
      (decodeWords (wordOfBytes b0 b1 b2 b3) (wordOfBytes c0 c1 c2 c3)).map (·, 8) := by
  simp only [decodeBytes, h, if_true]

theorem roundTrip.of_one {i : Instr} {w : Nat} (he : encode i = [w])
    (h : ∀ v, v = w → v < 4294967296 ∧ (∃ m, fld v 26 6 = m ∧ ((0x10 ≤ m && m ≤ 0x13) || m == 0x36) = false) ∧
      decodeRaw v 0 = .ok i) : roundTrip.Statement i := by
  intro hf _
  obtain ⟨hw, ⟨m, h0, hm⟩, hr⟩ := h w rfl
  have h := wordOfBytes_bytesOfWord hw
  have e : decodeBytes ([w].flatMap bytesOfWord) = (decodeWords w 0).map (·, 4) := by
    rw [List.flatMap_cons, List.flatMap_nil, List.append_nil, bytesOfWord]
    rw [decodeBytes_short (by rw [h]; exact twoWord_of h0 hm), h]
  rw [he, e, decodeWords_ok hr hf, Except.map]; rfl

theorem roundTrip.of_two {i : Instr} {w x : Nat} (he : encode i = [w, x])
    (h : ∀ v u, v = w → u = x → v < 4294967296 ∧ u < 4294967296 ∧
      (∃ m, fld v 26 6 = m ∧ ((0x10 ≤ m && m ≤ 0x13) || m == 0x36) = true) ∧ decodeRaw v u = .ok i) :
    roundTrip.Statement i := by
  intro hf _
  obtain ⟨hw, hv, ⟨m, h0, hm⟩, hr⟩ := h w x rfl rfl
  have h := wordOfBytes_bytesOfWord hw
  have k := wordOfBytes_bytesOfWord hv
  have e : decodeBytes ([w, x].flatMap bytesOfWord) = (decodeWords w x).map (·, 8) := by
    rw [List.flatMap_cons, List.flatMap_cons, List.flatMap_nil, List.append_nil, bytesOfWord, bytesOfWord]
    rw [List.cons_append, List.cons_append, List.cons_append, List.cons_append, List.nil_append]
    rw [decodeBytes_long (by rw [h]; exact twoWord_of h0 hm), h, k]
  rw [he, e, decodeWords_ok hr hf, Except.map]; rfl

theorem rawSys {w w1 : Nat} (h : fld w 26 6 = 0) : decodeRaw w w1 = decodeSys w := by
  unfold decodeRaw; rw [h]; rfl

theorem rawAlu {w w1 : Nat} (h : fld w 26 6 = 1) : decodeRaw w w1 = decodeAlu w := by
  unfold decodeRaw; rw [h]; rfl

theorem rawAddi {w w1 : Nat} (h : fld w 26 6 = 2) : decodeRaw w w1 = decodeAddi w := by
  unfold decodeRaw; rw [h]; rfl

theorem rawAndi {w w1 : Nat} (h : fld w 26 6 = 3) : decodeRaw w w1 = decodeAndi w := by
  unfold decodeRaw; rw [h]; rfl

theorem rawOri {w w1 : Nat} (h : fld w 26 6 = 4) : decodeRaw w w1 = decodeOri w := by
  unfold decodeRaw; rw [h]; rfl

theorem rawXori {w w1 : Nat} (h : fld w 26 6 = 5) : decodeRaw w w1 = decodeXori w := by
  unfold decodeRaw; rw [h]; rfl

theorem rawShi {w w1 : Nat} (h : fld w 26 6 = 6) : decodeRaw w w1 = decodeShi w := by
  unfold decodeRaw; rw [h]; rfl

theorem rawLih {w w1 : Nat} (h : fld w 26 6 = 7) : decodeRaw w w1 = decodeLih w := by
  unfold decodeRaw; rw [h]; rfl

theorem rawCmp {w w1 : Nat} (h : fld w 26 6 = 8) : decodeRaw w w1 = decodeCmp w := by
  unfold decodeRaw; rw [h]; rfl

theorem rawCmpi {w w1 : Nat} (h : fld w 26 6 = 9) : decodeRaw w w1 = decodeCmpi w := by
  unfold decodeRaw; rw [h]; rfl

theorem rawPrd {w w1 : Nat} (h : fld w 26 6 = 10) : decodeRaw w w1 = decodePrd w := by
  unfold decodeRaw; rw [h]; rfl

theorem rawBr {w w1 : Nat} (h : fld w 26 6 = 11) : decodeRaw w w1 = decodeBr w := by
  unfold decodeRaw; rw [h]; rfl

theorem rawBrl {w w1 : Nat} (h : fld w 26 6 = 12) : decodeRaw w w1 = decodeBrl w := by
  unfold decodeRaw; rw [h]; rfl

theorem rawJr {w w1 : Nat} (h : fld w 26 6 = 13) : decodeRaw w w1 = decodeJr w := by
  unfold decodeRaw; rw [h]; rfl

theorem rawPair {w w1 : Nat} (h : fld w 26 6 = 14) : decodeRaw w w1 = decodePair w := by
  unfold decodeRaw; rw [h]; rfl

theorem rawRep {w w1 : Nat} (h : fld w 26 6 = 15) : decodeRaw w w1 = decodeRep w := by
  unfold decodeRaw; rw [h]; rfl

theorem rawLd {w w1 : Nat} (h : fld w 26 6 = 16) : decodeRaw w w1 = decodeLd w w1 := by
  unfold decodeRaw; rw [h]; rfl

theorem rawSt {w w1 : Nat} (h : fld w 26 6 = 17) : decodeRaw w w1 = decodeSt w w1 := by
  unfold decodeRaw; rw [h]; rfl

theorem rawAtom {w w1 : Nat} (h : fld w 26 6 = 18) : decodeRaw w w1 = decodeAtom w w1 := by
  unfold decodeRaw; rw [h]; rfl

theorem rawLdt {w w1 : Nat} (h : fld w 26 6 = 19) : decodeRaw w w1 = decodeLdt w w1 := by
  unfold decodeRaw; rw [h]; rfl

theorem rawTkt {w w1 : Nat} (h : fld w 26 6 = 20) : decodeRaw w w1 = decodeTkt w := by
  unfold decodeRaw; rw [h]; rfl

theorem rawOrd {w w1 : Nat} (h : fld w 26 6 = 21) : decodeRaw w w1 = decodeOrd w := by
  unfold decodeRaw; rw [h]; rfl

theorem rawMsg {w w1 : Nat} (h : fld w 26 6 = 22) : decodeRaw w w1 = decodeMsg w := by
  unfold decodeRaw; rw [h]; rfl

theorem rawGrp {w w1 : Nat} (h : fld w 26 6 = 23) : decodeRaw w w1 = decodeGrp w := by
  unfold decodeRaw; rw [h]; rfl

theorem rawEnq {w w1 : Nat} (h : fld w 26 6 = 24) : decodeRaw w w1 = decodeEnq w := by
  unfold decodeRaw; rw [h]; rfl

theorem rawCsr {w w1 : Nat} (h : fld w 26 6 = 25) : decodeRaw w w1 = decodeCsr w := by
  unfold decodeRaw; rw [h]; rfl

theorem rawTj {w w1 : Nat} (h : fld w 26 6 = 26) : decodeRaw w w1 = decodeTj w := by
  unfold decodeRaw; rw [h]; rfl

theorem rawAx {w w1 : Nat} (h : fld w 26 6 = 27) : decodeRaw w w1 = decodeAx w := by
  unfold decodeRaw; rw [h]; rfl

theorem rawMig {w w1 : Nat} (h : fld w 26 6 = 28) : decodeRaw w w1 = decodeMig w := by
  unfold decodeRaw; rw [h]; rfl

theorem rawPaddi {w w1 : Nat} (h : fld w 26 6 = 29) : decodeRaw w w1 = decodePaddi w := by
  unfold decodeRaw; rw [h]; rfl

theorem rawQue {w w1 : Nat} (h : fld w 26 6 = 30) : decodeRaw w w1 = decodeQue w := by
  unfold decodeRaw; rw [h]; rfl

theorem rawVa1 {w w1 : Nat} (h : fld w 26 6 = 32) : decodeRaw w w1 = decodeVa1 w := by
  unfold decodeRaw; rw [h]; rfl

theorem rawVa2 {w w1 : Nat} (h : fld w 26 6 = 33) : decodeRaw w w1 = decodeVa2 w := by
  unfold decodeRaw; rw [h]; rfl

theorem rawVa3 {w w1 : Nat} (h : fld w 26 6 = 34) : decodeRaw w w1 = decodeVa3 w := by
  unfold decodeRaw; rw [h]; rfl

theorem rawVlog {w w1 : Nat} (h : fld w 26 6 = 35) : decodeRaw w w1 = decodeVlog w := by
  unfold decodeRaw; rw [h]; rfl

theorem rawVsh {w w1 : Nat} (h : fld w 26 6 = 36) : decodeRaw w w1 = decodeVsh w := by
  unfold decodeRaw; rw [h]; rfl

theorem rawVcmp {w w1 : Nat} (h : fld w 26 6 = 37) : decodeRaw w w1 = decodeVcmp w := by
  unfold decodeRaw; rw [h]; rfl

theorem rawVcmp2 {w w1 : Nat} (h : fld w 26 6 = 38) : decodeRaw w w1 = decodeVcmp2 w := by
  unfold decodeRaw; rw [h]; rfl

theorem rawVwid {w w1 : Nat} (h : fld w 26 6 = 39) : decodeRaw w w1 = decodeVwid w := by
  unfold decodeRaw; rw [h]; rfl

theorem rawVred {w w1 : Nat} (h : fld w 26 6 = 40) : decodeRaw w w1 = decodeVred w := by
  unfold decodeRaw; rw [h]; rfl

theorem rawVprm {w w1 : Nat} (h : fld w 26 6 = 41) : decodeRaw w w1 = decodeVprm w := by
  unfold decodeRaw; rw [h]; rfl

theorem rawVprm2 {w w1 : Nat} (h : fld w 26 6 = 42) : decodeRaw w w1 = decodeVprm2 w := by
  unfold decodeRaw; rw [h]; rfl

theorem rawVcvt {w w1 : Nat} (h : fld w 26 6 = 43) : decodeRaw w w1 = decodeVcvt w := by
  unfold decodeRaw; rw [h]; rfl

theorem rawVq {w w1 : Nat} (h : fld w 26 6 = 44) : decodeRaw w w1 = decodeVq w := by
  unfold decodeRaw; rw [h]; rfl

theorem rawVsf1 {w w1 : Nat} (h : fld w 26 6 = 45) : decodeRaw w w1 = decodeVsf1 w := by
  unfold decodeRaw; rw [h]; rfl

theorem rawVsf2 {w w1 : Nat} (h : fld w 26 6 = 46) : decodeRaw w w1 = decodeVsf2 w := by
  unfold decodeRaw; rw [h]; rfl

theorem rawVrg {w w1 : Nat} (h : fld w 26 6 = 47) : decodeRaw w w1 = decodeVrg w := by
  unfold decodeRaw; rw [h]; rfl

theorem rawVmv {w w1 : Nat} (h : fld w 26 6 = 48) : decodeRaw w w1 = decodeVmv w := by
  unfold decodeRaw; rw [h]; rfl

theorem rawVim1 {w w1 : Nat} (h : fld w 26 6 = 49) : decodeRaw w w1 = decodeVim1 w := by
  unfold decodeRaw; rw [h]; rfl

theorem rawVim2 {w w1 : Nat} (h : fld w 26 6 = 50) : decodeRaw w w1 = decodeVim2 w := by
  unfold decodeRaw; rw [h]; rfl

theorem rawVim3 {w w1 : Nat} (h : fld w 26 6 = 51) : decodeRaw w w1 = decodeVim3 w := by
  unfold decodeRaw; rw [h]; rfl

theorem rawVmsk {w w1 : Nat} (h : fld w 26 6 = 52) : decodeRaw w w1 = decodeVmsk w := by
  unfold decodeRaw; rw [h]; rfl

theorem rawVdot {w w1 : Nat} (h : fld w 26 6 = 53) : decodeRaw w w1 = decodeVdot w := by
  unfold decodeRaw; rw [h]; rfl

theorem rawVmem {w w1 : Nat} (h : fld w 26 6 = 54) : decodeRaw w w1 = decodeVmem w w1 := by
  unfold decodeRaw; rw [h]; rfl

theorem shape0 (m0 : Nat) (m1 : Nat) (x0 : BitVec 4) (h0 : m0 < 64) (h1 : m1 < 64) (w : Nat)
    (hw : w = m0 * 67108864 + m1 * 256 + x0.toNat * 4194304) :
    w < 4294967296 ∧ fld w 26 6 = m0 ∧ fld w 8 6 = m1 ∧ fld w 0 8 = 0 ∧ fld w 14 8 = 0 ∧ fld w 22 4 = x0.toNat := by
  have := x0.isLt
  simp only [fld]; subst hw
  refine ⟨?_, ?_, ?_, ?_, ?_, ?_⟩ <;> omega

theorem shape1 (m0 : Nat) (m1 : Nat) (x0 : BitVec 4) (x1 : BitVec 8) (h0 : m0 < 64) (h1 : m1 < 64) (w : Nat)
    (hw : w = m0 * 67108864 + m1 * 256 + x0.toNat * 4194304 + x1.toNat * 1) :
    w < 4294967296 ∧ fld w 26 6 = m0 ∧ fld w 8 6 = m1 ∧ fld w 14 8 = 0 ∧ fld w 22 4 = x0.toNat ∧ fld w 0 8 =
    x1.toNat := by
  have := x0.isLt; have := x1.isLt
  simp only [fld]; subst hw
  refine ⟨?_, ?_, ?_, ?_, ?_, ?_⟩ <;> omega

theorem shape2 (m0 : Nat) (m1 : Nat) (x0 : BitVec 4) (x1 : BitVec 4) (x2 : BitVec 1) (h0 : m0 < 64) (h1 : m1 < 64) (w : Nat)
    (hw : w = m0 * 67108864 + m1 * 256 + x0.toNat * 4194304 + x1.toNat * 262144 + x2.toNat * 1) :
    w < 4294967296 ∧ fld w 26 6 = m0 ∧ fld w 8 6 = m1 ∧ fld w 1 7 = 0 ∧ fld w 14 4 = 0 ∧ fld w 22 4 = x0.toNat
    ∧ fld w 18 4 = x1.toNat ∧ fld w 0 1 = x2.toNat := by
  have := x0.isLt; have := x1.isLt; have := x2.isLt
  simp only [fld]; subst hw
  refine ⟨?_, ?_, ?_, ?_, ?_, ?_, ?_, ?_⟩ <;> omega

theorem shape3 (m0 : Nat) (m1 : Nat) (x0 : BitVec 4) (x1 : BitVec 4) (x2 : BitVec 4) (x3 : BitVec 2) (h0 : m0 < 64) (h1 : m1 < 64) (w : Nat)
    (hw : w = m0 * 67108864 + m1 * 256 + x0.toNat * 4194304 + x1.toNat * 262144 + x2.toNat * 16384 + x3.toNat * 1) :
    w < 4294967296 ∧ fld w 26 6 = m0 ∧ fld w 8 6 = m1 ∧ fld w 2 6 = 0 ∧ fld w 22 4 = x0.toNat ∧ fld w 18 4 =
    x1.toNat ∧ fld w 14 4 = x2.toNat ∧ fld w 0 2 = x3.toNat := by
  have := x0.isLt; have := x1.isLt; have := x2.isLt; have := x3.isLt
  simp only [fld]; subst hw
  refine ⟨?_, ?_, ?_, ?_, ?_, ?_, ?_, ?_⟩ <;> omega

theorem shape4 (m0 : Nat) (m1 : Nat) (x0 : BitVec 4) (x1 : BitVec 4) (x2 : BitVec 4) (x3 : BitVec 4) (h0 : m0 < 64) (h1 : m1 < 1024) (w : Nat)
    (hw : w = m0 * 67108864 + m1 * 1 + x0.toNat * 4194304 + x1.toNat * 262144 + x2.toNat * 16384 + x3.toNat * 1024) :
    w < 4294967296 ∧ fld w 26 6 = m0 ∧ fld w 0 10 = m1 ∧ fld w 22 4 = x0.toNat ∧ fld w 18 4 = x1.toNat ∧ fld w
    14 4 = x2.toNat ∧ fld w 10 4 = x3.toNat := by
  have := x0.isLt; have := x1.isLt; have := x2.isLt; have := x3.isLt
  simp only [fld]; subst hw
  refine ⟨?_, ?_, ?_, ?_, ?_, ?_, ?_⟩ <;> omega

theorem shape5 (m0 : Nat) (m1 : Nat) (x0 : BitVec 4) (x1 : BitVec 4) (x2 : BitVec 4) (h0 : m0 < 64) (h1 : m1 < 1024) (w : Nat)
    (hw : w = m0 * 67108864 + m1 * 1 + x0.toNat * 4194304 + x1.toNat * 262144 + x2.toNat * 16384) :
    w < 4294967296 ∧ fld w 26 6 = m0 ∧ fld w 0 10 = m1 ∧ fld w 10 4 = 0 ∧ fld w 22 4 = x0.toNat ∧ fld w 18 4 =
    x1.toNat ∧ fld w 14 4 = x2.toNat := by
  have := x0.isLt; have := x1.isLt; have := x2.isLt
  simp only [fld]; subst hw
  refine ⟨?_, ?_, ?_, ?_, ?_, ?_, ?_⟩ <;> omega

theorem shape6 (m0 : Nat) (x0 : BitVec 4) (x1 : BitVec 4) (x2 : BitVec 4) (x3 : BitVec 14) (h0 : m0 < 64) (w : Nat)
    (hw : w = m0 * 67108864 + x0.toNat * 4194304 + x1.toNat * 262144 + x2.toNat * 16384 + x3.toNat * 1) :
    w < 4294967296 ∧ fld w 26 6 = m0 ∧ fld w 22 4 = x0.toNat ∧ fld w 18 4 = x1.toNat ∧ fld w 14 4 = x2.toNat ∧
    fld w 0 14 = x3.toNat := by
  have := x0.isLt; have := x1.isLt; have := x2.isLt; have := x3.isLt
  simp only [fld]; subst hw
  refine ⟨?_, ?_, ?_, ?_, ?_, ?_⟩ <;> omega

theorem shape7 (m0 : Nat) (m1 : Nat) (x0 : BitVec 4) (x1 : BitVec 4) (x2 : BitVec 4) (x3 : BitVec 5) (h0 : m0 < 64) (h1 : m1 < 512) (w : Nat)
    (hw : w = m0 * 67108864 + m1 * 32 + x0.toNat * 4194304 + x1.toNat * 262144 + x2.toNat * 16384 + x3.toNat * 1) :
    w < 4294967296 ∧ fld w 26 6 = m0 ∧ fld w 5 9 = m1 ∧ fld w 22 4 = x0.toNat ∧ fld w 18 4 = x1.toNat ∧ fld w
    14 4 = x2.toNat ∧ fld w 0 5 = x3.toNat := by
  have := x0.isLt; have := x1.isLt; have := x2.isLt; have := x3.isLt
  simp only [fld]; subst hw
  refine ⟨?_, ?_, ?_, ?_, ?_, ?_, ?_⟩ <;> omega

theorem shape8 (m0 : Nat) (x0 : BitVec 4) (x1 : BitVec 4) (x2 : BitVec 18) (h0 : m0 < 64) (w : Nat)
    (hw : w = m0 * 67108864 + x0.toNat * 4194304 + x1.toNat * 262144 + x2.toNat * 1) :
    w < 4294967296 ∧ fld w 26 6 = m0 ∧ fld w 22 4 = x0.toNat ∧ fld w 18 4 = x1.toNat ∧ fld w 0 18 = x2.toNat := by
  have := x0.isLt; have := x1.isLt; have := x2.isLt
  simp only [fld]; subst hw
  refine ⟨?_, ?_, ?_, ?_, ?_⟩ <;> omega

theorem shape9 (m0 : Nat) (x0 : BitVec 4) (x1 : BitVec 3) (x2 : BitVec 1) (x3 : BitVec 4) (x4 : BitVec 4) (x5 : BitVec 4) (h0 : m0 < 64) (w : Nat)
    (hw : w = m0 * 67108864 + x0.toNat * 4194304 + x1.toNat * 524288 + x2.toNat * 262144 + x3.toNat * 16384 + x4.toNat * 1024 + x5.toNat * 64) :
    w < 4294967296 ∧ fld w 26 6 = m0 ∧ fld w 0 6 = 0 ∧ fld w 22 4 = x0.toNat ∧ fld w 19 3 = x1.toNat ∧ fld w
    18 1 = x2.toNat ∧ fld w 14 4 = x3.toNat ∧ fld w 10 4 = x4.toNat ∧ fld w 6 4 = x5.toNat := by
  have := x0.isLt; have := x1.isLt; have := x2.isLt; have := x3.isLt; have := x4.isLt; have := x5.isLt
  simp only [fld]; subst hw
  refine ⟨?_, ?_, ?_, ?_, ?_, ?_, ?_, ?_, ?_⟩ <;> omega

theorem shape10 (m0 : Nat) (x0 : BitVec 4) (x1 : BitVec 3) (x2 : BitVec 1) (x3 : BitVec 4) (x4 : BitVec 10) (x5 : BitVec 4) (h0 : m0 < 64) (w : Nat)
    (hw : w = m0 * 67108864 + x0.toNat * 4194304 + x1.toNat * 524288 + x2.toNat * 262144 + x3.toNat * 16384 + x4.toNat * 16 + x5.toNat * 1) :
    w < 4294967296 ∧ fld w 26 6 = m0 ∧ fld w 22 4 = x0.toNat ∧ fld w 19 3 = x1.toNat ∧ fld w 18 1 = x2.toNat ∧
    fld w 14 4 = x3.toNat ∧ fld w 4 10 = x4.toNat ∧ fld w 0 4 = x5.toNat := by
  have := x0.isLt; have := x1.isLt; have := x2.isLt; have := x3.isLt; have := x4.isLt; have := x5.isLt
  simp only [fld]; subst hw
  refine ⟨?_, ?_, ?_, ?_, ?_, ?_, ?_, ?_⟩ <;> omega

theorem shape11 (m0 : Nat) (m1 : Nat) (x0 : BitVec 4) (x1 : BitVec 3) (x2 : BitVec 3) (x3 : BitVec 3) (h0 : m0 < 64) (h1 : m1 < 512) (w : Nat)
    (hw : w = m0 * 67108864 + m1 * 1 + x0.toNat * 4194304 + x1.toNat * 524288 + x2.toNat * 65536 + x3.toNat * 8192) :
    w < 4294967296 ∧ fld w 26 6 = m0 ∧ fld w 0 9 = m1 ∧ fld w 9 4 = 0 ∧ fld w 22 4 = x0.toNat ∧ fld w 19 3 =
    x1.toNat ∧ fld w 16 3 = x2.toNat ∧ fld w 13 3 = x3.toNat := by
  have := x0.isLt; have := x1.isLt; have := x2.isLt; have := x3.isLt
  simp only [fld]; subst hw
  refine ⟨?_, ?_, ?_, ?_, ?_, ?_, ?_, ?_⟩ <;> omega

theorem shape12 (m0 : Nat) (m1 : Nat) (x0 : BitVec 4) (x1 : BitVec 4) (h0 : m0 < 64) (h1 : m1 < 512) (w : Nat)
    (hw : w = m0 * 67108864 + m1 * 1 + x0.toNat * 4194304 + x1.toNat * 512) :
    w < 4294967296 ∧ fld w 26 6 = m0 ∧ fld w 0 9 = m1 ∧ fld w 13 9 = 0 ∧ fld w 22 4 = x0.toNat ∧ fld w 9 4 =
    x1.toNat := by
  have := x0.isLt; have := x1.isLt
  simp only [fld]; subst hw
  refine ⟨?_, ?_, ?_, ?_, ?_, ?_⟩ <;> omega

theorem shape13 (m0 : Nat) (x0 : BitVec 4) (x1 : BitVec 22) (h0 : m0 < 64) (w : Nat)
    (hw : w = m0 * 67108864 + x0.toNat * 4194304 + x1.toNat * 1) :
    w < 4294967296 ∧ fld w 26 6 = m0 ∧ fld w 22 4 = x0.toNat ∧ fld w 0 22 = x1.toNat := by
  have := x0.isLt; have := x1.isLt
  simp only [fld]; subst hw
  refine ⟨?_, ?_, ?_, ?_⟩ <;> omega

theorem shape14 (m0 : Nat) (m1 : Nat) (x0 : BitVec 4) (x1 : BitVec 4) (h0 : m0 < 64) (h1 : m1 < 1024) (w : Nat)
    (hw : w = m0 * 67108864 + m1 * 1 + x0.toNat * 4194304 + x1.toNat * 16384) :
    w < 4294967296 ∧ fld w 26 6 = m0 ∧ fld w 0 10 = m1 ∧ fld w 10 4 = 0 ∧ fld w 18 4 = 0 ∧ fld w 22 4 =
    x0.toNat ∧ fld w 14 4 = x1.toNat := by
  have := x0.isLt; have := x1.isLt
  simp only [fld]; subst hw
  refine ⟨?_, ?_, ?_, ?_, ?_, ?_, ?_⟩ <;> omega

theorem shape15 (m0 : Nat) (m1 : Nat) (x0 : BitVec 4) (x1 : BitVec 3) (x2 : BitVec 3) (x3 : BitVec 3) (h0 : m0 < 64) (h1 : m1 < 16) (w : Nat)
    (hw : w = m0 * 67108864 + m1 * 1 + x0.toNat * 4194304 + x1.toNat * 262144 + x2.toNat * 16384 + x3.toNat * 1024) :
    w < 4294967296 ∧ fld w 26 6 = m0 ∧ fld w 0 4 = m1 ∧ fld w 4 6 = 0 ∧ fld w 13 1 = 0 ∧ fld w 17 1 = 0 ∧ fld
    w 21 1 = 0 ∧ fld w 22 4 = x0.toNat ∧ fld w 18 3 = x1.toNat ∧ fld w 14 3 = x2.toNat ∧ fld w 10 3 = x3.toNat := by
  have := x0.isLt; have := x1.isLt; have := x2.isLt; have := x3.isLt
  simp only [fld]; subst hw
  refine ⟨?_, ?_, ?_, ?_, ?_, ?_, ?_, ?_, ?_, ?_, ?_⟩ <;> omega

theorem shape16 (m0 : Nat) (m1 : Nat) (x0 : BitVec 4) (x1 : BitVec 3) (x2 : BitVec 3) (x3 : BitVec 3) (x4 : BitVec 3) (h0 : m0 < 64) (h1 : m1 < 16) (w : Nat)
    (hw : w = m0 * 67108864 + m1 * 1 + x0.toNat * 4194304 + x1.toNat * 262144 + x2.toNat * 16384 + x3.toNat * 1024 + x4.toNat * 16) :
    w < 4294967296 ∧ fld w 26 6 = m0 ∧ fld w 0 4 = m1 ∧ fld w 7 3 = 0 ∧ fld w 13 1 = 0 ∧ fld w 17 1 = 0 ∧ fld
    w 21 1 = 0 ∧ fld w 22 4 = x0.toNat ∧ fld w 18 3 = x1.toNat ∧ fld w 14 3 = x2.toNat ∧ fld w 10 3 = x3.toNat
    ∧ fld w 4 3 = x4.toNat := by
  have := x0.isLt; have := x1.isLt; have := x2.isLt; have := x3.isLt; have := x4.isLt
  simp only [fld]; subst hw
  refine ⟨?_, ?_, ?_, ?_, ?_, ?_, ?_, ?_, ?_, ?_, ?_, ?_⟩ <;> omega

theorem shape17 (m0 : Nat) (m1 : Nat) (x0 : BitVec 4) (x1 : BitVec 3) (x2 : BitVec 3) (h0 : m0 < 64) (h1 : m1 < 16) (w : Nat)
    (hw : w = m0 * 67108864 + m1 * 1 + x0.toNat * 4194304 + x1.toNat * 262144 + x2.toNat * 16384) :
    w < 4294967296 ∧ fld w 26 6 = m0 ∧ fld w 0 4 = m1 ∧ fld w 4 10 = 0 ∧ fld w 17 1 = 0 ∧ fld w 21 1 = 0 ∧ fld
    w 22 4 = x0.toNat ∧ fld w 18 3 = x1.toNat ∧ fld w 14 3 = x2.toNat := by
  have := x0.isLt; have := x1.isLt; have := x2.isLt
  simp only [fld]; subst hw
  refine ⟨?_, ?_, ?_, ?_, ?_, ?_, ?_, ?_, ?_⟩ <;> omega

theorem shape18 (m0 : Nat) (x0 : BitVec 6) (x1 : BitVec 3) (x2 : BitVec 3) (x3 : BitVec 3) (h0 : m0 < 64) (w : Nat)
    (hw : w = m0 * 67108864 + x0.toNat * 1048576 + x1.toNat * 131072 + x2.toNat * 16384 + x3.toNat * 2048) :
    w < 4294967296 ∧ fld w 26 6 = m0 ∧ fld w 0 11 = 0 ∧ fld w 20 6 = x0.toNat ∧ fld w 17 3 = x1.toNat ∧ fld w
    14 3 = x2.toNat ∧ fld w 11 3 = x3.toNat := by
  have := x0.isLt; have := x1.isLt; have := x2.isLt; have := x3.isLt
  simp only [fld]; subst hw
  refine ⟨?_, ?_, ?_, ?_, ?_, ?_, ?_⟩ <;> omega

theorem shape19 (m0 : Nat) (m1 : Nat) (x0 : BitVec 4) (x1 : BitVec 4) (x2 : BitVec 3) (h0 : m0 < 64) (h1 : m1 < 16) (w : Nat)
    (hw : w = m0 * 67108864 + m1 * 1 + x0.toNat * 4194304 + x1.toNat * 262144 + x2.toNat * 32768) :
    w < 4294967296 ∧ fld w 26 6 = m0 ∧ fld w 0 4 = m1 ∧ fld w 4 11 = 0 ∧ fld w 22 4 = x0.toNat ∧ fld w 18 4 =
    x1.toNat ∧ fld w 15 3 = x2.toNat := by
  have := x0.isLt; have := x1.isLt; have := x2.isLt
  simp only [fld]; subst hw
  refine ⟨?_, ?_, ?_, ?_, ?_, ?_, ?_⟩ <;> omega

theorem shape20  (x0 : BitVec 5) (x1 : BitVec 24)  (w : Nat)
    (hw : w = 0 + x0.toNat * 16777216 + x1.toNat * 1) :
    w < 4294967296 ∧ fld w 29 3 = 0 ∧ fld w 24 5 = x0.toNat ∧ fld w 0 24 = x1.toNat := by
  have := x0.isLt; have := x1.isLt
  simp only [fld]; subst hw
  refine ⟨?_, ?_, ?_, ?_⟩ <;> omega

theorem shape21 (m0 : Nat) (m1 : Nat) (x0 : BitVec 4) (x1 : BitVec 3) (x2 : BitVec 3) (h0 : m0 < 64) (h1 : m1 < 16) (w : Nat)
    (hw : w = m0 * 67108864 + m1 * 1 + x0.toNat * 4194304 + x1.toNat * 524288 + x2.toNat * 32768) :
    w < 4294967296 ∧ fld w 26 6 = m0 ∧ fld w 0 4 = m1 ∧ fld w 4 11 = 0 ∧ fld w 18 1 = 0 ∧ fld w 22 4 =
    x0.toNat ∧ fld w 19 3 = x1.toNat ∧ fld w 15 3 = x2.toNat := by
  have := x0.isLt; have := x1.isLt; have := x2.isLt
  simp only [fld]; subst hw
  refine ⟨?_, ?_, ?_, ?_, ?_, ?_, ?_, ?_⟩ <;> omega

theorem shape22  (x0 : BitVec 3) (x1 : BitVec 5) (x2 : BitVec 24)  (w : Nat)
    (hw : w = 0 + x0.toNat * 536870912 + x1.toNat * 16777216 + x2.toNat * 1) :
    w < 4294967296 ∧ fld w 29 3 = x0.toNat ∧ fld w 24 5 = x1.toNat ∧ fld w 0 24 = x2.toNat := by
  have := x0.isLt; have := x1.isLt; have := x2.isLt
  simp only [fld]; subst hw
  refine ⟨?_, ?_, ?_, ?_⟩ <;> omega

theorem shape23 (m0 : Nat) (m1 : Nat) (x0 : BitVec 4) (x1 : BitVec 4) (x2 : BitVec 3) (x3 : BitVec 1) (x4 : BitVec 1) (h0 : m0 < 64) (h1 : m1 < 16) (w : Nat)
    (hw : w = m0 * 67108864 + m1 * 1 + x0.toNat * 4194304 + x1.toNat * 262144 + x2.toNat * 32768 + x3.toNat * 16384 + x4.toNat * 16) :
    w < 4294967296 ∧ fld w 26 6 = m0 ∧ fld w 0 4 = m1 ∧ fld w 5 9 = 0 ∧ fld w 22 4 = x0.toNat ∧ fld w 18 4 =
    x1.toNat ∧ fld w 15 3 = x2.toNat ∧ fld w 14 1 = x3.toNat ∧ fld w 4 1 = x4.toNat := by
  have := x0.isLt; have := x1.isLt; have := x2.isLt; have := x3.isLt; have := x4.isLt
  simp only [fld]; subst hw
  refine ⟨?_, ?_, ?_, ?_, ?_, ?_, ?_, ?_, ?_⟩ <;> omega

theorem shape24 (m0 : Nat) (m1 : Nat) (x0 : BitVec 4) (x1 : BitVec 4) (x2 : BitVec 3) (x3 : BitVec 1) (h0 : m0 < 64) (h1 : m1 < 16) (w : Nat)
    (hw : w = m0 * 67108864 + m1 * 1 + x0.toNat * 4194304 + x1.toNat * 262144 + x2.toNat * 32768 + x3.toNat * 16384) :
    w < 4294967296 ∧ fld w 26 6 = m0 ∧ fld w 0 4 = m1 ∧ fld w 4 10 = 0 ∧ fld w 22 4 = x0.toNat ∧ fld w 18 4 =
    x1.toNat ∧ fld w 15 3 = x2.toNat ∧ fld w 14 1 = x3.toNat := by
  have := x0.isLt; have := x1.isLt; have := x2.isLt; have := x3.isLt
  simp only [fld]; subst hw
  refine ⟨?_, ?_, ?_, ?_, ?_, ?_, ?_, ?_⟩ <;> omega

theorem shape25 (m0 : Nat) (m1 : Nat) (x0 : BitVec 4) (x1 : BitVec 4) (x2 : BitVec 3) (x3 : BitVec 2) (h0 : m0 < 64) (h1 : m1 < 16) (w : Nat)
    (hw : w = m0 * 67108864 + m1 * 1 + x0.toNat * 4194304 + x1.toNat * 262144 + x2.toNat * 32768 + x3.toNat * 16) :
    w < 4294967296 ∧ fld w 26 6 = m0 ∧ fld w 0 4 = m1 ∧ fld w 6 9 = 0 ∧ fld w 22 4 = x0.toNat ∧ fld w 18 4 =
    x1.toNat ∧ fld w 15 3 = x2.toNat ∧ fld w 4 2 = x3.toNat := by
  have := x0.isLt; have := x1.isLt; have := x2.isLt; have := x3.isLt
  simp only [fld]; subst hw
  refine ⟨?_, ?_, ?_, ?_, ?_, ?_, ?_, ?_⟩ <;> omega

theorem shape26 (m0 : Nat) (m1 : Nat) (x0 : BitVec 4) (x1 : BitVec 6) (x2 : BitVec 4) (h0 : m0 < 64) (h1 : m1 < 256) (w : Nat)
    (hw : w = m0 * 67108864 + m1 * 1 + x0.toNat * 4194304 + x1.toNat * 65536 + x2.toNat * 2048) :
    w < 4294967296 ∧ fld w 26 6 = m0 ∧ fld w 0 8 = m1 ∧ fld w 8 3 = 0 ∧ fld w 15 1 = 0 ∧ fld w 22 4 = x0.toNat
    ∧ fld w 16 6 = x1.toNat ∧ fld w 11 4 = x2.toNat := by
  have := x0.isLt; have := x1.isLt; have := x2.isLt
  simp only [fld]; subst hw
  refine ⟨?_, ?_, ?_, ?_, ?_, ?_, ?_, ?_⟩ <;> omega

theorem shape27 (m0 : Nat) (m1 : Nat) (x0 : BitVec 4) (x1 : BitVec 4) (x2 : BitVec 3) (h0 : m0 < 64) (h1 : m1 < 256) (w : Nat)
    (hw : w = m0 * 67108864 + m1 * 1 + x0.toNat * 4194304 + x1.toNat * 2048 + x2.toNat * 256) :
    w < 4294967296 ∧ fld w 26 6 = m0 ∧ fld w 0 8 = m1 ∧ fld w 15 7 = 0 ∧ fld w 22 4 = x0.toNat ∧ fld w 11 4 =
    x1.toNat ∧ fld w 8 3 = x2.toNat := by
  have := x0.isLt; have := x1.isLt; have := x2.isLt
  simp only [fld]; subst hw
  refine ⟨?_, ?_, ?_, ?_, ?_, ?_, ?_⟩ <;> omega

theorem shape28 (m0 : Nat) (m1 : Nat) (x0 : BitVec 4) (x1 : BitVec 4) (h0 : m0 < 64) (h1 : m1 < 256) (w : Nat)
    (hw : w = m0 * 67108864 + m1 * 1 + x0.toNat * 4194304 + x1.toNat * 2048) :
    w < 4294967296 ∧ fld w 26 6 = m0 ∧ fld w 0 8 = m1 ∧ fld w 8 3 = 0 ∧ fld w 15 7 = 0 ∧ fld w 22 4 = x0.toNat
    ∧ fld w 11 4 = x1.toNat := by
  have := x0.isLt; have := x1.isLt
  simp only [fld]; subst hw
  refine ⟨?_, ?_, ?_, ?_, ?_, ?_, ?_⟩ <;> omega

theorem shape29 (m0 : Nat) (m1 : Nat) (x0 : BitVec 4) (x1 : BitVec 3) (x2 : BitVec 4) (h0 : m0 < 64) (h1 : m1 < 256) (w : Nat)
    (hw : w = m0 * 67108864 + m1 * 1 + x0.toNat * 4194304 + x1.toNat * 32768 + x2.toNat * 2048) :
    w < 4294967296 ∧ fld w 26 6 = m0 ∧ fld w 0 8 = m1 ∧ fld w 8 3 = 0 ∧ fld w 18 4 = 0 ∧ fld w 22 4 = x0.toNat
    ∧ fld w 15 3 = x1.toNat ∧ fld w 11 4 = x2.toNat := by
  have := x0.isLt; have := x1.isLt; have := x2.isLt
  simp only [fld]; subst hw
  refine ⟨?_, ?_, ?_, ?_, ?_, ?_, ?_, ?_⟩ <;> omega

theorem shape30 (m0 : Nat) (m1 : Nat) (x0 : BitVec 4) (h0 : m0 < 64) (h1 : m1 < 256) (w : Nat)
    (hw : w = m0 * 67108864 + m1 * 1 + x0.toNat * 4194304) :
    w < 4294967296 ∧ fld w 26 6 = m0 ∧ fld w 0 8 = m1 ∧ fld w 8 14 = 0 ∧ fld w 22 4 = x0.toNat := by
  have := x0.isLt
  simp only [fld]; subst hw
  refine ⟨?_, ?_, ?_, ?_, ?_⟩ <;> omega

theorem shape31 (m0 : Nat) (m1 : Nat) (x0 : BitVec 4) (x1 : BitVec 3) (h0 : m0 < 64) (h1 : m1 < 32) (w : Nat)
    (hw : w = m0 * 67108864 + m1 * 16384 + x0.toNat * 4194304 + x1.toNat * 524288) :
    w < 4294967296 ∧ fld w 26 6 = m0 ∧ fld w 14 5 = m1 ∧ fld w 0 14 = 0 ∧ fld w 22 4 = x0.toNat ∧ fld w 19 3 =
    x1.toNat := by
  have := x0.isLt; have := x1.isLt
  simp only [fld]; subst hw
  refine ⟨?_, ?_, ?_, ?_, ?_, ?_⟩ <;> omega

theorem shape32 (m0 : Nat) (m1 : Nat) (x0 : BitVec 4) (x1 : BitVec 4) (x2 : BitVec 2) (h0 : m0 < 64) (h1 : m1 < 1024) (w : Nat)
    (hw : w = m0 * 67108864 + m1 * 1 + x0.toNat * 4194304 + x1.toNat * 16384 + x2.toNat * 4096) :
    w < 4294967296 ∧ fld w 26 6 = m0 ∧ fld w 0 10 = m1 ∧ fld w 10 2 = 0 ∧ fld w 18 4 = 0 ∧ fld w 22 4 =
    x0.toNat ∧ fld w 14 4 = x1.toNat ∧ fld w 12 2 = x2.toNat := by
  have := x0.isLt; have := x1.isLt; have := x2.isLt
  simp only [fld]; subst hw
  refine ⟨?_, ?_, ?_, ?_, ?_, ?_, ?_, ?_⟩ <;> omega

theorem shape33 (m0 : Nat) (m1 : Nat) (x0 : BitVec 4) (x1 : BitVec 2) (x2 : BitVec 4) (h0 : m0 < 64) (h1 : m1 < 1024) (w : Nat)
    (hw : w = m0 * 67108864 + m1 * 1 + x0.toNat * 4194304 + x1.toNat * 1048576 + x2.toNat * 1024) :
    w < 4294967296 ∧ fld w 26 6 = m0 ∧ fld w 0 10 = m1 ∧ fld w 14 6 = 0 ∧ fld w 22 4 = x0.toNat ∧ fld w 20 2 =
    x1.toNat ∧ fld w 10 4 = x2.toNat := by
  have := x0.isLt; have := x1.isLt; have := x2.isLt
  simp only [fld]; subst hw
  refine ⟨?_, ?_, ?_, ?_, ?_, ?_, ?_⟩ <;> omega

theorem shape34 (m0 : Nat) (m1 : Nat) (x0 : BitVec 4) (x1 : BitVec 2) (x2 : BitVec 4) (x3 : BitVec 4) (h0 : m0 < 64) (h1 : m1 < 1024) (w : Nat)
    (hw : w = m0 * 67108864 + m1 * 1 + x0.toNat * 4194304 + x1.toNat * 1048576 + x2.toNat * 16384 + x3.toNat * 1024) :
    w < 4294967296 ∧ fld w 26 6 = m0 ∧ fld w 0 10 = m1 ∧ fld w 18 2 = 0 ∧ fld w 22 4 = x0.toNat ∧ fld w 20 2 =
    x1.toNat ∧ fld w 14 4 = x2.toNat ∧ fld w 10 4 = x3.toNat := by
  have := x0.isLt; have := x1.isLt; have := x2.isLt; have := x3.isLt
  simp only [fld]; subst hw
  refine ⟨?_, ?_, ?_, ?_, ?_, ?_, ?_, ?_⟩ <;> omega

theorem shape35 (m0 : Nat) (m1 : Nat) (x0 : BitVec 4) (x1 : BitVec 4) (x2 : BitVec 4) (h0 : m0 < 64) (h1 : m1 < 1024) (w : Nat)
    (hw : w = m0 * 67108864 + m1 * 1 + x0.toNat * 4194304 + x1.toNat * 16384 + x2.toNat * 1024) :
    w < 4294967296 ∧ fld w 26 6 = m0 ∧ fld w 0 10 = m1 ∧ fld w 18 4 = 0 ∧ fld w 22 4 = x0.toNat ∧ fld w 14 4 =
    x1.toNat ∧ fld w 10 4 = x2.toNat := by
  have := x0.isLt; have := x1.isLt; have := x2.isLt
  simp only [fld]; subst hw
  refine ⟨?_, ?_, ?_, ?_, ?_, ?_, ?_⟩ <;> omega

theorem shape36 (m0 : Nat) (m1 : Nat) (x0 : BitVec 4) (x1 : BitVec 4) (h0 : m0 < 64) (h1 : m1 < 1024) (w : Nat)
    (hw : w = m0 * 67108864 + m1 * 1 + x0.toNat * 4194304 + x1.toNat * 1024) :
    w < 4294967296 ∧ fld w 26 6 = m0 ∧ fld w 0 10 = m1 ∧ fld w 14 8 = 0 ∧ fld w 22 4 = x0.toNat ∧ fld w 10 4 =
    x1.toNat := by
  have := x0.isLt; have := x1.isLt
  simp only [fld]; subst hw
  refine ⟨?_, ?_, ?_, ?_, ?_, ?_⟩ <;> omega

theorem shape37 (m0 : Nat) (m1 : Nat) (x0 : BitVec 4) (x1 : BitVec 2) (h0 : m0 < 64) (h1 : m1 < 16) (w : Nat)
    (hw : w = m0 * 67108864 + m1 * 1 + x0.toNat * 4194304 + x1.toNat * 1024) :
    w < 4294967296 ∧ fld w 26 6 = m0 ∧ fld w 0 4 = m1 ∧ fld w 4 6 = 0 ∧ fld w 12 10 = 0 ∧ fld w 22 4 =
    x0.toNat ∧ fld w 10 2 = x1.toNat := by
  have := x0.isLt; have := x1.isLt
  simp only [fld]; subst hw
  refine ⟨?_, ?_, ?_, ?_, ?_, ?_, ?_⟩ <;> omega

theorem shape38 (m0 : Nat) (m1 : Nat) (x0 : BitVec 4) (x1 : BitVec 4) (x2 : BitVec 4) (x3 : BitVec 2) (x4 : BitVec 3) (h0 : m0 < 64) (h1 : m1 < 16) (w : Nat)
    (hw : w = m0 * 67108864 + m1 * 1 + x0.toNat * 4194304 + x1.toNat * 262144 + x2.toNat * 16384 + x3.toNat * 1024 + x4.toNat * 16) :
    w < 4294967296 ∧ fld w 26 6 = m0 ∧ fld w 0 4 = m1 ∧ fld w 7 3 = 0 ∧ fld w 12 2 = 0 ∧ fld w 22 4 = x0.toNat
    ∧ fld w 18 4 = x1.toNat ∧ fld w 14 4 = x2.toNat ∧ fld w 10 2 = x3.toNat ∧ fld w 4 3 = x4.toNat := by
  have := x0.isLt; have := x1.isLt; have := x2.isLt; have := x3.isLt; have := x4.isLt
  simp only [fld]; subst hw
  refine ⟨?_, ?_, ?_, ?_, ?_, ?_, ?_, ?_, ?_, ?_⟩ <;> omega

theorem shape39 (m0 : Nat) (m1 : Nat) (x0 : BitVec 4) (x1 : BitVec 4) (x2 : BitVec 2) (h0 : m0 < 64) (h1 : m1 < 16) (w : Nat)
    (hw : w = m0 * 67108864 + m1 * 1 + x0.toNat * 4194304 + x1.toNat * 262144 + x2.toNat * 1024) :
    w < 4294967296 ∧ fld w 26 6 = m0 ∧ fld w 0 4 = m1 ∧ fld w 4 6 = 0 ∧ fld w 12 6 = 0 ∧ fld w 22 4 = x0.toNat
    ∧ fld w 18 4 = x1.toNat ∧ fld w 10 2 = x2.toNat := by
  have := x0.isLt; have := x1.isLt; have := x2.isLt
  simp only [fld]; subst hw
  refine ⟨?_, ?_, ?_, ?_, ?_, ?_, ?_, ?_⟩ <;> omega

theorem shape40 (m0 : Nat) (m1 : Nat) (x0 : BitVec 4) (x1 : BitVec 4) (x2 : BitVec 2) (h0 : m0 < 64) (h1 : m1 < 16) (w : Nat)
    (hw : w = m0 * 67108864 + m1 * 1 + x0.toNat * 4194304 + x1.toNat * 16384 + x2.toNat * 1024) :
    w < 4294967296 ∧ fld w 26 6 = m0 ∧ fld w 0 4 = m1 ∧ fld w 4 6 = 0 ∧ fld w 12 2 = 0 ∧ fld w 18 4 = 0 ∧ fld
    w 22 4 = x0.toNat ∧ fld w 14 4 = x1.toNat ∧ fld w 10 2 = x2.toNat := by
  have := x0.isLt; have := x1.isLt; have := x2.isLt
  simp only [fld]; subst hw
  refine ⟨?_, ?_, ?_, ?_, ?_, ?_, ?_, ?_, ?_⟩ <;> omega

theorem shape41 (m0 : Nat) (m1 : Nat) (x0 : BitVec 4) (x1 : BitVec 4) (x2 : BitVec 6) (h0 : m0 < 64) (h1 : m1 < 2048) (w : Nat)
    (hw : w = m0 * 67108864 + m1 * 1 + x0.toNat * 4194304 + x1.toNat * 262144 + x2.toNat * 4096) :
    w < 4294967296 ∧ fld w 26 6 = m0 ∧ fld w 0 11 = m1 ∧ fld w 11 1 = 0 ∧ fld w 22 4 = x0.toNat ∧ fld w 18 4 =
    x1.toNat ∧ fld w 12 6 = x2.toNat := by
  have := x0.isLt; have := x1.isLt; have := x2.isLt
  simp only [fld]; subst hw
  refine ⟨?_, ?_, ?_, ?_, ?_, ?_, ?_⟩ <;> omega

theorem shape42 (m0 : Nat) (m1 : Nat) (x0 : BitVec 4) (x1 : BitVec 4) (x2 : BitVec 4) (h0 : m0 < 64) (h1 : m1 < 2048) (w : Nat)
    (hw : w = m0 * 67108864 + m1 * 1 + x0.toNat * 4194304 + x1.toNat * 262144 + x2.toNat * 2048) :
    w < 4294967296 ∧ fld w 26 6 = m0 ∧ fld w 0 11 = m1 ∧ fld w 15 3 = 0 ∧ fld w 22 4 = x0.toNat ∧ fld w 18 4 =
    x1.toNat ∧ fld w 11 4 = x2.toNat := by
  have := x0.isLt; have := x1.isLt; have := x2.isLt
  simp only [fld]; subst hw
  refine ⟨?_, ?_, ?_, ?_, ?_, ?_, ?_⟩ <;> omega

theorem shape43 (m0 : Nat) (m1 : Nat) (x0 : BitVec 4) (x1 : BitVec 4) (h0 : m0 < 64) (h1 : m1 < 2048) (w : Nat)
    (hw : w = m0 * 67108864 + m1 * 1 + x0.toNat * 4194304 + x1.toNat * 2048) :
    w < 4294967296 ∧ fld w 26 6 = m0 ∧ fld w 0 11 = m1 ∧ fld w 15 7 = 0 ∧ fld w 22 4 = x0.toNat ∧ fld w 11 4 =
    x1.toNat := by
  have := x0.isLt; have := x1.isLt
  simp only [fld]; subst hw
  refine ⟨?_, ?_, ?_, ?_, ?_, ?_⟩ <;> omega

theorem shape44 (m0 : Nat) (m1 : Nat) (x0 : BitVec 4) (x1 : BitVec 4) (x2 : BitVec 12) (h0 : m0 < 64) (h1 : m1 < 4) (w : Nat)
    (hw : w = m0 * 67108864 + m1 * 4096 + x0.toNat * 4194304 + x1.toNat * 262144 + x2.toNat * 1) :
    w < 4294967296 ∧ fld w 26 6 = m0 ∧ fld w 12 2 = m1 ∧ fld w 14 4 = 0 ∧ fld w 22 4 = x0.toNat ∧ fld w 18 4 =
    x1.toNat ∧ fld w 0 12 = x2.toNat := by
  have := x0.isLt; have := x1.isLt; have := x2.isLt
  simp only [fld]; subst hw
  refine ⟨?_, ?_, ?_, ?_, ?_, ?_, ?_⟩ <;> omega

theorem shape45 (m0 : Nat) (m1 : Nat) (x0 : BitVec 4) (x1 : BitVec 4) (x2 : BitVec 12) (h0 : m0 < 64) (h1 : m1 < 4) (w : Nat)
    (hw : w = m0 * 67108864 + m1 * 4096 + x0.toNat * 4194304 + x1.toNat * 16384 + x2.toNat * 1) :
    w < 4294967296 ∧ fld w 26 6 = m0 ∧ fld w 12 2 = m1 ∧ fld w 18 4 = 0 ∧ fld w 22 4 = x0.toNat ∧ fld w 14 4 =
    x1.toNat ∧ fld w 0 12 = x2.toNat := by
  have := x0.isLt; have := x1.isLt; have := x2.isLt
  simp only [fld]; subst hw
  refine ⟨?_, ?_, ?_, ?_, ?_, ?_, ?_⟩ <;> omega

theorem shape46 (m0 : Nat) (m1 : Nat) (x0 : BitVec 4) (x1 : BitVec 4) (x2 : BitVec 4) (x3 : BitVec 12) (h0 : m0 < 64) (h1 : m1 < 4) (w : Nat)
    (hw : w = m0 * 67108864 + m1 * 4096 + x0.toNat * 4194304 + x1.toNat * 262144 + x2.toNat * 16384 + x3.toNat * 1) :
    w < 4294967296 ∧ fld w 26 6 = m0 ∧ fld w 12 2 = m1 ∧ fld w 22 4 = x0.toNat ∧ fld w 18 4 = x1.toNat ∧ fld w
    14 4 = x2.toNat ∧ fld w 0 12 = x3.toNat := by
  have := x0.isLt; have := x1.isLt; have := x2.isLt; have := x3.isLt
  simp only [fld]; subst hw
  refine ⟨?_, ?_, ?_, ?_, ?_, ?_, ?_⟩ <;> omega

theorem shape47 (m0 : Nat) (m1 : Nat) (x0 : BitVec 4) (x1 : BitVec 4) (x2 : BitVec 3) (x3 : BitVec 4) (h0 : m0 < 64) (h1 : m1 < 1024) (w : Nat)
    (hw : w = m0 * 67108864 + m1 * 1 + x0.toNat * 4194304 + x1.toNat * 262144 + x2.toNat * 32768 + x3.toNat * 1024) :
    w < 4294967296 ∧ fld w 26 6 = m0 ∧ fld w 0 10 = m1 ∧ fld w 14 1 = 0 ∧ fld w 22 4 = x0.toNat ∧ fld w 18 4 =
    x1.toNat ∧ fld w 15 3 = x2.toNat ∧ fld w 10 4 = x3.toNat := by
  have := x0.isLt; have := x1.isLt; have := x2.isLt; have := x3.isLt
  simp only [fld]; subst hw
  refine ⟨?_, ?_, ?_, ?_, ?_, ?_, ?_, ?_⟩ <;> omega

theorem shape48 (m0 : Nat) (m1 : Nat) (x0 : BitVec 4) (x1 : BitVec 3) (h0 : m0 < 64) (h1 : m1 < 1024) (w : Nat)
    (hw : w = m0 * 67108864 + m1 * 1 + x0.toNat * 4194304 + x1.toNat * 32768) :
    w < 4294967296 ∧ fld w 26 6 = m0 ∧ fld w 0 10 = m1 ∧ fld w 10 5 = 0 ∧ fld w 18 4 = 0 ∧ fld w 22 4 =
    x0.toNat ∧ fld w 15 3 = x1.toNat := by
  have := x0.isLt; have := x1.isLt
  simp only [fld]; subst hw
  refine ⟨?_, ?_, ?_, ?_, ?_, ?_, ?_⟩ <;> omega

theorem shape49 (m0 : Nat) (m1 : Nat) (x0 : BitVec 4) (h0 : m0 < 64) (h1 : m1 < 1024) (w : Nat)
    (hw : w = m0 * 67108864 + m1 * 1 + x0.toNat * 4194304) :
    w < 4294967296 ∧ fld w 26 6 = m0 ∧ fld w 0 10 = m1 ∧ fld w 10 12 = 0 ∧ fld w 22 4 = x0.toNat := by
  have := x0.isLt
  simp only [fld]; subst hw
  refine ⟨?_, ?_, ?_, ?_, ?_⟩ <;> omega

theorem shape50 (m0 : Nat) (x0 : BitVec 4) (x1 : BitVec 3) (x2 : BitVec 3) (x3 : BitVec 14) (h0 : m0 < 64) (w : Nat)
    (hw : w = m0 * 67108864 + x0.toNat * 4194304 + x1.toNat * 262144 + x2.toNat * 16384 + x3.toNat * 1) :
    w < 4294967296 ∧ fld w 26 6 = m0 ∧ fld w 17 1 = 0 ∧ fld w 21 1 = 0 ∧ fld w 22 4 = x0.toNat ∧ fld w 18 3 =
    x1.toNat ∧ fld w 14 3 = x2.toNat ∧ fld w 0 14 = x3.toNat := by
  have := x0.isLt; have := x1.isLt; have := x2.isLt; have := x3.isLt
  simp only [fld]; subst hw
  refine ⟨?_, ?_, ?_, ?_, ?_, ?_, ?_, ?_⟩ <;> omega

theorem shape51 (m0 : Nat) (m1 : Nat) (x0 : BitVec 4) (x1 : BitVec 4) (x2 : BitVec 4) (h0 : m0 < 64) (h1 : m1 < 128) (w : Nat)
    (hw : w = m0 * 67108864 + m1 * 1 + x0.toNat * 4194304 + x1.toNat * 262144 + x2.toNat * 128) :
    w < 4294967296 ∧ fld w 26 6 = m0 ∧ fld w 0 7 = m1 ∧ fld w 11 7 = 0 ∧ fld w 22 4 = x0.toNat ∧ fld w 18 4 =
    x1.toNat ∧ fld w 7 4 = x2.toNat := by
  have := x0.isLt; have := x1.isLt; have := x2.isLt
  simp only [fld]; subst hw
  refine ⟨?_, ?_, ?_, ?_, ?_, ?_, ?_⟩ <;> omega

theorem shape52 (m0 : Nat) (m1 : Nat) (x0 : BitVec 4) (x1 : BitVec 4) (x2 : BitVec 3) (x3 : BitVec 4) (h0 : m0 < 64) (h1 : m1 < 128) (w : Nat)
    (hw : w = m0 * 67108864 + m1 * 1 + x0.toNat * 4194304 + x1.toNat * 262144 + x2.toNat * 2048 + x3.toNat * 128) :
    w < 4294967296 ∧ fld w 26 6 = m0 ∧ fld w 0 7 = m1 ∧ fld w 14 4 = 0 ∧ fld w 22 4 = x0.toNat ∧ fld w 18 4 =
    x1.toNat ∧ fld w 11 3 = x2.toNat ∧ fld w 7 4 = x3.toNat := by
  have := x0.isLt; have := x1.isLt; have := x2.isLt; have := x3.isLt
  simp only [fld]; subst hw
  refine ⟨?_, ?_, ?_, ?_, ?_, ?_, ?_, ?_⟩ <;> omega

theorem shape53 (m0 : Nat) (m1 : Nat) (x0 : BitVec 4) (x1 : BitVec 7) (x2 : BitVec 4) (h0 : m0 < 64) (h1 : m1 < 128) (w : Nat)
    (hw : w = m0 * 67108864 + m1 * 1 + x0.toNat * 4194304 + x1.toNat * 2048 + x2.toNat * 128) :
    w < 4294967296 ∧ fld w 26 6 = m0 ∧ fld w 0 7 = m1 ∧ fld w 18 4 = 0 ∧ fld w 22 4 = x0.toNat ∧ fld w 11 7 =
    x1.toNat ∧ fld w 7 4 = x2.toNat := by
  have := x0.isLt; have := x1.isLt; have := x2.isLt
  simp only [fld]; subst hw
  refine ⟨?_, ?_, ?_, ?_, ?_, ?_, ?_⟩ <;> omega

theorem shape54 (m0 : Nat) (m1 : Nat) (x0 : BitVec 7) (x1 : BitVec 7) (x2 : BitVec 7) (x3 : BitVec 3) (h0 : m0 < 64) (h1 : m1 < 4) (w : Nat)
    (hw : w = m0 * 67108864 + m1 * 1 + x0.toNat * 524288 + x1.toNat * 4096 + x2.toNat * 32 + x3.toNat * 4) :
    w < 4294967296 ∧ fld w 26 6 = m0 ∧ fld w 0 2 = m1 ∧ fld w 19 7 = x0.toNat ∧ fld w 12 7 = x1.toNat ∧ fld w
    5 7 = x2.toNat ∧ fld w 2 3 = x3.toNat := by
  have := x0.isLt; have := x1.isLt; have := x2.isLt; have := x3.isLt
  simp only [fld]; subst hw
  refine ⟨?_, ?_, ?_, ?_, ?_, ?_, ?_⟩ <;> omega

theorem shape55 (m0 : Nat) (m1 : Nat) (x0 : BitVec 7) (x1 : BitVec 7) (x2 : BitVec 3) (h0 : m0 < 64) (h1 : m1 < 4) (w : Nat)
    (hw : w = m0 * 67108864 + m1 * 1 + x0.toNat * 524288 + x1.toNat * 4096 + x2.toNat * 4) :
    w < 4294967296 ∧ fld w 26 6 = m0 ∧ fld w 0 2 = m1 ∧ fld w 5 7 = 0 ∧ fld w 19 7 = x0.toNat ∧ fld w 12 7 =
    x1.toNat ∧ fld w 2 3 = x2.toNat := by
  have := x0.isLt; have := x1.isLt; have := x2.isLt
  simp only [fld]; subst hw
  refine ⟨?_, ?_, ?_, ?_, ?_, ?_, ?_⟩ <;> omega

theorem shape56 (m0 : Nat) (m1 : Nat) (x0 : BitVec 7) (x1 : BitVec 7) (x2 : BitVec 7) (h0 : m0 < 64) (h1 : m1 < 4) (w : Nat)
    (hw : w = m0 * 67108864 + m1 * 1 + x0.toNat * 524288 + x1.toNat * 4096 + x2.toNat * 32) :
    w < 4294967296 ∧ fld w 26 6 = m0 ∧ fld w 0 2 = m1 ∧ fld w 2 3 = 0 ∧ fld w 19 7 = x0.toNat ∧ fld w 12 7 =
    x1.toNat ∧ fld w 5 7 = x2.toNat := by
  have := x0.isLt; have := x1.isLt; have := x2.isLt
  simp only [fld]; subst hw
  refine ⟨?_, ?_, ?_, ?_, ?_, ?_, ?_⟩ <;> omega

theorem shape57 (m0 : Nat) (m1 : Nat) (x0 : BitVec 3) (x1 : BitVec 7) (x2 : BitVec 7) (x3 : BitVec 3) (h0 : m0 < 64) (h1 : m1 < 4) (w : Nat)
    (hw : w = m0 * 67108864 + m1 * 1 + x0.toNat * 524288 + x1.toNat * 4096 + x2.toNat * 32 + x3.toNat * 4) :
    w < 4294967296 ∧ fld w 26 6 = m0 ∧ fld w 0 2 = m1 ∧ fld w 22 4 = 0 ∧ fld w 19 3 = x0.toNat ∧ fld w 12 7 =
    x1.toNat ∧ fld w 5 7 = x2.toNat ∧ fld w 2 3 = x3.toNat := by
  have := x0.isLt; have := x1.isLt; have := x2.isLt; have := x3.isLt
  simp only [fld]; subst hw
  refine ⟨?_, ?_, ?_, ?_, ?_, ?_, ?_, ?_⟩ <;> omega

theorem shape58 (m0 : Nat) (m1 : Nat) (x0 : BitVec 3) (x1 : BitVec 7) (x2 : BitVec 3) (h0 : m0 < 64) (h1 : m1 < 4) (w : Nat)
    (hw : w = m0 * 67108864 + m1 * 1 + x0.toNat * 524288 + x1.toNat * 4096 + x2.toNat * 4) :
    w < 4294967296 ∧ fld w 26 6 = m0 ∧ fld w 0 2 = m1 ∧ fld w 5 7 = 0 ∧ fld w 22 4 = 0 ∧ fld w 19 3 = x0.toNat
    ∧ fld w 12 7 = x1.toNat ∧ fld w 2 3 = x2.toNat := by
  have := x0.isLt; have := x1.isLt; have := x2.isLt
  simp only [fld]; subst hw
  refine ⟨?_, ?_, ?_, ?_, ?_, ?_, ?_, ?_⟩ <;> omega

theorem shape59 (m0 : Nat) (m1 : Nat) (x0 : BitVec 6) (x1 : BitVec 7) (x2 : BitVec 7) (x3 : BitVec 3) (h0 : m0 < 64) (h1 : m1 < 4) (w : Nat)
    (hw : w = m0 * 67108864 + m1 * 1 + x0.toNat * 1048576 + x1.toNat * 4096 + x2.toNat * 32 + x3.toNat * 4) :
    w < 4294967296 ∧ fld w 26 6 = m0 ∧ fld w 0 2 = m1 ∧ fld w 19 1 = 0 ∧ fld w 20 6 = x0.toNat ∧ fld w 12 7 =
    x1.toNat ∧ fld w 5 7 = x2.toNat ∧ fld w 2 3 = x3.toNat := by
  have := x0.isLt; have := x1.isLt; have := x2.isLt; have := x3.isLt
  simp only [fld]; subst hw
  refine ⟨?_, ?_, ?_, ?_, ?_, ?_, ?_, ?_⟩ <;> omega

theorem shape60 (m0 : Nat) (x0 : BitVec 7) (x1 : BitVec 7) (x2 : BitVec 4) (x3 : BitVec 4) (x4 : BitVec 3) (x5 : BitVec 1) (h0 : m0 < 64) (w : Nat)
    (hw : w = m0 * 67108864 + x0.toNat * 524288 + x1.toNat * 4096 + x2.toNat * 256 + x3.toNat * 16 + x4.toNat * 2 + x5.toNat * 1) :
    w < 4294967296 ∧ fld w 26 6 = m0 ∧ fld w 19 7 = x0.toNat ∧ fld w 12 7 = x1.toNat ∧ fld w 8 4 = x2.toNat ∧
    fld w 4 4 = x3.toNat ∧ fld w 1 3 = x4.toNat ∧ fld w 0 1 = x5.toNat := by
  have := x0.isLt; have := x1.isLt; have := x2.isLt; have := x3.isLt; have := x4.isLt; have := x5.isLt
  simp only [fld]; subst hw
  refine ⟨?_, ?_, ?_, ?_, ?_, ?_, ?_, ?_⟩ <;> omega

theorem shape61 (m0 : Nat) (m1 : Nat) (x0 : BitVec 7) (x1 : BitVec 4) (x2 : BitVec 4) (x3 : BitVec 3) (h0 : m0 < 64) (h1 : m1 < 32) (w : Nat)
    (hw : w = m0 * 67108864 + m1 * 1 + x0.toNat * 524288 + x1.toNat * 32768 + x2.toNat * 256 + x3.toNat * 32) :
    w < 4294967296 ∧ fld w 26 6 = m0 ∧ fld w 0 5 = m1 ∧ fld w 12 3 = 0 ∧ fld w 19 7 = x0.toNat ∧ fld w 15 4 =
    x1.toNat ∧ fld w 8 4 = x2.toNat ∧ fld w 5 3 = x3.toNat := by
  have := x0.isLt; have := x1.isLt; have := x2.isLt; have := x3.isLt
  simp only [fld]; subst hw
  refine ⟨?_, ?_, ?_, ?_, ?_, ?_, ?_, ?_⟩ <;> omega

theorem shape62 (m0 : Nat) (m1 : Nat) (x0 : BitVec 4) (x1 : BitVec 7) (x2 : BitVec 4) (x3 : BitVec 3) (h0 : m0 < 64) (h1 : m1 < 32) (w : Nat)
    (hw : w = m0 * 67108864 + m1 * 1 + x0.toNat * 4194304 + x1.toNat * 4096 + x2.toNat * 256 + x3.toNat * 32) :
    w < 4294967296 ∧ fld w 26 6 = m0 ∧ fld w 0 5 = m1 ∧ fld w 19 3 = 0 ∧ fld w 22 4 = x0.toNat ∧ fld w 12 7 =
    x1.toNat ∧ fld w 8 4 = x2.toNat ∧ fld w 5 3 = x3.toNat := by
  have := x0.isLt; have := x1.isLt; have := x2.isLt; have := x3.isLt
  simp only [fld]; subst hw
  refine ⟨?_, ?_, ?_, ?_, ?_, ?_, ?_, ?_⟩ <;> omega

theorem shape63 (m0 : Nat) (m1 : Nat) (x0 : BitVec 5) (x1 : BitVec 7) (x2 : BitVec 4) (h0 : m0 < 64) (h1 : m1 < 32) (w : Nat)
    (hw : w = m0 * 67108864 + m1 * 1 + x0.toNat * 2097152 + x1.toNat * 4096 + x2.toNat * 256) :
    w < 4294967296 ∧ fld w 26 6 = m0 ∧ fld w 0 5 = m1 ∧ fld w 19 2 = 0 ∧ fld w 5 3 = 0 ∧ fld w 21 5 = x0.toNat
    ∧ fld w 12 7 = x1.toNat ∧ fld w 8 4 = x2.toNat := by
  have := x0.isLt; have := x1.isLt; have := x2.isLt
  simp only [fld]; subst hw
  refine ⟨?_, ?_, ?_, ?_, ?_, ?_, ?_, ?_⟩ <;> omega

theorem shape64 (m0 : Nat) (m1 : Nat) (x0 : BitVec 7) (x1 : BitVec 5) (x2 : BitVec 4) (h0 : m0 < 64) (h1 : m1 < 32) (w : Nat)
    (hw : w = m0 * 67108864 + m1 * 1 + x0.toNat * 524288 + x1.toNat * 16384 + x2.toNat * 256) :
    w < 4294967296 ∧ fld w 26 6 = m0 ∧ fld w 0 5 = m1 ∧ fld w 12 2 = 0 ∧ fld w 5 3 = 0 ∧ fld w 19 7 = x0.toNat
    ∧ fld w 14 5 = x1.toNat ∧ fld w 8 4 = x2.toNat := by
  have := x0.isLt; have := x1.isLt; have := x2.isLt
  simp only [fld]; subst hw
  refine ⟨?_, ?_, ?_, ?_, ?_, ?_, ?_, ?_⟩ <;> omega

theorem shape65 (m0 : Nat) (m1 : Nat) (m2 : Nat) (x0 : BitVec 7) (x1 : BitVec 7) (h0 : m0 < 64) (h1 : m1 < 4) (h2 : m2 < 8) (w : Nat)
    (hw : w = m0 * 67108864 + m1 * 1 + m2 * 4 + x0.toNat * 524288 + x1.toNat * 4096) :
    w < 4294967296 ∧ fld w 26 6 = m0 ∧ fld w 0 2 = m1 ∧ fld w 2 3 = m2 ∧ fld w 5 7 = 0 ∧ fld w 19 7 = x0.toNat
    ∧ fld w 12 7 = x1.toNat := by
  have := x0.isLt; have := x1.isLt
  simp only [fld]; subst hw
  refine ⟨?_, ?_, ?_, ?_, ?_, ?_, ?_⟩ <;> omega

theorem shape66 (m0 : Nat) (m1 : Nat) (m2 : Nat) (x0 : BitVec 7) (x1 : BitVec 7) (x2 : BitVec 7) (h0 : m0 < 64) (h1 : m1 < 4) (h2 : m2 < 8) (w : Nat)
    (hw : w = m0 * 67108864 + m1 * 1 + m2 * 4 + x0.toNat * 524288 + x1.toNat * 4096 + x2.toNat * 32) :
    w < 4294967296 ∧ fld w 26 6 = m0 ∧ fld w 0 2 = m1 ∧ fld w 2 3 = m2 ∧ fld w 19 7 = x0.toNat ∧ fld w 12 7 =
    x1.toNat ∧ fld w 5 7 = x2.toNat := by
  have := x0.isLt; have := x1.isLt; have := x2.isLt
  simp only [fld]; subst hw
  refine ⟨?_, ?_, ?_, ?_, ?_, ?_, ?_⟩ <;> omega

theorem shape67 (m0 : Nat) (m1 : Nat) (x0 : BitVec 7) (x1 : BitVec 4) (h0 : m0 < 64) (h1 : m1 < 32) (w : Nat)
    (hw : w = m0 * 67108864 + m1 * 1 + x0.toNat * 524288 + x1.toNat * 256) :
    w < 4294967296 ∧ fld w 26 6 = m0 ∧ fld w 0 5 = m1 ∧ fld w 12 7 = 0 ∧ fld w 5 3 = 0 ∧ fld w 19 7 = x0.toNat
    ∧ fld w 8 4 = x1.toNat := by
  have := x0.isLt; have := x1.isLt
  simp only [fld]; subst hw
  refine ⟨?_, ?_, ?_, ?_, ?_, ?_, ?_⟩ <;> omega

theorem shape68 (m0 : Nat) (m1 : Nat) (x0 : BitVec 7) (x1 : BitVec 4) (x2 : BitVec 3) (h0 : m0 < 64) (h1 : m1 < 32) (w : Nat)
    (hw : w = m0 * 67108864 + m1 * 1 + x0.toNat * 524288 + x1.toNat * 256 + x2.toNat * 32) :
    w < 4294967296 ∧ fld w 26 6 = m0 ∧ fld w 0 5 = m1 ∧ fld w 12 7 = 0 ∧ fld w 19 7 = x0.toNat ∧ fld w 8 4 =
    x1.toNat ∧ fld w 5 3 = x2.toNat := by
  have := x0.isLt; have := x1.isLt; have := x2.isLt
  simp only [fld]; subst hw
  refine ⟨?_, ?_, ?_, ?_, ?_, ?_, ?_⟩ <;> omega

theorem shape69 (m0 : Nat) (m1 : Nat) (x0 : BitVec 7) (x1 : BitVec 4) (x2 : BitVec 4) (x3 : BitVec 3) (h0 : m0 < 64) (h1 : m1 < 32) (w : Nat)
    (hw : w = m0 * 67108864 + m1 * 1 + x0.toNat * 524288 + x1.toNat * 4096 + x2.toNat * 256 + x3.toNat * 32) :
    w < 4294967296 ∧ fld w 26 6 = m0 ∧ fld w 0 5 = m1 ∧ fld w 16 3 = 0 ∧ fld w 19 7 = x0.toNat ∧ fld w 12 4 =
    x1.toNat ∧ fld w 8 4 = x2.toNat ∧ fld w 5 3 = x3.toNat := by
  have := x0.isLt; have := x1.isLt; have := x2.isLt; have := x3.isLt
  simp only [fld]; subst hw
  refine ⟨?_, ?_, ?_, ?_, ?_, ?_, ?_, ?_⟩ <;> omega

theorem shape70 (m0 : Nat) (m1 : Nat) (x0 : BitVec 4) (x1 : BitVec 7) (x2 : BitVec 4) (x3 : BitVec 3) (h0 : m0 < 64) (h1 : m1 < 32) (w : Nat)
    (hw : w = m0 * 67108864 + m1 * 1 + x0.toNat * 524288 + x1.toNat * 4096 + x2.toNat * 256 + x3.toNat * 32) :
    w < 4294967296 ∧ fld w 26 6 = m0 ∧ fld w 0 5 = m1 ∧ fld w 23 3 = 0 ∧ fld w 19 4 = x0.toNat ∧ fld w 12 7 =
    x1.toNat ∧ fld w 8 4 = x2.toNat ∧ fld w 5 3 = x3.toNat := by
  have := x0.isLt; have := x1.isLt; have := x2.isLt; have := x3.isLt
  simp only [fld]; subst hw
  refine ⟨?_, ?_, ?_, ?_, ?_, ?_, ?_, ?_⟩ <;> omega

theorem shape71 (m0 : Nat) (m1 : Nat) (x0 : BitVec 3) (x1 : BitVec 4) (h0 : m0 < 64) (h1 : m1 < 32) (w : Nat)
    (hw : w = m0 * 67108864 + m1 * 1 + x0.toNat * 524288 + x1.toNat * 256) :
    w < 4294967296 ∧ fld w 26 6 = m0 ∧ fld w 0 5 = m1 ∧ fld w 5 3 = 0 ∧ fld w 12 7 = 0 ∧ fld w 22 4 = 0 ∧ fld
    w 19 3 = x0.toNat ∧ fld w 8 4 = x1.toNat := by
  have := x0.isLt; have := x1.isLt
  simp only [fld]; subst hw
  refine ⟨?_, ?_, ?_, ?_, ?_, ?_, ?_, ?_⟩ <;> omega

theorem shape72 (m0 : Nat) (m1 : Nat) (x0 : BitVec 3) (x1 : BitVec 4) (h0 : m0 < 64) (h1 : m1 < 32) (w : Nat)
    (hw : w = m0 * 67108864 + m1 * 1 + x0.toNat * 4096 + x1.toNat * 256) :
    w < 4294967296 ∧ fld w 26 6 = m0 ∧ fld w 0 5 = m1 ∧ fld w 5 3 = 0 ∧ fld w 15 11 = 0 ∧ fld w 12 3 =
    x0.toNat ∧ fld w 8 4 = x1.toNat := by
  have := x0.isLt; have := x1.isLt
  simp only [fld]; subst hw
  refine ⟨?_, ?_, ?_, ?_, ?_, ?_, ?_⟩ <;> omega

theorem shape73 (m0 : Nat) (m1 : Nat) (x0 : BitVec 7) (x1 : BitVec 7) (x2 : BitVec 8) (x3 : BitVec 3) (h0 : m0 < 64) (h1 : m1 < 2) (w : Nat)
    (hw : w = m0 * 67108864 + m1 * 1 + x0.toNat * 524288 + x1.toNat * 4096 + x2.toNat * 16 + x3.toNat * 2) :
    w < 4294967296 ∧ fld w 26 6 = m0 ∧ fld w 0 1 = m1 ∧ fld w 19 7 = x0.toNat ∧ fld w 12 7 = x1.toNat ∧ fld w
    4 8 = x2.toNat ∧ fld w 1 3 = x3.toNat := by
  have := x0.isLt; have := x1.isLt; have := x2.isLt; have := x3.isLt
  simp only [fld]; subst hw
  refine ⟨?_, ?_, ?_, ?_, ?_, ?_, ?_⟩ <;> omega

theorem shape74 (m0 : Nat) (m1 : Nat) (x0 : BitVec 7) (x1 : BitVec 8) (x2 : BitVec 3) (h0 : m0 < 64) (h1 : m1 < 2) (w : Nat)
    (hw : w = m0 * 67108864 + m1 * 1 + x0.toNat * 524288 + x1.toNat * 16 + x2.toNat * 2) :
    w < 4294967296 ∧ fld w 26 6 = m0 ∧ fld w 0 1 = m1 ∧ fld w 12 7 = 0 ∧ fld w 19 7 = x0.toNat ∧ fld w 4 8 =
    x1.toNat ∧ fld w 1 3 = x2.toNat := by
  have := x0.isLt; have := x1.isLt; have := x2.isLt
  simp only [fld]; subst hw
  refine ⟨?_, ?_, ?_, ?_, ?_, ?_, ?_⟩ <;> omega

theorem shape75 (m0 : Nat) (m1 : Nat) (x0 : BitVec 7) (x1 : BitVec 7) (x2 : BitVec 8) (h0 : m0 < 64) (h1 : m1 < 2) (w : Nat)
    (hw : w = m0 * 67108864 + m1 * 1 + x0.toNat * 524288 + x1.toNat * 4096 + x2.toNat * 16) :
    w < 4294967296 ∧ fld w 26 6 = m0 ∧ fld w 0 1 = m1 ∧ fld w 1 3 = 0 ∧ fld w 19 7 = x0.toNat ∧ fld w 12 7 =
    x1.toNat ∧ fld w 4 8 = x2.toNat := by
  have := x0.isLt; have := x1.isLt; have := x2.isLt
  simp only [fld]; subst hw
  refine ⟨?_, ?_, ?_, ?_, ?_, ?_, ?_⟩ <;> omega

theorem shape76 (m0 : Nat) (m1 : Nat) (x0 : BitVec 3) (x1 : BitVec 3) (x2 : BitVec 3) (h0 : m0 < 64) (h1 : m1 < 4) (w : Nat)
    (hw : w = m0 * 67108864 + m1 * 1 + x0.toNat * 524288 + x1.toNat * 4096 + x2.toNat * 32) :
    w < 4294967296 ∧ fld w 26 6 = m0 ∧ fld w 0 2 = m1 ∧ fld w 2 3 = 0 ∧ fld w 8 4 = 0 ∧ fld w 15 4 = 0 ∧ fld w
    22 4 = 0 ∧ fld w 19 3 = x0.toNat ∧ fld w 12 3 = x1.toNat ∧ fld w 5 3 = x2.toNat := by
  have := x0.isLt; have := x1.isLt; have := x2.isLt
  simp only [fld]; subst hw
  refine ⟨?_, ?_, ?_, ?_, ?_, ?_, ?_, ?_, ?_, ?_⟩ <;> omega

theorem shape77 (m0 : Nat) (m1 : Nat) (x0 : BitVec 3) (x1 : BitVec 3) (h0 : m0 < 64) (h1 : m1 < 4) (w : Nat)
    (hw : w = m0 * 67108864 + m1 * 1 + x0.toNat * 524288 + x1.toNat * 4096) :
    w < 4294967296 ∧ fld w 26 6 = m0 ∧ fld w 0 2 = m1 ∧ fld w 2 10 = 0 ∧ fld w 15 4 = 0 ∧ fld w 22 4 = 0 ∧ fld
    w 19 3 = x0.toNat ∧ fld w 12 3 = x1.toNat := by
  have := x0.isLt; have := x1.isLt
  simp only [fld]; subst hw
  refine ⟨?_, ?_, ?_, ?_, ?_, ?_, ?_, ?_⟩ <;> omega

theorem shape78 (m0 : Nat) (m1 : Nat) (x0 : BitVec 7) (x1 : BitVec 3) (h0 : m0 < 64) (h1 : m1 < 16) (w : Nat)
    (hw : w = m0 * 67108864 + m1 * 1 + x0.toNat * 524288 + x1.toNat * 65536) :
    w < 4294967296 ∧ fld w 26 6 = m0 ∧ fld w 0 4 = m1 ∧ fld w 4 12 = 0 ∧ fld w 19 7 = x0.toNat ∧ fld w 16 3 =
    x1.toNat := by
  have := x0.isLt; have := x1.isLt
  simp only [fld]; subst hw
  refine ⟨?_, ?_, ?_, ?_, ?_, ?_⟩ <;> omega

theorem shape79 (m0 : Nat) (m1 : Nat) (x0 : BitVec 6) (x1 : BitVec 3) (h0 : m0 < 64) (h1 : m1 < 16) (w : Nat)
    (hw : w = m0 * 67108864 + m1 * 1 + x0.toNat * 1048576 + x1.toNat * 65536) :
    w < 4294967296 ∧ fld w 26 6 = m0 ∧ fld w 0 4 = m1 ∧ fld w 4 12 = 0 ∧ fld w 19 1 = 0 ∧ fld w 20 6 =
    x0.toNat ∧ fld w 16 3 = x1.toNat := by
  have := x0.isLt; have := x1.isLt
  simp only [fld]; subst hw
  refine ⟨?_, ?_, ?_, ?_, ?_, ?_, ?_⟩ <;> omega

theorem shape80 (m0 : Nat) (m1 : Nat) (x0 : BitVec 6) (x1 : BitVec 3) (x2 : BitVec 2) (h0 : m0 < 64) (h1 : m1 < 16) (w : Nat)
    (hw : w = m0 * 67108864 + m1 * 1 + x0.toNat * 1048576 + x1.toNat * 65536 + x2.toNat * 16) :
    w < 4294967296 ∧ fld w 26 6 = m0 ∧ fld w 0 4 = m1 ∧ fld w 6 10 = 0 ∧ fld w 19 1 = 0 ∧ fld w 20 6 =
    x0.toNat ∧ fld w 16 3 = x1.toNat ∧ fld w 4 2 = x2.toNat := by
  have := x0.isLt; have := x1.isLt; have := x2.isLt
  simp only [fld]; subst hw
  refine ⟨?_, ?_, ?_, ?_, ?_, ?_, ?_, ?_⟩ <;> omega

theorem shape81 (m0 : Nat) (m1 : Nat) (x0 : BitVec 7) (x1 : BitVec 3) (x2 : BitVec 1) (x3 : BitVec 3) (x4 : BitVec 3) (h0 : m0 < 64) (h1 : m1 < 16) (w : Nat)
    (hw : w = m0 * 67108864 + m1 * 1 + x0.toNat * 524288 + x1.toNat * 65536 + x2.toNat * 4096 + x3.toNat * 512 + x4.toNat * 64) :
    w < 4294967296 ∧ fld w 26 6 = m0 ∧ fld w 0 4 = m1 ∧ fld w 4 2 = 0 ∧ fld w 13 3 = 0 ∧ fld w 19 7 = x0.toNat
    ∧ fld w 16 3 = x1.toNat ∧ fld w 12 1 = x2.toNat ∧ fld w 9 3 = x3.toNat ∧ fld w 6 3 = x4.toNat := by
  have := x0.isLt; have := x1.isLt; have := x2.isLt; have := x3.isLt; have := x4.isLt
  simp only [fld]; subst hw
  refine ⟨?_, ?_, ?_, ?_, ?_, ?_, ?_, ?_, ?_, ?_⟩ <;> omega

theorem shape82 (m0 : Nat) (m1 : Nat) (x0 : BitVec 7) (x1 : BitVec 3) (x2 : BitVec 3) (h0 : m0 < 64) (h1 : m1 < 16) (w : Nat)
    (hw : w = m0 * 67108864 + m1 * 1 + x0.toNat * 524288 + x1.toNat * 65536 + x2.toNat * 64) :
    w < 4294967296 ∧ fld w 26 6 = m0 ∧ fld w 0 4 = m1 ∧ fld w 4 2 = 0 ∧ fld w 9 7 = 0 ∧ fld w 19 7 = x0.toNat
    ∧ fld w 16 3 = x1.toNat ∧ fld w 6 3 = x2.toNat := by
  have := x0.isLt; have := x1.isLt; have := x2.isLt
  simp only [fld]; subst hw
  refine ⟨?_, ?_, ?_, ?_, ?_, ?_, ?_, ?_⟩ <;> omega

theorem roundTrip.nop (g : BitVec 4) : roundTrip.Statement (.nop g) := by
  refine roundTrip.of_one rfl fun v0 hw => ?_
  obtain ⟨iw, e0, e1, c0, c1, f0⟩ := shape0 0 0 g (by decide) (by decide) v0 (by omega)
  refine ⟨iw, ⟨_, e0, rfl⟩, ?_⟩
  rw [rawSys e0, decodeSys, e1]; refine (if_pos ⟨c0, c1⟩).trans ?_; rw [bf_eq f0]

theorem roundTrip.halt (g : BitVec 4) : roundTrip.Statement (.halt g) := by
  refine roundTrip.of_one rfl fun v0 hw => ?_
  obtain ⟨iw, e0, e1, c0, c1, f0⟩ := shape0 0 1 g (by decide) (by decide) v0 (by omega)
  refine ⟨iw, ⟨_, e0, rfl⟩, ?_⟩
  rw [rawSys e0, decodeSys, e1]; refine (if_pos ⟨c0, c1⟩).trans ?_; rw [bf_eq f0]

theorem roundTrip.idle (g : BitVec 4) : roundTrip.Statement (.idle g) := by
  refine roundTrip.of_one rfl fun v0 hw => ?_
  obtain ⟨iw, e0, e1, c0, c1, f0⟩ := shape0 0 2 g (by decide) (by decide) v0 (by omega)
  refine ⟨iw, ⟨_, e0, rfl⟩, ?_⟩
  rw [rawSys e0, decodeSys, e1]; refine (if_pos ⟨c0, c1⟩).trans ?_; rw [bf_eq f0]

theorem roundTrip.trap (g : BitVec 4) (i : BitVec 8) : roundTrip.Statement (.trap g i) := by
  refine roundTrip.of_one rfl fun v0 hw => ?_
  obtain ⟨iw, e0, e1, c0, f0, f1⟩ := shape1 0 3 g i (by decide) (by decide) v0 (by omega)
  refine ⟨iw, ⟨_, e0, rfl⟩, ?_⟩
  rw [rawSys e0, decodeSys, e1]; refine (if_pos c0).trans ?_; rw [bf_eq f0, bf_eq f1]

theorem roundTrip.eret (g : BitVec 4) : roundTrip.Statement (.eret g) := by
  refine roundTrip.of_one rfl fun v0 hw => ?_
  obtain ⟨iw, e0, e1, c0, c1, f0⟩ := shape0 0 4 g (by decide) (by decide) v0 (by omega)
  refine ⟨iw, ⟨_, e0, rfl⟩, ?_⟩
  rw [rawSys e0, decodeSys, e1]; refine (if_pos ⟨c0, c1⟩).trans ?_; rw [bf_eq f0]

theorem roundTrip.bkpt (g : BitVec 4) (i : BitVec 8) : roundTrip.Statement (.bkpt g i) := by
  refine roundTrip.of_one rfl fun v0 hw => ?_
  obtain ⟨iw, e0, e1, c0, f0, f1⟩ := shape1 0 5 g i (by decide) (by decide) v0 (by omega)
  refine ⟨iw, ⟨_, e0, rfl⟩, ?_⟩
  rw [rawSys e0, decodeSys, e1]; refine (if_pos c0).trans ?_; rw [bf_eq f0, bf_eq f1]

theorem roundTrip.rdcyc (g : BitVec 4) (d : BitVec 4) (w : BitVec 1) : roundTrip.Statement (.rdcyc g d w) := by
  refine roundTrip.of_one rfl fun v0 hw => ?_
  obtain ⟨iw, e0, e1, c0, c1, f0, f1, f2⟩ := shape2 0 6 g d w (by decide) (by decide) v0 (by omega)
  refine ⟨iw, ⟨_, e0, rfl⟩, ?_⟩
  rw [rawSys e0, decodeSys, e1]; refine (if_pos ⟨c0, c1⟩).trans ?_; rw [bf_eq f0, bf_eq f1, bf_eq f2]

theorem roundTrip.rdtime (g : BitVec 4) (d : BitVec 4) (w : BitVec 1) : roundTrip.Statement (.rdtime g d w) := by
  refine roundTrip.of_one rfl fun v0 hw => ?_
  obtain ⟨iw, e0, e1, c0, c1, f0, f1, f2⟩ := shape2 0 7 g d w (by decide) (by decide) v0 (by omega)
  refine ⟨iw, ⟨_, e0, rfl⟩, ?_⟩
  rw [rawSys e0, decodeSys, e1]; refine (if_pos ⟨c0, c1⟩).trans ?_; rw [bf_eq f0, bf_eq f1, bf_eq f2]

theorem roundTrip.rdsig (g : BitVec 4) (d : BitVec 4) (w : BitVec 1) : roundTrip.Statement (.rdsig g d w) := by
  refine roundTrip.of_one rfl fun v0 hw => ?_
  obtain ⟨iw, e0, e1, c0, c1, f0, f1, f2⟩ := shape2 0 8 g d w (by decide) (by decide) v0 (by omega)
  refine ⟨iw, ⟨_, e0, rfl⟩, ?_⟩
  rw [rawSys e0, decodeSys, e1]; refine (if_pos ⟨c0, c1⟩).trans ?_; rw [bf_eq f0, bf_eq f1, bf_eq f2]

theorem roundTrip.lnch (g : BitVec 4) (d : BitVec 4) (a : BitVec 4) (r : BitVec 2) : roundTrip.Statement (.lnch g d a r) := by
  refine roundTrip.of_one rfl fun v0 hw => ?_
  obtain ⟨iw, e0, e1, c0, f0, f1, f2, f3⟩ := shape3 0 9 g d a r (by decide) (by decide) v0 (by omega)
  refine ⟨iw, ⟨_, e0, rfl⟩, ?_⟩
  rw [rawSys e0, decodeSys, e1]; refine (if_pos c0).trans ?_; rw [bf_eq f0, bf_eq f1, bf_eq f2, bf_eq f3]

theorem roundTrip.l1inv (g : BitVec 4) : roundTrip.Statement (.l1inv g) := by
  refine roundTrip.of_one rfl fun v0 hw => ?_
  obtain ⟨iw, e0, e1, c0, c1, f0⟩ := shape0 0 10 g (by decide) (by decide) v0 (by omega)
  refine ⟨iw, ⟨_, e0, rfl⟩, ?_⟩
  rw [rawSys e0, decodeSys, e1]; refine (if_pos ⟨c0, c1⟩).trans ?_; rw [bf_eq f0]

theorem roundTrip.add (g : BitVec 4) (d : BitVec 4) (a : BitVec 4) (b : BitVec 4) : roundTrip.Statement (.add g d a b) := by
  refine roundTrip.of_one rfl fun v0 hw => ?_
  obtain ⟨iw, e0, e1, f0, f1, f2, f3⟩ := shape4 1 0 g d a b (by decide) (by decide) v0 (by omega)
  refine ⟨iw, ⟨_, e0, rfl⟩, ?_⟩
  rw [rawAlu e0, decodeAlu, e1]; rw [bf_eq f0, bf_eq f1, bf_eq f2, bf_eq f3]; rfl

theorem roundTrip.sub (g : BitVec 4) (d : BitVec 4) (a : BitVec 4) (b : BitVec 4) : roundTrip.Statement (.sub g d a b) := by
  refine roundTrip.of_one rfl fun v0 hw => ?_
  obtain ⟨iw, e0, e1, f0, f1, f2, f3⟩ := shape4 1 1 g d a b (by decide) (by decide) v0 (by omega)
  refine ⟨iw, ⟨_, e0, rfl⟩, ?_⟩
  rw [rawAlu e0, decodeAlu, e1]; rw [bf_eq f0, bf_eq f1, bf_eq f2, bf_eq f3]; rfl

theorem roundTrip.and (g : BitVec 4) (d : BitVec 4) (a : BitVec 4) (b : BitVec 4) : roundTrip.Statement (.and g d a b) := by
  refine roundTrip.of_one rfl fun v0 hw => ?_
  obtain ⟨iw, e0, e1, f0, f1, f2, f3⟩ := shape4 1 2 g d a b (by decide) (by decide) v0 (by omega)
  refine ⟨iw, ⟨_, e0, rfl⟩, ?_⟩
  rw [rawAlu e0, decodeAlu, e1]; rw [bf_eq f0, bf_eq f1, bf_eq f2, bf_eq f3]; rfl

theorem roundTrip.or (g : BitVec 4) (d : BitVec 4) (a : BitVec 4) (b : BitVec 4) : roundTrip.Statement (.or g d a b) := by
  refine roundTrip.of_one rfl fun v0 hw => ?_
  obtain ⟨iw, e0, e1, f0, f1, f2, f3⟩ := shape4 1 3 g d a b (by decide) (by decide) v0 (by omega)
  refine ⟨iw, ⟨_, e0, rfl⟩, ?_⟩
  rw [rawAlu e0, decodeAlu, e1]; rw [bf_eq f0, bf_eq f1, bf_eq f2, bf_eq f3]; rfl

theorem roundTrip.xor (g : BitVec 4) (d : BitVec 4) (a : BitVec 4) (b : BitVec 4) : roundTrip.Statement (.xor g d a b) := by
  refine roundTrip.of_one rfl fun v0 hw => ?_
  obtain ⟨iw, e0, e1, f0, f1, f2, f3⟩ := shape4 1 4 g d a b (by decide) (by decide) v0 (by omega)
  refine ⟨iw, ⟨_, e0, rfl⟩, ?_⟩
  rw [rawAlu e0, decodeAlu, e1]; rw [bf_eq f0, bf_eq f1, bf_eq f2, bf_eq f3]; rfl

theorem roundTrip.andn (g : BitVec 4) (d : BitVec 4) (a : BitVec 4) (b : BitVec 4) : roundTrip.Statement (.andn g d a b) := by
  refine roundTrip.of_one rfl fun v0 hw => ?_
  obtain ⟨iw, e0, e1, f0, f1, f2, f3⟩ := shape4 1 5 g d a b (by decide) (by decide) v0 (by omega)
  refine ⟨iw, ⟨_, e0, rfl⟩, ?_⟩
  rw [rawAlu e0, decodeAlu, e1]; rw [bf_eq f0, bf_eq f1, bf_eq f2, bf_eq f3]; rfl

theorem roundTrip.shl (g : BitVec 4) (d : BitVec 4) (a : BitVec 4) (b : BitVec 4) : roundTrip.Statement (.shl g d a b) := by
  refine roundTrip.of_one rfl fun v0 hw => ?_
  obtain ⟨iw, e0, e1, f0, f1, f2, f3⟩ := shape4 1 6 g d a b (by decide) (by decide) v0 (by omega)
  refine ⟨iw, ⟨_, e0, rfl⟩, ?_⟩
  rw [rawAlu e0, decodeAlu, e1]; rw [bf_eq f0, bf_eq f1, bf_eq f2, bf_eq f3]; rfl

theorem roundTrip.shr (g : BitVec 4) (d : BitVec 4) (a : BitVec 4) (b : BitVec 4) : roundTrip.Statement (.shr g d a b) := by
  refine roundTrip.of_one rfl fun v0 hw => ?_
  obtain ⟨iw, e0, e1, f0, f1, f2, f3⟩ := shape4 1 7 g d a b (by decide) (by decide) v0 (by omega)
  refine ⟨iw, ⟨_, e0, rfl⟩, ?_⟩
  rw [rawAlu e0, decodeAlu, e1]; rw [bf_eq f0, bf_eq f1, bf_eq f2, bf_eq f3]; rfl

theorem roundTrip.sar (g : BitVec 4) (d : BitVec 4) (a : BitVec 4) (b : BitVec 4) : roundTrip.Statement (.sar g d a b) := by
  refine roundTrip.of_one rfl fun v0 hw => ?_
  obtain ⟨iw, e0, e1, f0, f1, f2, f3⟩ := shape4 1 8 g d a b (by decide) (by decide) v0 (by omega)
  refine ⟨iw, ⟨_, e0, rfl⟩, ?_⟩
  rw [rawAlu e0, decodeAlu, e1]; rw [bf_eq f0, bf_eq f1, bf_eq f2, bf_eq f3]; rfl

theorem roundTrip.rol (g : BitVec 4) (d : BitVec 4) (a : BitVec 4) (b : BitVec 4) : roundTrip.Statement (.rol g d a b) := by
  refine roundTrip.of_one rfl fun v0 hw => ?_
  obtain ⟨iw, e0, e1, f0, f1, f2, f3⟩ := shape4 1 9 g d a b (by decide) (by decide) v0 (by omega)
  refine ⟨iw, ⟨_, e0, rfl⟩, ?_⟩
  rw [rawAlu e0, decodeAlu, e1]; rw [bf_eq f0, bf_eq f1, bf_eq f2, bf_eq f3]; rfl

theorem roundTrip.mul (g : BitVec 4) (d : BitVec 4) (a : BitVec 4) (b : BitVec 4) : roundTrip.Statement (.mul g d a b) := by
  refine roundTrip.of_one rfl fun v0 hw => ?_
  obtain ⟨iw, e0, e1, f0, f1, f2, f3⟩ := shape4 1 10 g d a b (by decide) (by decide) v0 (by omega)
  refine ⟨iw, ⟨_, e0, rfl⟩, ?_⟩
  rw [rawAlu e0, decodeAlu, e1]; rw [bf_eq f0, bf_eq f1, bf_eq f2, bf_eq f3]; rfl

theorem roundTrip.mulh (g : BitVec 4) (d : BitVec 4) (a : BitVec 4) (b : BitVec 4) : roundTrip.Statement (.mulh g d a b) := by
  refine roundTrip.of_one rfl fun v0 hw => ?_
  obtain ⟨iw, e0, e1, f0, f1, f2, f3⟩ := shape4 1 11 g d a b (by decide) (by decide) v0 (by omega)
  refine ⟨iw, ⟨_, e0, rfl⟩, ?_⟩
  rw [rawAlu e0, decodeAlu, e1]; rw [bf_eq f0, bf_eq f1, bf_eq f2, bf_eq f3]; rfl

theorem roundTrip.mulhu (g : BitVec 4) (d : BitVec 4) (a : BitVec 4) (b : BitVec 4) : roundTrip.Statement (.mulhu g d a b) := by
  refine roundTrip.of_one rfl fun v0 hw => ?_
  obtain ⟨iw, e0, e1, f0, f1, f2, f3⟩ := shape4 1 12 g d a b (by decide) (by decide) v0 (by omega)
  refine ⟨iw, ⟨_, e0, rfl⟩, ?_⟩
  rw [rawAlu e0, decodeAlu, e1]; rw [bf_eq f0, bf_eq f1, bf_eq f2, bf_eq f3]; rfl

theorem roundTrip.div (g : BitVec 4) (d : BitVec 4) (a : BitVec 4) (b : BitVec 4) : roundTrip.Statement (.div g d a b) := by
  refine roundTrip.of_one rfl fun v0 hw => ?_
  obtain ⟨iw, e0, e1, f0, f1, f2, f3⟩ := shape4 1 13 g d a b (by decide) (by decide) v0 (by omega)
  refine ⟨iw, ⟨_, e0, rfl⟩, ?_⟩
  rw [rawAlu e0, decodeAlu, e1]; rw [bf_eq f0, bf_eq f1, bf_eq f2, bf_eq f3]; rfl

theorem roundTrip.divu (g : BitVec 4) (d : BitVec 4) (a : BitVec 4) (b : BitVec 4) : roundTrip.Statement (.divu g d a b) := by
  refine roundTrip.of_one rfl fun v0 hw => ?_
  obtain ⟨iw, e0, e1, f0, f1, f2, f3⟩ := shape4 1 14 g d a b (by decide) (by decide) v0 (by omega)
  refine ⟨iw, ⟨_, e0, rfl⟩, ?_⟩
  rw [rawAlu e0, decodeAlu, e1]; rw [bf_eq f0, bf_eq f1, bf_eq f2, bf_eq f3]; rfl

theorem roundTrip.rem (g : BitVec 4) (d : BitVec 4) (a : BitVec 4) (b : BitVec 4) : roundTrip.Statement (.rem g d a b) := by
  refine roundTrip.of_one rfl fun v0 hw => ?_
  obtain ⟨iw, e0, e1, f0, f1, f2, f3⟩ := shape4 1 15 g d a b (by decide) (by decide) v0 (by omega)
  refine ⟨iw, ⟨_, e0, rfl⟩, ?_⟩
  rw [rawAlu e0, decodeAlu, e1]; rw [bf_eq f0, bf_eq f1, bf_eq f2, bf_eq f3]; rfl

theorem roundTrip.remu (g : BitVec 4) (d : BitVec 4) (a : BitVec 4) (b : BitVec 4) : roundTrip.Statement (.remu g d a b) := by
  refine roundTrip.of_one rfl fun v0 hw => ?_
  obtain ⟨iw, e0, e1, f0, f1, f2, f3⟩ := shape4 1 16 g d a b (by decide) (by decide) v0 (by omega)
  refine ⟨iw, ⟨_, e0, rfl⟩, ?_⟩
  rw [rawAlu e0, decodeAlu, e1]; rw [bf_eq f0, bf_eq f1, bf_eq f2, bf_eq f3]; rfl

theorem roundTrip.min (g : BitVec 4) (d : BitVec 4) (a : BitVec 4) (b : BitVec 4) : roundTrip.Statement (.min g d a b) := by
  refine roundTrip.of_one rfl fun v0 hw => ?_
  obtain ⟨iw, e0, e1, f0, f1, f2, f3⟩ := shape4 1 17 g d a b (by decide) (by decide) v0 (by omega)
  refine ⟨iw, ⟨_, e0, rfl⟩, ?_⟩
  rw [rawAlu e0, decodeAlu, e1]; rw [bf_eq f0, bf_eq f1, bf_eq f2, bf_eq f3]; rfl

theorem roundTrip.max (g : BitVec 4) (d : BitVec 4) (a : BitVec 4) (b : BitVec 4) : roundTrip.Statement (.max g d a b) := by
  refine roundTrip.of_one rfl fun v0 hw => ?_
  obtain ⟨iw, e0, e1, f0, f1, f2, f3⟩ := shape4 1 18 g d a b (by decide) (by decide) v0 (by omega)
  refine ⟨iw, ⟨_, e0, rfl⟩, ?_⟩
  rw [rawAlu e0, decodeAlu, e1]; rw [bf_eq f0, bf_eq f1, bf_eq f2, bf_eq f3]; rfl

theorem roundTrip.minu (g : BitVec 4) (d : BitVec 4) (a : BitVec 4) (b : BitVec 4) : roundTrip.Statement (.minu g d a b) := by
  refine roundTrip.of_one rfl fun v0 hw => ?_
  obtain ⟨iw, e0, e1, f0, f1, f2, f3⟩ := shape4 1 19 g d a b (by decide) (by decide) v0 (by omega)
  refine ⟨iw, ⟨_, e0, rfl⟩, ?_⟩
  rw [rawAlu e0, decodeAlu, e1]; rw [bf_eq f0, bf_eq f1, bf_eq f2, bf_eq f3]; rfl

theorem roundTrip.maxu (g : BitVec 4) (d : BitVec 4) (a : BitVec 4) (b : BitVec 4) : roundTrip.Statement (.maxu g d a b) := by
  refine roundTrip.of_one rfl fun v0 hw => ?_
  obtain ⟨iw, e0, e1, f0, f1, f2, f3⟩ := shape4 1 20 g d a b (by decide) (by decide) v0 (by omega)
  refine ⟨iw, ⟨_, e0, rfl⟩, ?_⟩
  rw [rawAlu e0, decodeAlu, e1]; rw [bf_eq f0, bf_eq f1, bf_eq f2, bf_eq f3]; rfl

theorem roundTrip.clz (g : BitVec 4) (d : BitVec 4) (a : BitVec 4) : roundTrip.Statement (.clz g d a) := by
  refine roundTrip.of_one rfl fun v0 hw => ?_
  obtain ⟨iw, e0, e1, c0, f0, f1, f2⟩ := shape5 1 21 g d a (by decide) (by decide) v0 (by omega)
  refine ⟨iw, ⟨_, e0, rfl⟩, ?_⟩
  rw [rawAlu e0, decodeAlu, e1]; refine (if_pos c0).trans ?_; rw [bf_eq f0, bf_eq f1, bf_eq f2]

theorem roundTrip.ctz (g : BitVec 4) (d : BitVec 4) (a : BitVec 4) : roundTrip.Statement (.ctz g d a) := by
  refine roundTrip.of_one rfl fun v0 hw => ?_
  obtain ⟨iw, e0, e1, c0, f0, f1, f2⟩ := shape5 1 22 g d a (by decide) (by decide) v0 (by omega)
  refine ⟨iw, ⟨_, e0, rfl⟩, ?_⟩
  rw [rawAlu e0, decodeAlu, e1]; refine (if_pos c0).trans ?_; rw [bf_eq f0, bf_eq f1, bf_eq f2]

theorem roundTrip.popc (g : BitVec 4) (d : BitVec 4) (a : BitVec 4) : roundTrip.Statement (.popc g d a) := by
  refine roundTrip.of_one rfl fun v0 hw => ?_
  obtain ⟨iw, e0, e1, c0, f0, f1, f2⟩ := shape5 1 23 g d a (by decide) (by decide) v0 (by omega)
  refine ⟨iw, ⟨_, e0, rfl⟩, ?_⟩
  rw [rawAlu e0, decodeAlu, e1]; refine (if_pos c0).trans ?_; rw [bf_eq f0, bf_eq f1, bf_eq f2]

theorem roundTrip.brev (g : BitVec 4) (d : BitVec 4) (a : BitVec 4) : roundTrip.Statement (.brev g d a) := by
  refine roundTrip.of_one rfl fun v0 hw => ?_
  obtain ⟨iw, e0, e1, c0, f0, f1, f2⟩ := shape5 1 24 g d a (by decide) (by decide) v0 (by omega)
  refine ⟨iw, ⟨_, e0, rfl⟩, ?_⟩
  rw [rawAlu e0, decodeAlu, e1]; refine (if_pos c0).trans ?_; rw [bf_eq f0, bf_eq f1, bf_eq f2]

theorem roundTrip.sextb (g : BitVec 4) (d : BitVec 4) (a : BitVec 4) : roundTrip.Statement (.sextb g d a) := by
  refine roundTrip.of_one rfl fun v0 hw => ?_
  obtain ⟨iw, e0, e1, c0, f0, f1, f2⟩ := shape5 1 25 g d a (by decide) (by decide) v0 (by omega)
  refine ⟨iw, ⟨_, e0, rfl⟩, ?_⟩
  rw [rawAlu e0, decodeAlu, e1]; refine (if_pos c0).trans ?_; rw [bf_eq f0, bf_eq f1, bf_eq f2]

theorem roundTrip.sexth (g : BitVec 4) (d : BitVec 4) (a : BitVec 4) : roundTrip.Statement (.sexth g d a) := by
  refine roundTrip.of_one rfl fun v0 hw => ?_
  obtain ⟨iw, e0, e1, c0, f0, f1, f2⟩ := shape5 1 26 g d a (by decide) (by decide) v0 (by omega)
  refine ⟨iw, ⟨_, e0, rfl⟩, ?_⟩
  rw [rawAlu e0, decodeAlu, e1]; refine (if_pos c0).trans ?_; rw [bf_eq f0, bf_eq f1, bf_eq f2]

theorem roundTrip.zextb (g : BitVec 4) (d : BitVec 4) (a : BitVec 4) : roundTrip.Statement (.zextb g d a) := by
  refine roundTrip.of_one rfl fun v0 hw => ?_
  obtain ⟨iw, e0, e1, c0, f0, f1, f2⟩ := shape5 1 27 g d a (by decide) (by decide) v0 (by omega)
  refine ⟨iw, ⟨_, e0, rfl⟩, ?_⟩
  rw [rawAlu e0, decodeAlu, e1]; refine (if_pos c0).trans ?_; rw [bf_eq f0, bf_eq f1, bf_eq f2]

theorem roundTrip.zexth (g : BitVec 4) (d : BitVec 4) (a : BitVec 4) : roundTrip.Statement (.zexth g d a) := by
  refine roundTrip.of_one rfl fun v0 hw => ?_
  obtain ⟨iw, e0, e1, c0, f0, f1, f2⟩ := shape5 1 28 g d a (by decide) (by decide) v0 (by omega)
  refine ⟨iw, ⟨_, e0, rfl⟩, ?_⟩
  rw [rawAlu e0, decodeAlu, e1]; refine (if_pos c0).trans ?_; rw [bf_eq f0, bf_eq f1, bf_eq f2]

theorem roundTrip.mov (g : BitVec 4) (d : BitVec 4) (a : BitVec 4) : roundTrip.Statement (.mov g d a) := by
  refine roundTrip.of_one rfl fun v0 hw => ?_
  obtain ⟨iw, e0, e1, c0, f0, f1, f2⟩ := shape5 1 29 g d a (by decide) (by decide) v0 (by omega)
  refine ⟨iw, ⟨_, e0, rfl⟩, ?_⟩
  rw [rawAlu e0, decodeAlu, e1]; refine (if_pos c0).trans ?_; rw [bf_eq f0, bf_eq f1, bf_eq f2]

theorem roundTrip.slt (g : BitVec 4) (d : BitVec 4) (a : BitVec 4) (b : BitVec 4) : roundTrip.Statement (.slt g d a b) := by
  refine roundTrip.of_one rfl fun v0 hw => ?_
  obtain ⟨iw, e0, e1, f0, f1, f2, f3⟩ := shape4 1 30 g d a b (by decide) (by decide) v0 (by omega)
  refine ⟨iw, ⟨_, e0, rfl⟩, ?_⟩
  rw [rawAlu e0, decodeAlu, e1]; rw [bf_eq f0, bf_eq f1, bf_eq f2, bf_eq f3]; rfl

theorem roundTrip.sltu (g : BitVec 4) (d : BitVec 4) (a : BitVec 4) (b : BitVec 4) : roundTrip.Statement (.sltu g d a b) := by
  refine roundTrip.of_one rfl fun v0 hw => ?_
  obtain ⟨iw, e0, e1, f0, f1, f2, f3⟩ := shape4 1 31 g d a b (by decide) (by decide) v0 (by omega)
  refine ⟨iw, ⟨_, e0, rfl⟩, ?_⟩
  rw [rawAlu e0, decodeAlu, e1]; rw [bf_eq f0, bf_eq f1, bf_eq f2, bf_eq f3]; rfl

theorem roundTrip.addi (g : BitVec 4) (d : BitVec 4) (a : BitVec 4) (i : BitVec 14) : roundTrip.Statement (.addi g d a i) := by
  refine roundTrip.of_one rfl fun v0 hw => ?_
  obtain ⟨iw, e0, f0, f1, f2, f3⟩ := shape6 2 g d a i (by decide) v0 (by omega)
  refine ⟨iw, ⟨_, e0, rfl⟩, ?_⟩
  rw [rawAddi e0, decodeAddi]; rw [bf_eq f0, bf_eq f1, bf_eq f2, bf_eq f3]

theorem roundTrip.andi (g : BitVec 4) (d : BitVec 4) (a : BitVec 4) (i : BitVec 14) : roundTrip.Statement (.andi g d a i) := by
  refine roundTrip.of_one rfl fun v0 hw => ?_
  obtain ⟨iw, e0, f0, f1, f2, f3⟩ := shape6 3 g d a i (by decide) v0 (by omega)
  refine ⟨iw, ⟨_, e0, rfl⟩, ?_⟩
  rw [rawAndi e0, decodeAndi]; rw [bf_eq f0, bf_eq f1, bf_eq f2, bf_eq f3]

theorem roundTrip.ori (g : BitVec 4) (d : BitVec 4) (a : BitVec 4) (i : BitVec 14) : roundTrip.Statement (.ori g d a i) := by
  refine roundTrip.of_one rfl fun v0 hw => ?_
  obtain ⟨iw, e0, f0, f1, f2, f3⟩ := shape6 4 g d a i (by decide) v0 (by omega)
  refine ⟨iw, ⟨_, e0, rfl⟩, ?_⟩
  rw [rawOri e0, decodeOri]; rw [bf_eq f0, bf_eq f1, bf_eq f2, bf_eq f3]

theorem roundTrip.xori (g : BitVec 4) (d : BitVec 4) (a : BitVec 4) (i : BitVec 14) : roundTrip.Statement (.xori g d a i) := by
  refine roundTrip.of_one rfl fun v0 hw => ?_
  obtain ⟨iw, e0, f0, f1, f2, f3⟩ := shape6 5 g d a i (by decide) v0 (by omega)
  refine ⟨iw, ⟨_, e0, rfl⟩, ?_⟩
  rw [rawXori e0, decodeXori]; rw [bf_eq f0, bf_eq f1, bf_eq f2, bf_eq f3]

theorem roundTrip.shli (g : BitVec 4) (d : BitVec 4) (a : BitVec 4) (s : BitVec 5) : roundTrip.Statement (.shli g d a s) := by
  refine roundTrip.of_one rfl fun v0 hw => ?_
  obtain ⟨iw, e0, e1, f0, f1, f2, f3⟩ := shape7 6 0 g d a s (by decide) (by decide) v0 (by omega)
  refine ⟨iw, ⟨_, e0, rfl⟩, ?_⟩
  rw [rawShi e0, decodeShi, e1]; rw [bf_eq f0, bf_eq f1, bf_eq f2, bf_eq f3]; rfl

theorem roundTrip.shri (g : BitVec 4) (d : BitVec 4) (a : BitVec 4) (s : BitVec 5) : roundTrip.Statement (.shri g d a s) := by
  refine roundTrip.of_one rfl fun v0 hw => ?_
  obtain ⟨iw, e0, e1, f0, f1, f2, f3⟩ := shape7 6 1 g d a s (by decide) (by decide) v0 (by omega)
  refine ⟨iw, ⟨_, e0, rfl⟩, ?_⟩
  rw [rawShi e0, decodeShi, e1]; rw [bf_eq f0, bf_eq f1, bf_eq f2, bf_eq f3]; rfl

theorem roundTrip.sari (g : BitVec 4) (d : BitVec 4) (a : BitVec 4) (s : BitVec 5) : roundTrip.Statement (.sari g d a s) := by
  refine roundTrip.of_one rfl fun v0 hw => ?_
  obtain ⟨iw, e0, e1, f0, f1, f2, f3⟩ := shape7 6 2 g d a s (by decide) (by decide) v0 (by omega)
  refine ⟨iw, ⟨_, e0, rfl⟩, ?_⟩
  rw [rawShi e0, decodeShi, e1]; rw [bf_eq f0, bf_eq f1, bf_eq f2, bf_eq f3]; rfl

theorem roundTrip.roli (g : BitVec 4) (d : BitVec 4) (a : BitVec 4) (s : BitVec 5) : roundTrip.Statement (.roli g d a s) := by
  refine roundTrip.of_one rfl fun v0 hw => ?_
  obtain ⟨iw, e0, e1, f0, f1, f2, f3⟩ := shape7 6 3 g d a s (by decide) (by decide) v0 (by omega)
  refine ⟨iw, ⟨_, e0, rfl⟩, ?_⟩
  rw [rawShi e0, decodeShi, e1]; rw [bf_eq f0, bf_eq f1, bf_eq f2, bf_eq f3]; rfl

theorem roundTrip.lih (g : BitVec 4) (d : BitVec 4) (i : BitVec 18) : roundTrip.Statement (.lih g d i) := by
  refine roundTrip.of_one rfl fun v0 hw => ?_
  obtain ⟨iw, e0, f0, f1, f2⟩ := shape8 7 g d i (by decide) v0 (by omega)
  refine ⟨iw, ⟨_, e0, rfl⟩, ?_⟩
  rw [rawLih e0, decodeLih]; rw [bf_eq f0, bf_eq f1, bf_eq f2]

theorem roundTrip.cmp (g : BitVec 4) (p : BitVec 3) (z : BitVec 1) (a : BitVec 4) (b : BitVec 4) (c : BitVec 4) : roundTrip.Statement (.cmp g p z a b c) := by
  refine roundTrip.of_one rfl fun v0 hw => ?_
  obtain ⟨iw, e0, c0, f0, f1, f2, f3, f4, f5⟩ := shape9 8 g p z a b c (by decide) v0 (by omega)
  refine ⟨iw, ⟨_, e0, rfl⟩, ?_⟩
  rw [rawCmp e0, decodeCmp]; refine (if_pos c0).trans ?_; rw [bf_eq f0, bf_eq f1, bf_eq f2, bf_eq f3, bf_eq f4, bf_eq f5]

theorem roundTrip.cmpi (g : BitVec 4) (p : BitVec 3) (z : BitVec 1) (a : BitVec 4) (i : BitVec 10) (c : BitVec 4) : roundTrip.Statement (.cmpi g p z a i c) := by
  refine roundTrip.of_one rfl fun v0 hw => ?_
  obtain ⟨iw, e0, f0, f1, f2, f3, f4, f5⟩ := shape10 9 g p z a i c (by decide) v0 (by omega)
  refine ⟨iw, ⟨_, e0, rfl⟩, ?_⟩
  rw [rawCmpi e0, decodeCmpi]; rw [bf_eq f0, bf_eq f1, bf_eq f2, bf_eq f3, bf_eq f4, bf_eq f5]

theorem roundTrip.pand (g : BitVec 4) (p : BitVec 3) (a : BitVec 3) (b : BitVec 3) : roundTrip.Statement (.pand g p a b) := by
  refine roundTrip.of_one rfl fun v0 hw => ?_
  obtain ⟨iw, e0, e1, c0, f0, f1, f2, f3⟩ := shape11 10 0 g p a b (by decide) (by decide) v0 (by omega)
  refine ⟨iw, ⟨_, e0, rfl⟩, ?_⟩
  rw [rawPrd e0, decodePrd, e1]; refine (if_pos c0).trans ?_; rw [bf_eq f0, bf_eq f1, bf_eq f2, bf_eq f3]

theorem roundTrip.por (g : BitVec 4) (p : BitVec 3) (a : BitVec 3) (b : BitVec 3) : roundTrip.Statement (.por g p a b) := by
  refine roundTrip.of_one rfl fun v0 hw => ?_
  obtain ⟨iw, e0, e1, c0, f0, f1, f2, f3⟩ := shape11 10 1 g p a b (by decide) (by decide) v0 (by omega)
  refine ⟨iw, ⟨_, e0, rfl⟩, ?_⟩
  rw [rawPrd e0, decodePrd, e1]; refine (if_pos c0).trans ?_; rw [bf_eq f0, bf_eq f1, bf_eq f2, bf_eq f3]

theorem roundTrip.pxor (g : BitVec 4) (p : BitVec 3) (a : BitVec 3) (b : BitVec 3) : roundTrip.Statement (.pxor g p a b) := by
  refine roundTrip.of_one rfl fun v0 hw => ?_
  obtain ⟨iw, e0, e1, c0, f0, f1, f2, f3⟩ := shape11 10 2 g p a b (by decide) (by decide) v0 (by omega)
  refine ⟨iw, ⟨_, e0, rfl⟩, ?_⟩
  rw [rawPrd e0, decodePrd, e1]; refine (if_pos c0).trans ?_; rw [bf_eq f0, bf_eq f1, bf_eq f2, bf_eq f3]

theorem roundTrip.pandn (g : BitVec 4) (p : BitVec 3) (a : BitVec 3) (b : BitVec 3) : roundTrip.Statement (.pandn g p a b) := by
  refine roundTrip.of_one rfl fun v0 hw => ?_
  obtain ⟨iw, e0, e1, c0, f0, f1, f2, f3⟩ := shape11 10 3 g p a b (by decide) (by decide) v0 (by omega)
  refine ⟨iw, ⟨_, e0, rfl⟩, ?_⟩
  rw [rawPrd e0, decodePrd, e1]; refine (if_pos c0).trans ?_; rw [bf_eq f0, bf_eq f1, bf_eq f2, bf_eq f3]

theorem roundTrip.prdw (g : BitVec 4) (d : BitVec 4) : roundTrip.Statement (.prdw g d) := by
  refine roundTrip.of_one rfl fun v0 hw => ?_
  obtain ⟨iw, e0, e1, c0, f0, f1⟩ := shape12 10 4 g d (by decide) (by decide) v0 (by omega)
  refine ⟨iw, ⟨_, e0, rfl⟩, ?_⟩
  rw [rawPrd e0, decodePrd, e1]; refine (if_pos c0).trans ?_; rw [bf_eq f0, bf_eq f1]

theorem roundTrip.pwrw (g : BitVec 4) (d : BitVec 4) : roundTrip.Statement (.pwrw g d) := by
  refine roundTrip.of_one rfl fun v0 hw => ?_
  obtain ⟨iw, e0, e1, c0, f0, f1⟩ := shape12 10 5 g d (by decide) (by decide) v0 (by omega)
  refine ⟨iw, ⟨_, e0, rfl⟩, ?_⟩
  rw [rawPrd e0, decodePrd, e1]; refine (if_pos c0).trans ?_; rw [bf_eq f0, bf_eq f1]

theorem roundTrip.br (g : BitVec 4) (o : BitVec 22) : roundTrip.Statement (.br g o) := by
  refine roundTrip.of_one rfl fun v0 hw => ?_
  obtain ⟨iw, e0, f0, f1⟩ := shape13 11 g o (by decide) v0 (by omega)
  refine ⟨iw, ⟨_, e0, rfl⟩, ?_⟩
  rw [rawBr e0, decodeBr]; rw [bf_eq f0, bf_eq f1]

theorem roundTrip.brl (g : BitVec 4) (o : BitVec 22) : roundTrip.Statement (.brl g o) := by
  refine roundTrip.of_one rfl fun v0 hw => ?_
  obtain ⟨iw, e0, f0, f1⟩ := shape13 12 g o (by decide) v0 (by omega)
  refine ⟨iw, ⟨_, e0, rfl⟩, ?_⟩
  rw [rawBrl e0, decodeBrl]; rw [bf_eq f0, bf_eq f1]

theorem roundTrip.jr (g : BitVec 4) (a : BitVec 4) : roundTrip.Statement (.jr g a) := by
  refine roundTrip.of_one rfl fun v0 hw => ?_
  obtain ⟨iw, e0, e1, c0, c1, f0, f1⟩ := shape14 13 0 g a (by decide) (by decide) v0 (by omega)
  refine ⟨iw, ⟨_, e0, rfl⟩, ?_⟩
  rw [rawJr e0, decodeJr, e1]; refine (if_pos ⟨c0, c1⟩).trans ?_; rw [bf_eq f0, bf_eq f1]

theorem roundTrip.jrl (g : BitVec 4) (a : BitVec 4) : roundTrip.Statement (.jrl g a) := by
  refine roundTrip.of_one rfl fun v0 hw => ?_
  obtain ⟨iw, e0, e1, c0, c1, f0, f1⟩ := shape14 13 1 g a (by decide) (by decide) v0 (by omega)
  refine ⟨iw, ⟨_, e0, rfl⟩, ?_⟩
  rw [rawJr e0, decodeJr, e1]; refine (if_pos ⟨c0, c1⟩).trans ?_; rw [bf_eq f0, bf_eq f1]

theorem roundTrip.padd (g : BitVec 4) (d : BitVec 3) (a : BitVec 3) (b : BitVec 3) : roundTrip.Statement (.padd g d a b) := by
  refine roundTrip.of_one rfl fun v0 hw => ?_
  obtain ⟨iw, e0, e1, c0, c1, c2, c3, f0, f1, f2, f3⟩ := shape15 14 0 g d a b (by decide) (by decide) v0 (by omega)
  refine ⟨iw, ⟨_, e0, rfl⟩, ?_⟩
  rw [rawPair e0, decodePair, e1]; refine (if_pos ⟨c0, c1, c2, c3⟩).trans ?_; rw [bf_eq f0, bf_eq f1, bf_eq f2, bf_eq f3]

theorem roundTrip.padds (g : BitVec 4) (d : BitVec 3) (a : BitVec 3) (b : BitVec 3) (s : BitVec 3) : roundTrip.Statement (.padds g d a b s) := by
  refine roundTrip.of_one rfl fun v0 hw => ?_
  obtain ⟨iw, e0, e1, c0, c1, c2, c3, f0, f1, f2, f3, f4⟩ := shape16 14 1 g d a b s (by decide) (by decide) v0 (by omega)
  refine ⟨iw, ⟨_, e0, rfl⟩, ?_⟩
  rw [rawPair e0, decodePair, e1]; refine (if_pos ⟨c0, c1, c2, c3⟩).trans ?_; rw [bf_eq f0, bf_eq f1, bf_eq f2, bf_eq f3, bf_eq f4]

theorem roundTrip.paddu (g : BitVec 4) (d : BitVec 3) (a : BitVec 3) (b : BitVec 3) (s : BitVec 3) : roundTrip.Statement (.paddu g d a b s) := by
  refine roundTrip.of_one rfl fun v0 hw => ?_
  obtain ⟨iw, e0, e1, c0, c1, c2, c3, f0, f1, f2, f3, f4⟩ := shape16 14 2 g d a b s (by decide) (by decide) v0 (by omega)
  refine ⟨iw, ⟨_, e0, rfl⟩, ?_⟩
  rw [rawPair e0, decodePair, e1]; refine (if_pos ⟨c0, c1, c2, c3⟩).trans ?_; rw [bf_eq f0, bf_eq f1, bf_eq f2, bf_eq f3, bf_eq f4]

theorem roundTrip.psub (g : BitVec 4) (d : BitVec 3) (a : BitVec 3) (b : BitVec 3) : roundTrip.Statement (.psub g d a b) := by
  refine roundTrip.of_one rfl fun v0 hw => ?_
  obtain ⟨iw, e0, e1, c0, c1, c2, c3, f0, f1, f2, f3⟩ := shape15 14 3 g d a b (by decide) (by decide) v0 (by omega)
  refine ⟨iw, ⟨_, e0, rfl⟩, ?_⟩
  rw [rawPair e0, decodePair, e1]; refine (if_pos ⟨c0, c1, c2, c3⟩).trans ?_; rw [bf_eq f0, bf_eq f1, bf_eq f2, bf_eq f3]

theorem roundTrip.pmov (g : BitVec 4) (d : BitVec 3) (a : BitVec 3) : roundTrip.Statement (.pmov g d a) := by
  refine roundTrip.of_one rfl fun v0 hw => ?_
  obtain ⟨iw, e0, e1, c0, c1, c2, f0, f1, f2⟩ := shape17 14 4 g d a (by decide) (by decide) v0 (by omega)
  refine ⟨iw, ⟨_, e0, rfl⟩, ?_⟩
  rw [rawPair e0, decodePair, e1]; refine (if_pos ⟨c0, c1, c2⟩).trans ?_; rw [bf_eq f0, bf_eq f1, bf_eq f2]

theorem roundTrip.rep (c : BitVec 6) (i : BitVec 3) (j : BitVec 3) (k : BitVec 3) : roundTrip.Statement (.rep c i j k) := by
  refine roundTrip.of_one rfl fun v0 hw => ?_
  obtain ⟨iw, e0, c0, f0, f1, f2, f3⟩ := shape18 15 c i j k (by decide) v0 (by omega)
  refine ⟨iw, ⟨_, e0, rfl⟩, ?_⟩
  rw [rawRep e0, decodeRep]; refine (if_pos c0).trans ?_; rw [bf_eq f0, bf_eq f1, bf_eq f2, bf_eq f3]

theorem roundTrip.ldb (g : BitVec 4) (d : BitVec 4) (bp : BitVec 3) (h : BitVec 5) (off : BitVec 24) : roundTrip.Statement (.ldb g d bp h off) := by
  refine roundTrip.of_two rfl fun v0 v1 hw hv => ?_
  obtain ⟨iw, e0, e1, c0, f0, f1, f2⟩ := shape19 16 0 g d bp (by decide) (by decide) v0 (by omega)
  obtain ⟨iv, d0, g0, g1⟩ := shape20 h off v1 (by omega)
  refine ⟨iw, iv, ⟨_, e0, rfl⟩, ?_⟩
  rw [rawLd e0, decodeLd, e1]; refine (if_pos ⟨c0, d0⟩).trans ?_; rw [bf_eq f0, bf_eq f1, bf_eq f2, bf_eq g0, bf_eq g1]

theorem roundTrip.ldbu (g : BitVec 4) (d : BitVec 4) (bp : BitVec 3) (h : BitVec 5) (off : BitVec 24) : roundTrip.Statement (.ldbu g d bp h off) := by
  refine roundTrip.of_two rfl fun v0 v1 hw hv => ?_
  obtain ⟨iw, e0, e1, c0, f0, f1, f2⟩ := shape19 16 1 g d bp (by decide) (by decide) v0 (by omega)
  obtain ⟨iv, d0, g0, g1⟩ := shape20 h off v1 (by omega)
  refine ⟨iw, iv, ⟨_, e0, rfl⟩, ?_⟩
  rw [rawLd e0, decodeLd, e1]; refine (if_pos ⟨c0, d0⟩).trans ?_; rw [bf_eq f0, bf_eq f1, bf_eq f2, bf_eq g0, bf_eq g1]

theorem roundTrip.ldh (g : BitVec 4) (d : BitVec 4) (bp : BitVec 3) (h : BitVec 5) (off : BitVec 24) : roundTrip.Statement (.ldh g d bp h off) := by
  refine roundTrip.of_two rfl fun v0 v1 hw hv => ?_
  obtain ⟨iw, e0, e1, c0, f0, f1, f2⟩ := shape19 16 2 g d bp (by decide) (by decide) v0 (by omega)
  obtain ⟨iv, d0, g0, g1⟩ := shape20 h off v1 (by omega)
  refine ⟨iw, iv, ⟨_, e0, rfl⟩, ?_⟩
  rw [rawLd e0, decodeLd, e1]; refine (if_pos ⟨c0, d0⟩).trans ?_; rw [bf_eq f0, bf_eq f1, bf_eq f2, bf_eq g0, bf_eq g1]

theorem roundTrip.ldhu (g : BitVec 4) (d : BitVec 4) (bp : BitVec 3) (h : BitVec 5) (off : BitVec 24) : roundTrip.Statement (.ldhu g d bp h off) := by
  refine roundTrip.of_two rfl fun v0 v1 hw hv => ?_
  obtain ⟨iw, e0, e1, c0, f0, f1, f2⟩ := shape19 16 3 g d bp (by decide) (by decide) v0 (by omega)
  obtain ⟨iv, d0, g0, g1⟩ := shape20 h off v1 (by omega)
  refine ⟨iw, iv, ⟨_, e0, rfl⟩, ?_⟩
  rw [rawLd e0, decodeLd, e1]; refine (if_pos ⟨c0, d0⟩).trans ?_; rw [bf_eq f0, bf_eq f1, bf_eq f2, bf_eq g0, bf_eq g1]

theorem roundTrip.ldw (g : BitVec 4) (d : BitVec 4) (bp : BitVec 3) (h : BitVec 5) (off : BitVec 24) : roundTrip.Statement (.ldw g d bp h off) := by
  refine roundTrip.of_two rfl fun v0 v1 hw hv => ?_
  obtain ⟨iw, e0, e1, c0, f0, f1, f2⟩ := shape19 16 4 g d bp (by decide) (by decide) v0 (by omega)
  obtain ⟨iv, d0, g0, g1⟩ := shape20 h off v1 (by omega)
  refine ⟨iw, iv, ⟨_, e0, rfl⟩, ?_⟩
  rw [rawLd e0, decodeLd, e1]; refine (if_pos ⟨c0, d0⟩).trans ?_; rw [bf_eq f0, bf_eq f1, bf_eq f2, bf_eq g0, bf_eq g1]

theorem roundTrip.ldd (g : BitVec 4) (d : BitVec 3) (bp : BitVec 3) (h : BitVec 5) (off : BitVec 24) : roundTrip.Statement (.ldd g d bp h off) := by
  refine roundTrip.of_two rfl fun v0 v1 hw hv => ?_
  obtain ⟨iw, e0, e1, c0, c1, f0, f1, f2⟩ := shape21 16 5 g d bp (by decide) (by decide) v0 (by omega)
  obtain ⟨iv, d0, g0, g1⟩ := shape20 h off v1 (by omega)
  refine ⟨iw, iv, ⟨_, e0, rfl⟩, ?_⟩
  rw [rawLd e0, decodeLd, e1]; refine (if_pos ⟨c0, c1, d0⟩).trans ?_; rw [bf_eq f0, bf_eq f1, bf_eq f2, bf_eq g0, bf_eq g1]

theorem roundTrip.lda (g : BitVec 4) (d : BitVec 4) (bp : BitVec 3) (sc : BitVec 3) (h : BitVec 5) (off : BitVec 24) : roundTrip.Statement (.lda g d bp sc h off) := by
  refine roundTrip.of_two rfl fun v0 v1 hw hv => ?_
  obtain ⟨iw, e0, e1, c0, f0, f1, f2⟩ := shape19 16 6 g d bp (by decide) (by decide) v0 (by omega)
  obtain ⟨iv, g0, g1, g2⟩ := shape22 sc h off v1 (by omega)
  refine ⟨iw, iv, ⟨_, e0, rfl⟩, ?_⟩
  rw [rawLd e0, decodeLd, e1]; refine (if_pos c0).trans ?_; rw [bf_eq f0, bf_eq f1, bf_eq f2, bf_eq g0, bf_eq g1, bf_eq g2]

theorem roundTrip.stb (g : BitVec 4) (d : BitVec 4) (bp : BitVec 3) (h : BitVec 5) (off : BitVec 24) : roundTrip.Statement (.stb g d bp h off) := by
  refine roundTrip.of_two rfl fun v0 v1 hw hv => ?_
  obtain ⟨iw, e0, e1, c0, f0, f1, f2⟩ := shape19 17 0 g d bp (by decide) (by decide) v0 (by omega)
  obtain ⟨iv, d0, g0, g1⟩ := shape20 h off v1 (by omega)
  refine ⟨iw, iv, ⟨_, e0, rfl⟩, ?_⟩
  rw [rawSt e0, decodeSt, e1]; refine (if_pos ⟨c0, d0⟩).trans ?_; rw [bf_eq f0, bf_eq f1, bf_eq f2, bf_eq g0, bf_eq g1]

theorem roundTrip.sth (g : BitVec 4) (d : BitVec 4) (bp : BitVec 3) (h : BitVec 5) (off : BitVec 24) : roundTrip.Statement (.sth g d bp h off) := by
  refine roundTrip.of_two rfl fun v0 v1 hw hv => ?_
  obtain ⟨iw, e0, e1, c0, f0, f1, f2⟩ := shape19 17 1 g d bp (by decide) (by decide) v0 (by omega)
  obtain ⟨iv, d0, g0, g1⟩ := shape20 h off v1 (by omega)
  refine ⟨iw, iv, ⟨_, e0, rfl⟩, ?_⟩
  rw [rawSt e0, decodeSt, e1]; refine (if_pos ⟨c0, d0⟩).trans ?_; rw [bf_eq f0, bf_eq f1, bf_eq f2, bf_eq g0, bf_eq g1]

theorem roundTrip.stw (g : BitVec 4) (d : BitVec 4) (bp : BitVec 3) (h : BitVec 5) (off : BitVec 24) : roundTrip.Statement (.stw g d bp h off) := by
  refine roundTrip.of_two rfl fun v0 v1 hw hv => ?_
  obtain ⟨iw, e0, e1, c0, f0, f1, f2⟩ := shape19 17 2 g d bp (by decide) (by decide) v0 (by omega)
  obtain ⟨iv, d0, g0, g1⟩ := shape20 h off v1 (by omega)
  refine ⟨iw, iv, ⟨_, e0, rfl⟩, ?_⟩
  rw [rawSt e0, decodeSt, e1]; refine (if_pos ⟨c0, d0⟩).trans ?_; rw [bf_eq f0, bf_eq f1, bf_eq f2, bf_eq g0, bf_eq g1]

theorem roundTrip.std (g : BitVec 4) (d : BitVec 3) (bp : BitVec 3) (h : BitVec 5) (off : BitVec 24) : roundTrip.Statement (.std g d bp h off) := by
  refine roundTrip.of_two rfl fun v0 v1 hw hv => ?_
  obtain ⟨iw, e0, e1, c0, c1, f0, f1, f2⟩ := shape21 17 3 g d bp (by decide) (by decide) v0 (by omega)
  obtain ⟨iv, d0, g0, g1⟩ := shape20 h off v1 (by omega)
  refine ⟨iw, iv, ⟨_, e0, rfl⟩, ?_⟩
  rw [rawSt e0, decodeSt, e1]; refine (if_pos ⟨c0, c1, d0⟩).trans ?_; rw [bf_eq f0, bf_eq f1, bf_eq f2, bf_eq g0, bf_eq g1]

theorem roundTrip.str (g : BitVec 4) (d : BitVec 4) (bp : BitVec 3) (sc : BitVec 3) (h : BitVec 5) (off : BitVec 24) : roundTrip.Statement (.str g d bp sc h off) := by
  refine roundTrip.of_two rfl fun v0 v1 hw hv => ?_
  obtain ⟨iw, e0, e1, c0, f0, f1, f2⟩ := shape19 17 4 g d bp (by decide) (by decide) v0 (by omega)
  obtain ⟨iv, g0, g1, g2⟩ := shape22 sc h off v1 (by omega)
  refine ⟨iw, iv, ⟨_, e0, rfl⟩, ?_⟩
  rw [rawSt e0, decodeSt, e1]; refine (if_pos c0).trans ?_; rw [bf_eq f0, bf_eq f1, bf_eq f2, bf_eq g0, bf_eq g1, bf_eq g2]

theorem roundTrip.aadd (g : BitVec 4) (d : BitVec 4) (bp : BitVec 3) (nr : BitVec 1) (sz : BitVec 1) (h : BitVec 5) (off : BitVec 24) : roundTrip.Statement (.aadd g d bp nr sz h off) := by
  refine roundTrip.of_two rfl fun v0 v1 hw hv => ?_
  obtain ⟨iw, e0, e1, c0, f0, f1, f2, f3, f4⟩ := shape23 18 0 g d bp nr sz (by decide) (by decide) v0 (by omega)
  obtain ⟨iv, d0, g0, g1⟩ := shape20 h off v1 (by omega)
  refine ⟨iw, iv, ⟨_, e0, rfl⟩, ?_⟩
  rw [rawAtom e0, decodeAtom, e1]; refine (if_pos ⟨c0, d0⟩).trans ?_; rw [bf_eq f0, bf_eq f1, bf_eq f2, bf_eq f3, bf_eq f4, bf_eq g0, bf_eq g1]

theorem roundTrip.amin (g : BitVec 4) (d : BitVec 4) (bp : BitVec 3) (nr : BitVec 1) (sz : BitVec 1) (h : BitVec 5) (off : BitVec 24) : roundTrip.Statement (.amin g d bp nr sz h off) := by
  refine roundTrip.of_two rfl fun v0 v1 hw hv => ?_
  obtain ⟨iw, e0, e1, c0, f0, f1, f2, f3, f4⟩ := shape23 18 1 g d bp nr sz (by decide) (by decide) v0 (by omega)
  obtain ⟨iv, d0, g0, g1⟩ := shape20 h off v1 (by omega)
  refine ⟨iw, iv, ⟨_, e0, rfl⟩, ?_⟩
  rw [rawAtom e0, decodeAtom, e1]; refine (if_pos ⟨c0, d0⟩).trans ?_; rw [bf_eq f0, bf_eq f1, bf_eq f2, bf_eq f3, bf_eq f4, bf_eq g0, bf_eq g1]

theorem roundTrip.amax (g : BitVec 4) (d : BitVec 4) (bp : BitVec 3) (nr : BitVec 1) (sz : BitVec 1) (h : BitVec 5) (off : BitVec 24) : roundTrip.Statement (.amax g d bp nr sz h off) := by
  refine roundTrip.of_two rfl fun v0 v1 hw hv => ?_
  obtain ⟨iw, e0, e1, c0, f0, f1, f2, f3, f4⟩ := shape23 18 2 g d bp nr sz (by decide) (by decide) v0 (by omega)
  obtain ⟨iv, d0, g0, g1⟩ := shape20 h off v1 (by omega)
  refine ⟨iw, iv, ⟨_, e0, rfl⟩, ?_⟩
  rw [rawAtom e0, decodeAtom, e1]; refine (if_pos ⟨c0, d0⟩).trans ?_; rw [bf_eq f0, bf_eq f1, bf_eq f2, bf_eq f3, bf_eq f4, bf_eq g0, bf_eq g1]

theorem roundTrip.aminu (g : BitVec 4) (d : BitVec 4) (bp : BitVec 3) (nr : BitVec 1) (sz : BitVec 1) (h : BitVec 5) (off : BitVec 24) : roundTrip.Statement (.aminu g d bp nr sz h off) := by
  refine roundTrip.of_two rfl fun v0 v1 hw hv => ?_
  obtain ⟨iw, e0, e1, c0, f0, f1, f2, f3, f4⟩ := shape23 18 3 g d bp nr sz (by decide) (by decide) v0 (by omega)
  obtain ⟨iv, d0, g0, g1⟩ := shape20 h off v1 (by omega)
  refine ⟨iw, iv, ⟨_, e0, rfl⟩, ?_⟩
  rw [rawAtom e0, decodeAtom, e1]; refine (if_pos ⟨c0, d0⟩).trans ?_; rw [bf_eq f0, bf_eq f1, bf_eq f2, bf_eq f3, bf_eq f4, bf_eq g0, bf_eq g1]

theorem roundTrip.amaxu (g : BitVec 4) (d : BitVec 4) (bp : BitVec 3) (nr : BitVec 1) (sz : BitVec 1) (h : BitVec 5) (off : BitVec 24) : roundTrip.Statement (.amaxu g d bp nr sz h off) := by
  refine roundTrip.of_two rfl fun v0 v1 hw hv => ?_
  obtain ⟨iw, e0, e1, c0, f0, f1, f2, f3, f4⟩ := shape23 18 4 g d bp nr sz (by decide) (by decide) v0 (by omega)
  obtain ⟨iv, d0, g0, g1⟩ := shape20 h off v1 (by omega)
  refine ⟨iw, iv, ⟨_, e0, rfl⟩, ?_⟩
  rw [rawAtom e0, decodeAtom, e1]; refine (if_pos ⟨c0, d0⟩).trans ?_; rw [bf_eq f0, bf_eq f1, bf_eq f2, bf_eq f3, bf_eq f4, bf_eq g0, bf_eq g1]

theorem roundTrip.aand (g : BitVec 4) (d : BitVec 4) (bp : BitVec 3) (nr : BitVec 1) (sz : BitVec 1) (h : BitVec 5) (off : BitVec 24) : roundTrip.Statement (.aand g d bp nr sz h off) := by
  refine roundTrip.of_two rfl fun v0 v1 hw hv => ?_
  obtain ⟨iw, e0, e1, c0, f0, f1, f2, f3, f4⟩ := shape23 18 5 g d bp nr sz (by decide) (by decide) v0 (by omega)
  obtain ⟨iv, d0, g0, g1⟩ := shape20 h off v1 (by omega)
  refine ⟨iw, iv, ⟨_, e0, rfl⟩, ?_⟩
  rw [rawAtom e0, decodeAtom, e1]; refine (if_pos ⟨c0, d0⟩).trans ?_; rw [bf_eq f0, bf_eq f1, bf_eq f2, bf_eq f3, bf_eq f4, bf_eq g0, bf_eq g1]

theorem roundTrip.aor (g : BitVec 4) (d : BitVec 4) (bp : BitVec 3) (nr : BitVec 1) (sz : BitVec 1) (h : BitVec 5) (off : BitVec 24) : roundTrip.Statement (.aor g d bp nr sz h off) := by
  refine roundTrip.of_two rfl fun v0 v1 hw hv => ?_
  obtain ⟨iw, e0, e1, c0, f0, f1, f2, f3, f4⟩ := shape23 18 6 g d bp nr sz (by decide) (by decide) v0 (by omega)
  obtain ⟨iv, d0, g0, g1⟩ := shape20 h off v1 (by omega)
  refine ⟨iw, iv, ⟨_, e0, rfl⟩, ?_⟩
  rw [rawAtom e0, decodeAtom, e1]; refine (if_pos ⟨c0, d0⟩).trans ?_; rw [bf_eq f0, bf_eq f1, bf_eq f2, bf_eq f3, bf_eq f4, bf_eq g0, bf_eq g1]

theorem roundTrip.axor (g : BitVec 4) (d : BitVec 4) (bp : BitVec 3) (nr : BitVec 1) (sz : BitVec 1) (h : BitVec 5) (off : BitVec 24) : roundTrip.Statement (.axor g d bp nr sz h off) := by
  refine roundTrip.of_two rfl fun v0 v1 hw hv => ?_
  obtain ⟨iw, e0, e1, c0, f0, f1, f2, f3, f4⟩ := shape23 18 7 g d bp nr sz (by decide) (by decide) v0 (by omega)
  obtain ⟨iv, d0, g0, g1⟩ := shape20 h off v1 (by omega)
  refine ⟨iw, iv, ⟨_, e0, rfl⟩, ?_⟩
  rw [rawAtom e0, decodeAtom, e1]; refine (if_pos ⟨c0, d0⟩).trans ?_; rw [bf_eq f0, bf_eq f1, bf_eq f2, bf_eq f3, bf_eq f4, bf_eq g0, bf_eq g1]

theorem roundTrip.aswp (g : BitVec 4) (d : BitVec 4) (bp : BitVec 3) (nr : BitVec 1) (sz : BitVec 1) (h : BitVec 5) (off : BitVec 24) : roundTrip.Statement (.aswp g d bp nr sz h off) := by
  refine roundTrip.of_two rfl fun v0 v1 hw hv => ?_
  obtain ⟨iw, e0, e1, c0, f0, f1, f2, f3, f4⟩ := shape23 18 8 g d bp nr sz (by decide) (by decide) v0 (by omega)
  obtain ⟨iv, d0, g0, g1⟩ := shape20 h off v1 (by omega)
  refine ⟨iw, iv, ⟨_, e0, rfl⟩, ?_⟩
  rw [rawAtom e0, decodeAtom, e1]; refine (if_pos ⟨c0, d0⟩).trans ?_; rw [bf_eq f0, bf_eq f1, bf_eq f2, bf_eq f3, bf_eq f4, bf_eq g0, bf_eq g1]

theorem roundTrip.acas (g : BitVec 4) (d : BitVec 4) (bp : BitVec 3) (nr : BitVec 1) (sz : BitVec 1) (h : BitVec 5) (off : BitVec 24) : roundTrip.Statement (.acas g d bp nr sz h off) := by
  refine roundTrip.of_two rfl fun v0 v1 hw hv => ?_
  obtain ⟨iw, e0, e1, c0, f0, f1, f2, f3, f4⟩ := shape23 18 9 g d bp nr sz (by decide) (by decide) v0 (by omega)
  obtain ⟨iv, d0, g0, g1⟩ := shape20 h off v1 (by omega)
  refine ⟨iw, iv, ⟨_, e0, rfl⟩, ?_⟩
  rw [rawAtom e0, decodeAtom, e1]; refine (if_pos ⟨c0, d0⟩).trans ?_; rw [bf_eq f0, bf_eq f1, bf_eq f2, bf_eq f3, bf_eq f4, bf_eq g0, bf_eq g1]

theorem roundTrip.aaddf (g : BitVec 4) (d : BitVec 4) (bp : BitVec 3) (nr : BitVec 1) (h : BitVec 5) (off : BitVec 24) : roundTrip.Statement (.aaddf g d bp nr h off) := by
  refine roundTrip.of_two rfl fun v0 v1 hw hv => ?_
  obtain ⟨iw, e0, e1, c0, f0, f1, f2, f3⟩ := shape24 18 10 g d bp nr (by decide) (by decide) v0 (by omega)
  obtain ⟨iv, d0, g0, g1⟩ := shape20 h off v1 (by omega)
  refine ⟨iw, iv, ⟨_, e0, rfl⟩, ?_⟩
  rw [rawAtom e0, decodeAtom, e1]; refine (if_pos ⟨c0, d0⟩).trans ?_; rw [bf_eq f0, bf_eq f1, bf_eq f2, bf_eq f3, bf_eq g0, bf_eq g1]

theorem roundTrip.ldtL (g : BitVec 4) (d : BitVec 4) (bp : BitVec 3) (h : BitVec 5) (off : BitVec 24) : roundTrip.Statement (.ldtL g d bp h off) := by
  refine roundTrip.of_two rfl fun v0 v1 hw hv => ?_
  obtain ⟨iw, e0, e1, c0, f0, f1, f2⟩ := shape19 19 0 g d bp (by decide) (by decide) v0 (by omega)
  obtain ⟨iv, d0, g0, g1⟩ := shape20 h off v1 (by omega)
  refine ⟨iw, iv, ⟨_, e0, rfl⟩, ?_⟩
  rw [rawLdt e0, decodeLdt, e1]; refine (if_pos ⟨c0, d0⟩).trans ?_; rw [bf_eq f0, bf_eq f1, bf_eq f2, bf_eq g0, bf_eq g1]

theorem roundTrip.ldtQ (g : BitVec 4) (d : BitVec 4) (bp : BitVec 3) (h : BitVec 5) (off : BitVec 24) : roundTrip.Statement (.ldtQ g d bp h off) := by
  refine roundTrip.of_two rfl fun v0 v1 hw hv => ?_
  obtain ⟨iw, e0, e1, c0, f0, f1, f2⟩ := shape19 19 1 g d bp (by decide) (by decide) v0 (by omega)
  obtain ⟨iv, d0, g0, g1⟩ := shape20 h off v1 (by omega)
  refine ⟨iw, iv, ⟨_, e0, rfl⟩, ?_⟩
  rw [rawLdt e0, decodeLdt, e1]; refine (if_pos ⟨c0, d0⟩).trans ?_; rw [bf_eq f0, bf_eq f1, bf_eq f2, bf_eq g0, bf_eq g1]

theorem roundTrip.ldtS (g : BitVec 4) (d : BitVec 4) (bp : BitVec 3) (h : BitVec 5) (off : BitVec 24) : roundTrip.Statement (.ldtS g d bp h off) := by
  refine roundTrip.of_two rfl fun v0 v1 hw hv => ?_
  obtain ⟨iw, e0, e1, c0, f0, f1, f2⟩ := shape19 19 2 g d bp (by decide) (by decide) v0 (by omega)
  obtain ⟨iv, d0, g0, g1⟩ := shape20 h off v1 (by omega)
  refine ⟨iw, iv, ⟨_, e0, rfl⟩, ?_⟩
  rw [rawLdt e0, decodeLdt, e1]; refine (if_pos ⟨c0, d0⟩).trans ?_; rw [bf_eq f0, bf_eq f1, bf_eq f2, bf_eq g0, bf_eq g1]

theorem roundTrip.ldtC (g : BitVec 4) (d : BitVec 4) (bp : BitVec 3) (cw : BitVec 2) (h : BitVec 5) (off : BitVec 24) : roundTrip.Statement (.ldtC g d bp cw h off) := by
  refine roundTrip.of_two rfl fun v0 v1 hw hv => ?_
  obtain ⟨iw, e0, e1, c0, f0, f1, f2, f3⟩ := shape25 19 3 g d bp cw (by decide) (by decide) v0 (by omega)
  obtain ⟨iv, d0, g0, g1⟩ := shape20 h off v1 (by omega)
  refine ⟨iw, iv, ⟨_, e0, rfl⟩, ?_⟩
  rw [rawLdt e0, decodeLdt, e1]; refine (if_pos ⟨c0, d0⟩).trans ?_; rw [bf_eq f0, bf_eq f1, bf_eq f2, bf_eq f3, bf_eq g0, bf_eq g1]

theorem roundTrip.rdmv (g : BitVec 4) (v : BitVec 6) (a : BitVec 4) : roundTrip.Statement (.rdmv g v a) := by
  refine roundTrip.of_one rfl fun v0 hw => ?_
  obtain ⟨iw, e0, e1, c0, c1, f0, f1, f2⟩ := shape26 20 0 g v a (by decide) (by decide) v0 (by omega)
  refine ⟨iw, ⟨_, e0, rfl⟩, ?_⟩
  rw [rawTkt e0, decodeTkt, e1]; refine (if_pos ⟨c0, c1⟩).trans ?_; rw [bf_eq f0, bf_eq f1, bf_eq f2]

theorem roundTrip.rdms (g : BitVec 4) (a : BitVec 4) (b : BitVec 3) : roundTrip.Statement (.rdms g a b) := by
  refine roundTrip.of_one rfl fun v0 hw => ?_
  obtain ⟨iw, e0, e1, c0, f0, f1, f2⟩ := shape27 20 1 g a b (by decide) (by decide) v0 (by omega)
  refine ⟨iw, ⟨_, e0, rfl⟩, ?_⟩
  rw [rawTkt e0, decodeTkt, e1]; refine (if_pos c0).trans ?_; rw [bf_eq f0, bf_eq f1, bf_eq f2]

theorem roundTrip.tkdrop (g : BitVec 4) (a : BitVec 4) : roundTrip.Statement (.tkdrop g a) := by
  refine roundTrip.of_one rfl fun v0 hw => ?_
  obtain ⟨iw, e0, e1, c0, c1, f0, f1⟩ := shape28 20 2 g a (by decide) (by decide) v0 (by omega)
  refine ⟨iw, ⟨_, e0, rfl⟩, ?_⟩
  rw [rawTkt e0, decodeTkt, e1]; refine (if_pos ⟨c0, c1⟩).trans ?_; rw [bf_eq f0, bf_eq f1]

theorem roundTrip.tktst (g : BitVec 4) (p : BitVec 3) (a : BitVec 4) : roundTrip.Statement (.tktst g p a) := by
  refine roundTrip.of_one rfl fun v0 hw => ?_
  obtain ⟨iw, e0, e1, c0, c1, f0, f1, f2⟩ := shape29 20 3 g p a (by decide) (by decide) v0 (by omega)
  refine ⟨iw, ⟨_, e0, rfl⟩, ?_⟩
  rw [rawTkt e0, decodeTkt, e1]; refine (if_pos ⟨c0, c1⟩).trans ?_; rw [bf_eq f0, bf_eq f1, bf_eq f2]

theorem roundTrip.rdmw (g : BitVec 4) : roundTrip.Statement (.rdmw g) := by
  refine roundTrip.of_one rfl fun v0 hw => ?_
  obtain ⟨iw, e0, e1, c0, f0⟩ := shape30 20 4 g (by decide) (by decide) v0 (by omega)
  refine ⟨iw, ⟨_, e0, rfl⟩, ?_⟩
  rw [rawTkt e0, decodeTkt, e1]; refine (if_pos c0).trans ?_; rw [bf_eq f0]

theorem roundTrip.fence (g : BitVec 4) (s : BitVec 3) : roundTrip.Statement (.fence g s) := by
  refine roundTrip.of_one rfl fun v0 hw => ?_
  obtain ⟨iw, e0, e1, c0, f0, f1⟩ := shape31 21 0 g s (by decide) (by decide) v0 (by omega)
  refine ⟨iw, ⟨_, e0, rfl⟩, ?_⟩
  rw [rawOrd e0, decodeOrd, e1]; refine (if_pos c0).trans ?_; rw [bf_eq f0, bf_eq f1]

theorem roundTrip.fencee (g : BitVec 4) (s : BitVec 3) : roundTrip.Statement (.fencee g s) := by
  refine roundTrip.of_one rfl fun v0 hw => ?_
  obtain ⟨iw, e0, e1, c0, f0, f1⟩ := shape31 21 1 g s (by decide) (by decide) v0 (by omega)
  refine ⟨iw, ⟨_, e0, rfl⟩, ?_⟩
  rw [rawOrd e0, decodeOrd, e1]; refine (if_pos c0).trans ?_; rw [bf_eq f0, bf_eq f1]

theorem roundTrip.acq (g : BitVec 4) (s : BitVec 3) : roundTrip.Statement (.acq g s) := by
  refine roundTrip.of_one rfl fun v0 hw => ?_
  obtain ⟨iw, e0, e1, c0, f0, f1⟩ := shape31 21 2 g s (by decide) (by decide) v0 (by omega)
  refine ⟨iw, ⟨_, e0, rfl⟩, ?_⟩
  rw [rawOrd e0, decodeOrd, e1]; refine (if_pos c0).trans ?_; rw [bf_eq f0, bf_eq f1]

theorem roundTrip.rel (g : BitVec 4) (s : BitVec 3) : roundTrip.Statement (.rel g s) := by
  refine roundTrip.of_one rfl fun v0 hw => ?_
  obtain ⟨iw, e0, e1, c0, f0, f1⟩ := shape31 21 3 g s (by decide) (by decide) v0 (by omega)
  refine ⟨iw, ⟨_, e0, rfl⟩, ?_⟩
  rw [rawOrd e0, decodeOrd, e1]; refine (if_pos c0).trans ?_; rw [bf_eq f0, bf_eq f1]

theorem roundTrip.send (g : BitVec 4) (a : BitVec 4) (b : BitVec 2) : roundTrip.Statement (.send g a b) := by
  refine roundTrip.of_one rfl fun v0 hw => ?_
  obtain ⟨iw, e0, e1, c0, c1, f0, f1, f2⟩ := shape32 22 0 g a b (by decide) (by decide) v0 (by omega)
  refine ⟨iw, ⟨_, e0, rfl⟩, ?_⟩
  rw [rawMsg e0, decodeMsg, e1]; refine (if_pos ⟨c0, c1⟩).trans ?_; rw [bf_eq f0, bf_eq f1, bf_eq f2]

theorem roundTrip.waitm (g : BitVec 4) (d : BitVec 2) (c : BitVec 4) : roundTrip.Statement (.waitm g d c) := by
  refine roundTrip.of_one rfl fun v0 hw => ?_
  obtain ⟨iw, e0, e1, c0, f0, f1, f2⟩ := shape33 22 1 g d c (by decide) (by decide) v0 (by omega)
  refine ⟨iw, ⟨_, e0, rfl⟩, ?_⟩
  rw [rawMsg e0, decodeMsg, e1]; refine (if_pos c0).trans ?_; rw [bf_eq f0, bf_eq f1, bf_eq f2]

theorem roundTrip.pollm (g : BitVec 4) (d : BitVec 2) (a : BitVec 4) (c : BitVec 4) : roundTrip.Statement (.pollm g d a c) := by
  refine roundTrip.of_one rfl fun v0 hw => ?_
  obtain ⟨iw, e0, e1, c0, f0, f1, f2, f3⟩ := shape34 22 2 g d a c (by decide) (by decide) v0 (by omega)
  refine ⟨iw, ⟨_, e0, rfl⟩, ?_⟩
  rw [rawMsg e0, decodeMsg, e1]; refine (if_pos c0).trans ?_; rw [bf_eq f0, bf_eq f1, bf_eq f2, bf_eq f3]

theorem roundTrip.mbind (g : BitVec 4) (a : BitVec 4) (c : BitVec 4) : roundTrip.Statement (.mbind g a c) := by
  refine roundTrip.of_one rfl fun v0 hw => ?_
  obtain ⟨iw, e0, e1, c0, f0, f1, f2⟩ := shape35 22 3 g a c (by decide) (by decide) v0 (by omega)
  refine ⟨iw, ⟨_, e0, rfl⟩, ?_⟩
  rw [rawMsg e0, decodeMsg, e1]; refine (if_pos c0).trans ?_; rw [bf_eq f0, bf_eq f1, bf_eq f2]

theorem roundTrip.munbind (g : BitVec 4) (c : BitVec 4) : roundTrip.Statement (.munbind g c) := by
  refine roundTrip.of_one rfl fun v0 hw => ?_
  obtain ⟨iw, e0, e1, c0, f0, f1⟩ := shape36 22 4 g c (by decide) (by decide) v0 (by omega)
  refine ⟨iw, ⟨_, e0, rfl⟩, ?_⟩
  rw [rawMsg e0, decodeMsg, e1]; refine (if_pos c0).trans ?_; rw [bf_eq f0, bf_eq f1]

theorem roundTrip.bar (g : BitVec 4) (m : BitVec 2) : roundTrip.Statement (.bar g m) := by
  refine roundTrip.of_one rfl fun v0 hw => ?_
  obtain ⟨iw, e0, e1, c0, c1, f0, f1⟩ := shape37 23 0 g m (by decide) (by decide) v0 (by omega)
  refine ⟨iw, ⟨_, e0, rfl⟩, ?_⟩
  rw [rawGrp e0, decodeGrp, e1]; refine (if_pos ⟨c0, c1⟩).trans ?_; rw [bf_eq f0, bf_eq f1]

theorem roundTrip.barx (g : BitVec 4) (d : BitVec 4) (a : BitVec 4) (m : BitVec 2) (r : BitVec 3) : roundTrip.Statement (.barx g d a m r) := by
  refine roundTrip.of_one rfl fun v0 hw => ?_
  obtain ⟨iw, e0, e1, c0, c1, f0, f1, f2, f3, f4⟩ := shape38 23 1 g d a m r (by decide) (by decide) v0 (by omega)
  refine ⟨iw, ⟨_, e0, rfl⟩, ?_⟩
  rw [rawGrp e0, decodeGrp, e1]; refine (if_pos ⟨c0, c1⟩).trans ?_; rw [bf_eq f0, bf_eq f1, bf_eq f2, bf_eq f3, bf_eq f4]

theorem roundTrip.garv (g : BitVec 4) (d : BitVec 4) (m : BitVec 2) : roundTrip.Statement (.garv g d m) := by
  refine roundTrip.of_one rfl fun v0 hw => ?_
  obtain ⟨iw, e0, e1, c0, c1, f0, f1, f2⟩ := shape39 23 2 g d m (by decide) (by decide) v0 (by omega)
  refine ⟨iw, ⟨_, e0, rfl⟩, ?_⟩
  rw [rawGrp e0, decodeGrp, e1]; refine (if_pos ⟨c0, c1⟩).trans ?_; rw [bf_eq f0, bf_eq f1, bf_eq f2]

theorem roundTrip.gwt (g : BitVec 4) (a : BitVec 4) (m : BitVec 2) : roundTrip.Statement (.gwt g a m) := by
  refine roundTrip.of_one rfl fun v0 hw => ?_
  obtain ⟨iw, e0, e1, c0, c1, c2, f0, f1, f2⟩ := shape40 23 3 g a m (by decide) (by decide) v0 (by omega)
  refine ⟨iw, ⟨_, e0, rfl⟩, ?_⟩
  rw [rawGrp e0, decodeGrp, e1]; refine (if_pos ⟨c0, c1, c2⟩).trans ?_; rw [bf_eq f0, bf_eq f1, bf_eq f2]

theorem roundTrip.enqm (g : BitVec 4) (d : BitVec 4) (v : BitVec 6) : roundTrip.Statement (.enqm g d v) := by
  refine roundTrip.of_one rfl fun v0 hw => ?_
  obtain ⟨iw, e0, e1, c0, f0, f1, f2⟩ := shape41 24 0 g d v (by decide) (by decide) v0 (by omega)
  refine ⟨iw, ⟨_, e0, rfl⟩, ?_⟩
  rw [rawEnq e0, decodeEnq, e1]; refine (if_pos c0).trans ?_; rw [bf_eq f0, bf_eq f1, bf_eq f2]

theorem roundTrip.enqmR (g : BitVec 4) (d : BitVec 4) (v : BitVec 6) : roundTrip.Statement (.enqmR g d v) := by
  refine roundTrip.of_one rfl fun v0 hw => ?_
  obtain ⟨iw, e0, e1, c0, f0, f1, f2⟩ := shape41 24 8 g d v (by decide) (by decide) v0 (by omega)
  refine ⟨iw, ⟨_, e0, rfl⟩, ?_⟩
  rw [rawEnq e0, decodeEnq, e1]; refine (if_pos c0).trans ?_; rw [bf_eq f0, bf_eq f1, bf_eq f2]

theorem roundTrip.enqc (g : BitVec 4) (d : BitVec 4) (v : BitVec 6) : roundTrip.Statement (.enqc g d v) := by
  refine roundTrip.of_one rfl fun v0 hw => ?_
  obtain ⟨iw, e0, e1, c0, f0, f1, f2⟩ := shape41 24 1 g d v (by decide) (by decide) v0 (by omega)
  refine ⟨iw, ⟨_, e0, rfl⟩, ?_⟩
  rw [rawEnq e0, decodeEnq, e1]; refine (if_pos c0).trans ?_; rw [bf_eq f0, bf_eq f1, bf_eq f2]

theorem roundTrip.enqcR (g : BitVec 4) (d : BitVec 4) (v : BitVec 6) : roundTrip.Statement (.enqcR g d v) := by
  refine roundTrip.of_one rfl fun v0 hw => ?_
  obtain ⟨iw, e0, e1, c0, f0, f1, f2⟩ := shape41 24 9 g d v (by decide) (by decide) v0 (by omega)
  refine ⟨iw, ⟨_, e0, rfl⟩, ?_⟩
  rw [rawEnq e0, decodeEnq, e1]; refine (if_pos c0).trans ?_; rw [bf_eq f0, bf_eq f1, bf_eq f2]

theorem roundTrip.mwait (g : BitVec 4) (d : BitVec 4) (s : BitVec 4) : roundTrip.Statement (.mwait g d s) := by
  refine roundTrip.of_one rfl fun v0 hw => ?_
  obtain ⟨iw, e0, e1, c0, f0, f1, f2⟩ := shape42 24 2 g d s (by decide) (by decide) v0 (by omega)
  refine ⟨iw, ⟨_, e0, rfl⟩, ?_⟩
  rw [rawEnq e0, decodeEnq, e1]; refine (if_pos c0).trans ?_; rw [bf_eq f0, bf_eq f1, bf_eq f2]

theorem roundTrip.cwait (g : BitVec 4) (s : BitVec 4) : roundTrip.Statement (.cwait g s) := by
  refine roundTrip.of_one rfl fun v0 hw => ?_
  obtain ⟨iw, e0, e1, c0, f0, f1⟩ := shape43 24 3 g s (by decide) (by decide) v0 (by omega)
  refine ⟨iw, ⟨_, e0, rfl⟩, ?_⟩
  rw [rawEnq e0, decodeEnq, e1]; refine (if_pos c0).trans ?_; rw [bf_eq f0, bf_eq f1]

theorem roundTrip.cstat (g : BitVec 4) (d : BitVec 4) (s : BitVec 4) : roundTrip.Statement (.cstat g d s) := by
  refine roundTrip.of_one rfl fun v0 hw => ?_
  obtain ⟨iw, e0, e1, c0, f0, f1, f2⟩ := shape42 24 4 g d s (by decide) (by decide) v0 (by omega)
  refine ⟨iw, ⟨_, e0, rfl⟩, ?_⟩
  rw [rawEnq e0, decodeEnq, e1]; refine (if_pos c0).trans ?_; rw [bf_eq f0, bf_eq f1, bf_eq f2]

theorem roundTrip.csrr (g : BitVec 4) (d : BitVec 4) (c : BitVec 12) : roundTrip.Statement (.csrr g d c) := by
  refine roundTrip.of_one rfl fun v0 hw => ?_
  obtain ⟨iw, e0, e1, c0, f0, f1, f2⟩ := shape44 25 0 g d c (by decide) (by decide) v0 (by omega)
  refine ⟨iw, ⟨_, e0, rfl⟩, ?_⟩
  rw [rawCsr e0, decodeCsr, e1]; refine (if_pos c0).trans ?_; rw [bf_eq f0, bf_eq f1, bf_eq f2]

theorem roundTrip.csrw (g : BitVec 4) (a : BitVec 4) (c : BitVec 12) : roundTrip.Statement (.csrw g a c) := by
  refine roundTrip.of_one rfl fun v0 hw => ?_
  obtain ⟨iw, e0, e1, c0, f0, f1, f2⟩ := shape45 25 1 g a c (by decide) (by decide) v0 (by omega)
  refine ⟨iw, ⟨_, e0, rfl⟩, ?_⟩
  rw [rawCsr e0, decodeCsr, e1]; refine (if_pos c0).trans ?_; rw [bf_eq f0, bf_eq f1, bf_eq f2]

theorem roundTrip.csrs (g : BitVec 4) (d : BitVec 4) (a : BitVec 4) (c : BitVec 12) : roundTrip.Statement (.csrs g d a c) := by
  refine roundTrip.of_one rfl fun v0 hw => ?_
  obtain ⟨iw, e0, e1, f0, f1, f2, f3⟩ := shape46 25 2 g d a c (by decide) (by decide) v0 (by omega)
  refine ⟨iw, ⟨_, e0, rfl⟩, ?_⟩
  rw [rawCsr e0, decodeCsr, e1]; rw [bf_eq f0, bf_eq f1, bf_eq f2, bf_eq f3]; rfl

theorem roundTrip.csrc (g : BitVec 4) (d : BitVec 4) (a : BitVec 4) (c : BitVec 12) : roundTrip.Statement (.csrc g d a c) := by
  refine roundTrip.of_one rfl fun v0 hw => ?_
  obtain ⟨iw, e0, e1, f0, f1, f2, f3⟩ := shape46 25 3 g d a c (by decide) (by decide) v0 (by omega)
  refine ⟨iw, ⟨_, e0, rfl⟩, ?_⟩
  rw [rawCsr e0, decodeCsr, e1]; rw [bf_eq f0, bf_eq f1, bf_eq f2, bf_eq f3]; rfl

theorem roundTrip.tjins (g : BitVec 4) (d : BitVec 4) (a : BitVec 4) (b : BitVec 4) : roundTrip.Statement (.tjins g d a b) := by
  refine roundTrip.of_one rfl fun v0 hw => ?_
  obtain ⟨iw, e0, e1, f0, f1, f2, f3⟩ := shape4 26 0 g d a b (by decide) (by decide) v0 (by omega)
  refine ⟨iw, ⟨_, e0, rfl⟩, ?_⟩
  rw [rawTj e0, decodeTj, e1]; rw [bf_eq f0, bf_eq f1, bf_eq f2, bf_eq f3]; rfl

theorem roundTrip.tjsmp (g : BitVec 4) (d : BitVec 4) (a : BitVec 4) (b : BitVec 4) : roundTrip.Statement (.tjsmp g d a b) := by
  refine roundTrip.of_one rfl fun v0 hw => ?_
  obtain ⟨iw, e0, e1, f0, f1, f2, f3⟩ := shape4 26 1 g d a b (by decide) (by decide) v0 (by omega)
  refine ⟨iw, ⟨_, e0, rfl⟩, ?_⟩
  rw [rawTj e0, decodeTj, e1]; rw [bf_eq f0, bf_eq f1, bf_eq f2, bf_eq f3]; rfl

theorem roundTrip.tjpri (g : BitVec 4) (d : BitVec 4) (a : BitVec 4) (b : BitVec 4) : roundTrip.Statement (.tjpri g d a b) := by
  refine roundTrip.of_one rfl fun v0 hw => ?_
  obtain ⟨iw, e0, e1, f0, f1, f2, f3⟩ := shape4 26 2 g d a b (by decide) (by decide) v0 (by omega)
  refine ⟨iw, ⟨_, e0, rfl⟩, ?_⟩
  rw [rawTj e0, decodeTj, e1]; rw [bf_eq f0, bf_eq f1, bf_eq f2, bf_eq f3]; rfl

theorem roundTrip.tjevt (g : BitVec 4) (d : BitVec 4) (a : BitVec 4) (b : BitVec 4) : roundTrip.Statement (.tjevt g d a b) := by
  refine roundTrip.of_one rfl fun v0 hw => ?_
  obtain ⟨iw, e0, e1, f0, f1, f2, f3⟩ := shape4 26 3 g d a b (by decide) (by decide) v0 (by omega)
  refine ⟨iw, ⟨_, e0, rfl⟩, ?_⟩
  rw [rawTj e0, decodeTj, e1]; rw [bf_eq f0, bf_eq f1, bf_eq f2, bf_eq f3]; rfl

theorem roundTrip.tjver (g : BitVec 4) (d : BitVec 4) (a : BitVec 4) (b : BitVec 4) : roundTrip.Statement (.tjver g d a b) := by
  refine roundTrip.of_one rfl fun v0 hw => ?_
  obtain ⟨iw, e0, e1, f0, f1, f2, f3⟩ := shape4 26 4 g d a b (by decide) (by decide) v0 (by omega)
  refine ⟨iw, ⟨_, e0, rfl⟩, ?_⟩
  rw [rawTj e0, decodeTj, e1]; rw [bf_eq f0, bf_eq f1, bf_eq f2, bf_eq f3]; rfl

theorem roundTrip.tjqry (g : BitVec 4) (d : BitVec 4) (a : BitVec 4) (b : BitVec 4) : roundTrip.Statement (.tjqry g d a b) := by
  refine roundTrip.of_one rfl fun v0 hw => ?_
  obtain ⟨iw, e0, e1, f0, f1, f2, f3⟩ := shape4 26 5 g d a b (by decide) (by decide) v0 (by omega)
  refine ⟨iw, ⟨_, e0, rfl⟩, ?_⟩
  rw [rawTj e0, decodeTj, e1]; rw [bf_eq f0, bf_eq f1, bf_eq f2, bf_eq f3]; rfl

theorem roundTrip.tjget (g : BitVec 4) (d : BitVec 4) (a : BitVec 4) (b : BitVec 4) : roundTrip.Statement (.tjget g d a b) := by
  refine roundTrip.of_one rfl fun v0 hw => ?_
  obtain ⟨iw, e0, e1, f0, f1, f2, f3⟩ := shape4 26 6 g d a b (by decide) (by decide) v0 (by omega)
  refine ⟨iw, ⟨_, e0, rfl⟩, ?_⟩
  rw [rawTj e0, decodeTj, e1]; rw [bf_eq f0, bf_eq f1, bf_eq f2, bf_eq f3]; rfl

theorem roundTrip.axpush (g : BitVec 4) (d : BitVec 4) (a : BitVec 3) (b : BitVec 4) : roundTrip.Statement (.axpush g d a b) := by
  refine roundTrip.of_one rfl fun v0 hw => ?_
  obtain ⟨iw, e0, e1, c0, f0, f1, f2, f3⟩ := shape47 27 0 g d a b (by decide) (by decide) v0 (by omega)
  refine ⟨iw, ⟨_, e0, rfl⟩, ?_⟩
  rw [rawAx e0, decodeAx, e1]; refine (if_pos c0).trans ?_; rw [bf_eq f0, bf_eq f1, bf_eq f2, bf_eq f3]

theorem roundTrip.axpop (g : BitVec 4) (d : BitVec 4) (a : BitVec 3) (b : BitVec 4) : roundTrip.Statement (.axpop g d a b) := by
  refine roundTrip.of_one rfl fun v0 hw => ?_
  obtain ⟨iw, e0, e1, c0, f0, f1, f2, f3⟩ := shape47 27 1 g d a b (by decide) (by decide) v0 (by omega)
  refine ⟨iw, ⟨_, e0, rfl⟩, ?_⟩
  rw [rawAx e0, decodeAx, e1]; refine (if_pos c0).trans ?_; rw [bf_eq f0, bf_eq f1, bf_eq f2, bf_eq f3]

theorem roundTrip.axdepth (g : BitVec 4) (d : BitVec 4) (a : BitVec 4) (b : BitVec 4) : roundTrip.Statement (.axdepth g d a b) := by
  refine roundTrip.of_one rfl fun v0 hw => ?_
  obtain ⟨iw, e0, e1, f0, f1, f2, f3⟩ := shape4 27 2 g d a b (by decide) (by decide) v0 (by omega)
  refine ⟨iw, ⟨_, e0, rfl⟩, ?_⟩
  rw [rawAx e0, decodeAx, e1]; rw [bf_eq f0, bf_eq f1, bf_eq f2, bf_eq f3]; rfl

theorem roundTrip.axdrop (g : BitVec 4) (d : BitVec 4) (a : BitVec 4) (b : BitVec 4) : roundTrip.Statement (.axdrop g d a b) := by
  refine roundTrip.of_one rfl fun v0 hw => ?_
  obtain ⟨iw, e0, e1, f0, f1, f2, f3⟩ := shape4 27 3 g d a b (by decide) (by decide) v0 (by omega)
  refine ⟨iw, ⟨_, e0, rfl⟩, ?_⟩
  rw [rawAx e0, decodeAx, e1]; rw [bf_eq f0, bf_eq f1, bf_eq f2, bf_eq f3]; rfl

theorem roundTrip.go (g : BitVec 4) (a : BitVec 3) : roundTrip.Statement (.go g a) := by
  refine roundTrip.of_one rfl fun v0 hw => ?_
  obtain ⟨iw, e0, e1, c0, c1, f0, f1⟩ := shape48 28 0 g a (by decide) (by decide) v0 (by omega)
  refine ⟨iw, ⟨_, e0, rfl⟩, ?_⟩
  rw [rawMig e0, decodeMig, e1]; refine (if_pos ⟨c0, c1⟩).trans ?_; rw [bf_eq f0, bf_eq f1]

theorem roundTrip.gohome (g : BitVec 4) : roundTrip.Statement (.gohome g) := by
  refine roundTrip.of_one rfl fun v0 hw => ?_
  obtain ⟨iw, e0, e1, c0, f0⟩ := shape49 28 1 g (by decide) (by decide) v0 (by omega)
  refine ⟨iw, ⟨_, e0, rfl⟩, ?_⟩
  rw [rawMig e0, decodeMig, e1]; refine (if_pos c0).trans ?_; rw [bf_eq f0]

theorem roundTrip.paddi (g : BitVec 4) (d : BitVec 3) (a : BitVec 3) (i : BitVec 14) : roundTrip.Statement (.paddi g d a i) := by
  refine roundTrip.of_one rfl fun v0 hw => ?_
  obtain ⟨iw, e0, c0, c1, f0, f1, f2, f3⟩ := shape50 29 g d a i (by decide) v0 (by omega)
  refine ⟨iw, ⟨_, e0, rfl⟩, ?_⟩
  rw [rawPaddi e0, decodePaddi]; refine (if_pos ⟨c0, c1⟩).trans ?_; rw [bf_eq f0, bf_eq f1, bf_eq f2, bf_eq f3]

theorem roundTrip.qpush (g : BitVec 4) (d : BitVec 4) (q : BitVec 4) : roundTrip.Statement (.qpush g d q) := by
  refine roundTrip.of_one rfl fun v0 hw => ?_
  obtain ⟨iw, e0, e1, c0, f0, f1, f2⟩ := shape51 30 0 g d q (by decide) (by decide) v0 (by omega)
  refine ⟨iw, ⟨_, e0, rfl⟩, ?_⟩
  rw [rawQue e0, decodeQue, e1]; refine (if_pos c0).trans ?_; rw [bf_eq f0, bf_eq f1, bf_eq f2]

theorem roundTrip.qpop (g : BitVec 4) (d : BitVec 4) (q : BitVec 4) : roundTrip.Statement (.qpop g d q) := by
  refine roundTrip.of_one rfl fun v0 hw => ?_
  obtain ⟨iw, e0, e1, c0, f0, f1, f2⟩ := shape51 30 1 g d q (by decide) (by decide) v0 (by omega)
  refine ⟨iw, ⟨_, e0, rfl⟩, ?_⟩
  rw [rawQue e0, decodeQue, e1]; refine (if_pos c0).trans ?_; rw [bf_eq f0, bf_eq f1, bf_eq f2]

theorem roundTrip.qtry (g : BitVec 4) (d : BitVec 4) (p : BitVec 3) (q : BitVec 4) : roundTrip.Statement (.qtry g d p q) := by
  refine roundTrip.of_one rfl fun v0 hw => ?_
  obtain ⟨iw, e0, e1, c0, f0, f1, f2, f3⟩ := shape52 30 2 g d p q (by decide) (by decide) v0 (by omega)
  refine ⟨iw, ⟨_, e0, rfl⟩, ?_⟩
  rw [rawQue e0, decodeQue, e1]; refine (if_pos c0).trans ?_; rw [bf_eq f0, bf_eq f1, bf_eq f2, bf_eq f3]

theorem roundTrip.qpushv (g : BitVec 4) (v : BitVec 7) (q : BitVec 4) : roundTrip.Statement (.qpushv g v q) := by
  refine roundTrip.of_one rfl fun v0 hw => ?_
  obtain ⟨iw, e0, e1, c0, f0, f1, f2⟩ := shape53 30 3 g v q (by decide) (by decide) v0 (by omega)
  refine ⟨iw, ⟨_, e0, rfl⟩, ?_⟩
  rw [rawQue e0, decodeQue, e1]; refine (if_pos c0).trans ?_; rw [bf_eq f0, bf_eq f1, bf_eq f2]

theorem roundTrip.qpopv (g : BitVec 4) (v : BitVec 7) (q : BitVec 4) : roundTrip.Statement (.qpopv g v q) := by
  refine roundTrip.of_one rfl fun v0 hw => ?_
  obtain ⟨iw, e0, e1, c0, f0, f1, f2⟩ := shape53 30 4 g v q (by decide) (by decide) v0 (by omega)
  refine ⟨iw, ⟨_, e0, rfl⟩, ?_⟩
  rw [rawQue e0, decodeQue, e1]; refine (if_pos c0).trans ?_; rw [bf_eq f0, bf_eq f1, bf_eq f2]

theorem roundTrip.vadd (d : BitVec 7) (a : BitVec 7) (b : BitVec 7) (t : BitVec 3) : roundTrip.Statement (.vadd d a b t) := by
  refine roundTrip.of_one rfl fun v0 hw => ?_
  obtain ⟨iw, e0, e1, f0, f1, f2, f3⟩ := shape54 32 0 d a b t (by decide) (by decide) v0 (by omega)
  refine ⟨iw, ⟨_, e0, rfl⟩, ?_⟩
  rw [rawVa1 e0, decodeVa1, e1]; rw [bf_eq f0, bf_eq f1, bf_eq f2, bf_eq f3]; rfl

theorem roundTrip.vsub (d : BitVec 7) (a : BitVec 7) (b : BitVec 7) (t : BitVec 3) : roundTrip.Statement (.vsub d a b t) := by
  refine roundTrip.of_one rfl fun v0 hw => ?_
  obtain ⟨iw, e0, e1, f0, f1, f2, f3⟩ := shape54 32 1 d a b t (by decide) (by decide) v0 (by omega)
  refine ⟨iw, ⟨_, e0, rfl⟩, ?_⟩
  rw [rawVa1 e0, decodeVa1, e1]; rw [bf_eq f0, bf_eq f1, bf_eq f2, bf_eq f3]; rfl

theorem roundTrip.vmin (d : BitVec 7) (a : BitVec 7) (b : BitVec 7) (t : BitVec 3) : roundTrip.Statement (.vmin d a b t) := by
  refine roundTrip.of_one rfl fun v0 hw => ?_
  obtain ⟨iw, e0, e1, f0, f1, f2, f3⟩ := shape54 32 2 d a b t (by decide) (by decide) v0 (by omega)
  refine ⟨iw, ⟨_, e0, rfl⟩, ?_⟩
  rw [rawVa1 e0, decodeVa1, e1]; rw [bf_eq f0, bf_eq f1, bf_eq f2, bf_eq f3]; rfl

theorem roundTrip.vmax (d : BitVec 7) (a : BitVec 7) (b : BitVec 7) (t : BitVec 3) : roundTrip.Statement (.vmax d a b t) := by
  refine roundTrip.of_one rfl fun v0 hw => ?_
  obtain ⟨iw, e0, e1, f0, f1, f2, f3⟩ := shape54 32 3 d a b t (by decide) (by decide) v0 (by omega)
  refine ⟨iw, ⟨_, e0, rfl⟩, ?_⟩
  rw [rawVa1 e0, decodeVa1, e1]; rw [bf_eq f0, bf_eq f1, bf_eq f2, bf_eq f3]; rfl

theorem roundTrip.vmul (d : BitVec 7) (a : BitVec 7) (b : BitVec 7) (t : BitVec 3) : roundTrip.Statement (.vmul d a b t) := by
  refine roundTrip.of_one rfl fun v0 hw => ?_
  obtain ⟨iw, e0, e1, f0, f1, f2, f3⟩ := shape54 33 0 d a b t (by decide) (by decide) v0 (by omega)
  refine ⟨iw, ⟨_, e0, rfl⟩, ?_⟩
  rw [rawVa2 e0, decodeVa2, e1]; rw [bf_eq f0, bf_eq f1, bf_eq f2, bf_eq f3]; rfl

theorem roundTrip.vfma (d : BitVec 7) (a : BitVec 7) (b : BitVec 7) (t : BitVec 3) : roundTrip.Statement (.vfma d a b t) := by
  refine roundTrip.of_one rfl fun v0 hw => ?_
  obtain ⟨iw, e0, e1, f0, f1, f2, f3⟩ := shape54 33 1 d a b t (by decide) (by decide) v0 (by omega)
  refine ⟨iw, ⟨_, e0, rfl⟩, ?_⟩
  rw [rawVa2 e0, decodeVa2, e1]; rw [bf_eq f0, bf_eq f1, bf_eq f2, bf_eq f3]; rfl

theorem roundTrip.vfms (d : BitVec 7) (a : BitVec 7) (b : BitVec 7) (t : BitVec 3) : roundTrip.Statement (.vfms d a b t) := by
  refine roundTrip.of_one rfl fun v0 hw => ?_
  obtain ⟨iw, e0, e1, f0, f1, f2, f3⟩ := shape54 33 2 d a b t (by decide) (by decide) v0 (by omega)
  refine ⟨iw, ⟨_, e0, rfl⟩, ?_⟩
  rw [rawVa2 e0, decodeVa2, e1]; rw [bf_eq f0, bf_eq f1, bf_eq f2, bf_eq f3]; rfl

theorem roundTrip.vfnma (d : BitVec 7) (a : BitVec 7) (b : BitVec 7) (t : BitVec 3) : roundTrip.Statement (.vfnma d a b t) := by
  refine roundTrip.of_one rfl fun v0 hw => ?_
  obtain ⟨iw, e0, e1, f0, f1, f2, f3⟩ := shape54 33 3 d a b t (by decide) (by decide) v0 (by omega)
  refine ⟨iw, ⟨_, e0, rfl⟩, ?_⟩
  rw [rawVa2 e0, decodeVa2, e1]; rw [bf_eq f0, bf_eq f1, bf_eq f2, bf_eq f3]; rfl

theorem roundTrip.vadds (d : BitVec 7) (a : BitVec 7) (b : BitVec 7) (t : BitVec 3) : roundTrip.Statement (.vadds d a b t) := by
  refine roundTrip.of_one rfl fun v0 hw => ?_
  obtain ⟨iw, e0, e1, f0, f1, f2, f3⟩ := shape54 34 0 d a b t (by decide) (by decide) v0 (by omega)
  refine ⟨iw, ⟨_, e0, rfl⟩, ?_⟩
  rw [rawVa3 e0, decodeVa3, e1]; rw [bf_eq f0, bf_eq f1, bf_eq f2, bf_eq f3]; rfl

theorem roundTrip.vsubs (d : BitVec 7) (a : BitVec 7) (b : BitVec 7) (t : BitVec 3) : roundTrip.Statement (.vsubs d a b t) := by
  refine roundTrip.of_one rfl fun v0 hw => ?_
  obtain ⟨iw, e0, e1, f0, f1, f2, f3⟩ := shape54 34 1 d a b t (by decide) (by decide) v0 (by omega)
  refine ⟨iw, ⟨_, e0, rfl⟩, ?_⟩
  rw [rawVa3 e0, decodeVa3, e1]; rw [bf_eq f0, bf_eq f1, bf_eq f2, bf_eq f3]; rfl

theorem roundTrip.vmulh (d : BitVec 7) (a : BitVec 7) (b : BitVec 7) (t : BitVec 3) : roundTrip.Statement (.vmulh d a b t) := by
  refine roundTrip.of_one rfl fun v0 hw => ?_
  obtain ⟨iw, e0, e1, f0, f1, f2, f3⟩ := shape54 34 2 d a b t (by decide) (by decide) v0 (by omega)
  refine ⟨iw, ⟨_, e0, rfl⟩, ?_⟩
  rw [rawVa3 e0, decodeVa3, e1]; rw [bf_eq f0, bf_eq f1, bf_eq f2, bf_eq f3]; rfl

theorem roundTrip.vabs (d : BitVec 7) (a : BitVec 7) (t : BitVec 3) : roundTrip.Statement (.vabs d a t) := by
  refine roundTrip.of_one rfl fun v0 hw => ?_
  obtain ⟨iw, e0, e1, c0, f0, f1, f2⟩ := shape55 34 3 d a t (by decide) (by decide) v0 (by omega)
  refine ⟨iw, ⟨_, e0, rfl⟩, ?_⟩
  rw [rawVa3 e0, decodeVa3, e1]; refine (if_pos c0).trans ?_; rw [bf_eq f0, bf_eq f1, bf_eq f2]

theorem roundTrip.vand (d : BitVec 7) (a : BitVec 7) (b : BitVec 7) : roundTrip.Statement (.vand d a b) := by
  refine roundTrip.of_one rfl fun v0 hw => ?_
  obtain ⟨iw, e0, e1, c0, f0, f1, f2⟩ := shape56 35 0 d a b (by decide) (by decide) v0 (by omega)
  refine ⟨iw, ⟨_, e0, rfl⟩, ?_⟩
  rw [rawVlog e0, decodeVlog, e1]; refine (if_pos c0).trans ?_; rw [bf_eq f0, bf_eq f1, bf_eq f2]

theorem roundTrip.vor (d : BitVec 7) (a : BitVec 7) (b : BitVec 7) : roundTrip.Statement (.vor d a b) := by
  refine roundTrip.of_one rfl fun v0 hw => ?_
  obtain ⟨iw, e0, e1, c0, f0, f1, f2⟩ := shape56 35 1 d a b (by decide) (by decide) v0 (by omega)
  refine ⟨iw, ⟨_, e0, rfl⟩, ?_⟩
  rw [rawVlog e0, decodeVlog, e1]; refine (if_pos c0).trans ?_; rw [bf_eq f0, bf_eq f1, bf_eq f2]

theorem roundTrip.vxor (d : BitVec 7) (a : BitVec 7) (b : BitVec 7) : roundTrip.Statement (.vxor d a b) := by
  refine roundTrip.of_one rfl fun v0 hw => ?_
  obtain ⟨iw, e0, e1, c0, f0, f1, f2⟩ := shape56 35 2 d a b (by decide) (by decide) v0 (by omega)
  refine ⟨iw, ⟨_, e0, rfl⟩, ?_⟩
  rw [rawVlog e0, decodeVlog, e1]; refine (if_pos c0).trans ?_; rw [bf_eq f0, bf_eq f1, bf_eq f2]

theorem roundTrip.vandn (d : BitVec 7) (a : BitVec 7) (b : BitVec 7) : roundTrip.Statement (.vandn d a b) := by
  refine roundTrip.of_one rfl fun v0 hw => ?_
  obtain ⟨iw, e0, e1, c0, f0, f1, f2⟩ := shape56 35 3 d a b (by decide) (by decide) v0 (by omega)
  refine ⟨iw, ⟨_, e0, rfl⟩, ?_⟩
  rw [rawVlog e0, decodeVlog, e1]; refine (if_pos c0).trans ?_; rw [bf_eq f0, bf_eq f1, bf_eq f2]

theorem roundTrip.vshl (d : BitVec 7) (a : BitVec 7) (b : BitVec 7) (t : BitVec 3) : roundTrip.Statement (.vshl d a b t) := by
  refine roundTrip.of_one rfl fun v0 hw => ?_
  obtain ⟨iw, e0, e1, f0, f1, f2, f3⟩ := shape54 36 0 d a b t (by decide) (by decide) v0 (by omega)
  refine ⟨iw, ⟨_, e0, rfl⟩, ?_⟩
  rw [rawVsh e0, decodeVsh, e1]; rw [bf_eq f0, bf_eq f1, bf_eq f2, bf_eq f3]; rfl

theorem roundTrip.vshr (d : BitVec 7) (a : BitVec 7) (b : BitVec 7) (t : BitVec 3) : roundTrip.Statement (.vshr d a b t) := by
  refine roundTrip.of_one rfl fun v0 hw => ?_
  obtain ⟨iw, e0, e1, f0, f1, f2, f3⟩ := shape54 36 1 d a b t (by decide) (by decide) v0 (by omega)
  refine ⟨iw, ⟨_, e0, rfl⟩, ?_⟩
  rw [rawVsh e0, decodeVsh, e1]; rw [bf_eq f0, bf_eq f1, bf_eq f2, bf_eq f3]; rfl

theorem roundTrip.vsar (d : BitVec 7) (a : BitVec 7) (b : BitVec 7) (t : BitVec 3) : roundTrip.Statement (.vsar d a b t) := by
  refine roundTrip.of_one rfl fun v0 hw => ?_
  obtain ⟨iw, e0, e1, f0, f1, f2, f3⟩ := shape54 36 2 d a b t (by decide) (by decide) v0 (by omega)
  refine ⟨iw, ⟨_, e0, rfl⟩, ?_⟩
  rw [rawVsh e0, decodeVsh, e1]; rw [bf_eq f0, bf_eq f1, bf_eq f2, bf_eq f3]; rfl

theorem roundTrip.vrol (d : BitVec 7) (a : BitVec 7) (b : BitVec 7) (t : BitVec 3) : roundTrip.Statement (.vrol d a b t) := by
  refine roundTrip.of_one rfl fun v0 hw => ?_
  obtain ⟨iw, e0, e1, f0, f1, f2, f3⟩ := shape54 36 3 d a b t (by decide) (by decide) v0 (by omega)
  refine ⟨iw, ⟨_, e0, rfl⟩, ?_⟩
  rw [rawVsh e0, decodeVsh, e1]; rw [bf_eq f0, bf_eq f1, bf_eq f2, bf_eq f3]; rfl

theorem roundTrip.vceq (d : BitVec 3) (a : BitVec 7) (b : BitVec 7) (t : BitVec 3) : roundTrip.Statement (.vceq d a b t) := by
  refine roundTrip.of_one rfl fun v0 hw => ?_
  obtain ⟨iw, e0, e1, c0, f0, f1, f2, f3⟩ := shape57 37 0 d a b t (by decide) (by decide) v0 (by omega)
  refine ⟨iw, ⟨_, e0, rfl⟩, ?_⟩
  rw [rawVcmp e0, decodeVcmp, e1]; refine (if_pos c0).trans ?_; rw [bf_eq f0, bf_eq f1, bf_eq f2, bf_eq f3]

theorem roundTrip.vcne (d : BitVec 3) (a : BitVec 7) (b : BitVec 7) (t : BitVec 3) : roundTrip.Statement (.vcne d a b t) := by
  refine roundTrip.of_one rfl fun v0 hw => ?_
  obtain ⟨iw, e0, e1, c0, f0, f1, f2, f3⟩ := shape57 37 1 d a b t (by decide) (by decide) v0 (by omega)
  refine ⟨iw, ⟨_, e0, rfl⟩, ?_⟩
  rw [rawVcmp e0, decodeVcmp, e1]; refine (if_pos c0).trans ?_; rw [bf_eq f0, bf_eq f1, bf_eq f2, bf_eq f3]

theorem roundTrip.vclt (d : BitVec 3) (a : BitVec 7) (b : BitVec 7) (t : BitVec 3) : roundTrip.Statement (.vclt d a b t) := by
  refine roundTrip.of_one rfl fun v0 hw => ?_
  obtain ⟨iw, e0, e1, c0, f0, f1, f2, f3⟩ := shape57 37 2 d a b t (by decide) (by decide) v0 (by omega)
  refine ⟨iw, ⟨_, e0, rfl⟩, ?_⟩
  rw [rawVcmp e0, decodeVcmp, e1]; refine (if_pos c0).trans ?_; rw [bf_eq f0, bf_eq f1, bf_eq f2, bf_eq f3]

theorem roundTrip.vcle (d : BitVec 3) (a : BitVec 7) (b : BitVec 7) (t : BitVec 3) : roundTrip.Statement (.vcle d a b t) := by
  refine roundTrip.of_one rfl fun v0 hw => ?_
  obtain ⟨iw, e0, e1, c0, f0, f1, f2, f3⟩ := shape57 37 3 d a b t (by decide) (by decide) v0 (by omega)
  refine ⟨iw, ⟨_, e0, rfl⟩, ?_⟩
  rw [rawVcmp e0, decodeVcmp, e1]; refine (if_pos c0).trans ?_; rw [bf_eq f0, bf_eq f1, bf_eq f2, bf_eq f3]

theorem roundTrip.vcltu (d : BitVec 3) (a : BitVec 7) (b : BitVec 7) (t : BitVec 3) : roundTrip.Statement (.vcltu d a b t) := by
  refine roundTrip.of_one rfl fun v0 hw => ?_
  obtain ⟨iw, e0, e1, c0, f0, f1, f2, f3⟩ := shape57 38 0 d a b t (by decide) (by decide) v0 (by omega)
  refine ⟨iw, ⟨_, e0, rfl⟩, ?_⟩
  rw [rawVcmp2 e0, decodeVcmp2, e1]; refine (if_pos c0).trans ?_; rw [bf_eq f0, bf_eq f1, bf_eq f2, bf_eq f3]

theorem roundTrip.vcleu (d : BitVec 3) (a : BitVec 7) (b : BitVec 7) (t : BitVec 3) : roundTrip.Statement (.vcleu d a b t) := by
  refine roundTrip.of_one rfl fun v0 hw => ?_
  obtain ⟨iw, e0, e1, c0, f0, f1, f2, f3⟩ := shape57 38 1 d a b t (by decide) (by decide) v0 (by omega)
  refine ⟨iw, ⟨_, e0, rfl⟩, ?_⟩
  rw [rawVcmp2 e0, decodeVcmp2, e1]; refine (if_pos c0).trans ?_; rw [bf_eq f0, bf_eq f1, bf_eq f2, bf_eq f3]

theorem roundTrip.vcun (d : BitVec 3) (a : BitVec 7) (b : BitVec 7) (t : BitVec 3) : roundTrip.Statement (.vcun d a b t) := by
  refine roundTrip.of_one rfl fun v0 hw => ?_
  obtain ⟨iw, e0, e1, c0, f0, f1, f2, f3⟩ := shape57 38 2 d a b t (by decide) (by decide) v0 (by omega)
  refine ⟨iw, ⟨_, e0, rfl⟩, ?_⟩
  rw [rawVcmp2 e0, decodeVcmp2, e1]; refine (if_pos c0).trans ?_; rw [bf_eq f0, bf_eq f1, bf_eq f2, bf_eq f3]

theorem roundTrip.vcnf (d : BitVec 3) (a : BitVec 7) (t : BitVec 3) : roundTrip.Statement (.vcnf d a t) := by
  refine roundTrip.of_one rfl fun v0 hw => ?_
  obtain ⟨iw, e0, e1, c0, c1, f0, f1, f2⟩ := shape58 38 3 d a t (by decide) (by decide) v0 (by omega)
  refine ⟨iw, ⟨_, e0, rfl⟩, ?_⟩
  rw [rawVcmp2 e0, decodeVcmp2, e1]; refine (if_pos ⟨c0, c1⟩).trans ?_; rw [bf_eq f0, bf_eq f1, bf_eq f2]

theorem roundTrip.vwadd (d : BitVec 6) (a : BitVec 7) (b : BitVec 7) (t : BitVec 3) : roundTrip.Statement (.vwadd d a b t) := by
  refine roundTrip.of_one rfl fun v0 hw => ?_
  obtain ⟨iw, e0, e1, c0, f0, f1, f2, f3⟩ := shape59 39 0 d a b t (by decide) (by decide) v0 (by omega)
  refine ⟨iw, ⟨_, e0, rfl⟩, ?_⟩
  rw [rawVwid e0, decodeVwid, e1]; refine (if_pos c0).trans ?_; rw [bf_eq f0, bf_eq f1, bf_eq f2, bf_eq f3]

theorem roundTrip.vwmul (d : BitVec 6) (a : BitVec 7) (b : BitVec 7) (t : BitVec 3) : roundTrip.Statement (.vwmul d a b t) := by
  refine roundTrip.of_one rfl fun v0 hw => ?_
  obtain ⟨iw, e0, e1, c0, f0, f1, f2, f3⟩ := shape59 39 1 d a b t (by decide) (by decide) v0 (by omega)
  refine ⟨iw, ⟨_, e0, rfl⟩, ?_⟩
  rw [rawVwid e0, decodeVwid, e1]; refine (if_pos c0).trans ?_; rw [bf_eq f0, bf_eq f1, bf_eq f2, bf_eq f3]

theorem roundTrip.vwmac (d : BitVec 6) (a : BitVec 7) (b : BitVec 7) (t : BitVec 3) : roundTrip.Statement (.vwmac d a b t) := by
  refine roundTrip.of_one rfl fun v0 hw => ?_
  obtain ⟨iw, e0, e1, c0, f0, f1, f2, f3⟩ := shape59 39 2 d a b t (by decide) (by decide) v0 (by omega)
  refine ⟨iw, ⟨_, e0, rfl⟩, ?_⟩
  rw [rawVwid e0, decodeVwid, e1]; refine (if_pos c0).trans ?_; rw [bf_eq f0, bf_eq f1, bf_eq f2, bf_eq f3]

theorem roundTrip.vwsum (d : BitVec 6) (a : BitVec 7) (b : BitVec 7) (t : BitVec 3) : roundTrip.Statement (.vwsum d a b t) := by
  refine roundTrip.of_one rfl fun v0 hw => ?_
  obtain ⟨iw, e0, e1, c0, f0, f1, f2, f3⟩ := shape59 39 3 d a b t (by decide) (by decide) v0 (by omega)
  refine ⟨iw, ⟨_, e0, rfl⟩, ?_⟩
  rw [rawVwid e0, decodeVwid, e1]; refine (if_pos c0).trans ?_; rw [bf_eq f0, bf_eq f1, bf_eq f2, bf_eq f3]

theorem roundTrip.vhadd (d : BitVec 7) (a : BitVec 7) (b : BitVec 7) (t : BitVec 3) : roundTrip.Statement (.vhadd d a b t) := by
  refine roundTrip.of_one rfl fun v0 hw => ?_
  obtain ⟨iw, e0, e1, f0, f1, f2, f3⟩ := shape54 40 0 d a b t (by decide) (by decide) v0 (by omega)
  refine ⟨iw, ⟨_, e0, rfl⟩, ?_⟩
  rw [rawVred e0, decodeVred, e1]; rw [bf_eq f0, bf_eq f1, bf_eq f2, bf_eq f3]; rfl

theorem roundTrip.vhmax (d : BitVec 7) (a : BitVec 7) (b : BitVec 7) (t : BitVec 3) : roundTrip.Statement (.vhmax d a b t) := by
  refine roundTrip.of_one rfl fun v0 hw => ?_
  obtain ⟨iw, e0, e1, f0, f1, f2, f3⟩ := shape54 40 1 d a b t (by decide) (by decide) v0 (by omega)
  refine ⟨iw, ⟨_, e0, rfl⟩, ?_⟩
  rw [rawVred e0, decodeVred, e1]; rw [bf_eq f0, bf_eq f1, bf_eq f2, bf_eq f3]; rfl

theorem roundTrip.vhmin (d : BitVec 7) (a : BitVec 7) (b : BitVec 7) (t : BitVec 3) : roundTrip.Statement (.vhmin d a b t) := by
  refine roundTrip.of_one rfl fun v0 hw => ?_
  obtain ⟨iw, e0, e1, f0, f1, f2, f3⟩ := shape54 40 2 d a b t (by decide) (by decide) v0 (by omega)
  refine ⟨iw, ⟨_, e0, rfl⟩, ?_⟩
  rw [rawVred e0, decodeVred, e1]; rw [bf_eq f0, bf_eq f1, bf_eq f2, bf_eq f3]; rfl

theorem roundTrip.vscan (d : BitVec 7) (a : BitVec 7) (b : BitVec 7) (t : BitVec 3) : roundTrip.Statement (.vscan d a b t) := by
  refine roundTrip.of_one rfl fun v0 hw => ?_
  obtain ⟨iw, e0, e1, f0, f1, f2, f3⟩ := shape54 40 3 d a b t (by decide) (by decide) v0 (by omega)
  refine ⟨iw, ⟨_, e0, rfl⟩, ?_⟩
  rw [rawVred e0, decodeVred, e1]; rw [bf_eq f0, bf_eq f1, bf_eq f2, bf_eq f3]; rfl

theorem roundTrip.vzipl (d : BitVec 7) (a : BitVec 7) (b : BitVec 7) (t : BitVec 3) : roundTrip.Statement (.vzipl d a b t) := by
  refine roundTrip.of_one rfl fun v0 hw => ?_
  obtain ⟨iw, e0, e1, f0, f1, f2, f3⟩ := shape54 41 0 d a b t (by decide) (by decide) v0 (by omega)
  refine ⟨iw, ⟨_, e0, rfl⟩, ?_⟩
  rw [rawVprm e0, decodeVprm, e1]; rw [bf_eq f0, bf_eq f1, bf_eq f2, bf_eq f3]; rfl

theorem roundTrip.vziph (d : BitVec 7) (a : BitVec 7) (b : BitVec 7) (t : BitVec 3) : roundTrip.Statement (.vziph d a b t) := by
  refine roundTrip.of_one rfl fun v0 hw => ?_
  obtain ⟨iw, e0, e1, f0, f1, f2, f3⟩ := shape54 41 1 d a b t (by decide) (by decide) v0 (by omega)
  refine ⟨iw, ⟨_, e0, rfl⟩, ?_⟩
  rw [rawVprm e0, decodeVprm, e1]; rw [bf_eq f0, bf_eq f1, bf_eq f2, bf_eq f3]; rfl

theorem roundTrip.vunzl (d : BitVec 7) (a : BitVec 7) (b : BitVec 7) (t : BitVec 3) : roundTrip.Statement (.vunzl d a b t) := by
  refine roundTrip.of_one rfl fun v0 hw => ?_
  obtain ⟨iw, e0, e1, f0, f1, f2, f3⟩ := shape54 41 2 d a b t (by decide) (by decide) v0 (by omega)
  refine ⟨iw, ⟨_, e0, rfl⟩, ?_⟩
  rw [rawVprm e0, decodeVprm, e1]; rw [bf_eq f0, bf_eq f1, bf_eq f2, bf_eq f3]; rfl

theorem roundTrip.vunzh (d : BitVec 7) (a : BitVec 7) (b : BitVec 7) (t : BitVec 3) : roundTrip.Statement (.vunzh d a b t) := by
  refine roundTrip.of_one rfl fun v0 hw => ?_
  obtain ⟨iw, e0, e1, f0, f1, f2, f3⟩ := shape54 41 3 d a b t (by decide) (by decide) v0 (by omega)
  refine ⟨iw, ⟨_, e0, rfl⟩, ?_⟩
  rw [rawVprm e0, decodeVprm, e1]; rw [bf_eq f0, bf_eq f1, bf_eq f2, bf_eq f3]; rfl

theorem roundTrip.vshuf (d : BitVec 7) (a : BitVec 7) (b : BitVec 7) (t : BitVec 3) : roundTrip.Statement (.vshuf d a b t) := by
  refine roundTrip.of_one rfl fun v0 hw => ?_
  obtain ⟨iw, e0, e1, f0, f1, f2, f3⟩ := shape54 42 0 d a b t (by decide) (by decide) v0 (by omega)
  refine ⟨iw, ⟨_, e0, rfl⟩, ?_⟩
  rw [rawVprm2 e0, decodeVprm2, e1]; rw [bf_eq f0, bf_eq f1, bf_eq f2, bf_eq f3]; rfl

theorem roundTrip.vsel (d : BitVec 7) (a : BitVec 7) (b : BitVec 7) (t : BitVec 3) : roundTrip.Statement (.vsel d a b t) := by
  refine roundTrip.of_one rfl fun v0 hw => ?_
  obtain ⟨iw, e0, e1, f0, f1, f2, f3⟩ := shape54 42 1 d a b t (by decide) (by decide) v0 (by omega)
  refine ⟨iw, ⟨_, e0, rfl⟩, ?_⟩
  rw [rawVprm2 e0, decodeVprm2, e1]; rw [bf_eq f0, bf_eq f1, bf_eq f2, bf_eq f3]; rfl

theorem roundTrip.vrev (d : BitVec 7) (a : BitVec 7) (t : BitVec 3) : roundTrip.Statement (.vrev d a t) := by
  refine roundTrip.of_one rfl fun v0 hw => ?_
  obtain ⟨iw, e0, e1, c0, f0, f1, f2⟩ := shape55 42 2 d a t (by decide) (by decide) v0 (by omega)
  refine ⟨iw, ⟨_, e0, rfl⟩, ?_⟩
  rw [rawVprm2 e0, decodeVprm2, e1]; refine (if_pos c0).trans ?_; rw [bf_eq f0, bf_eq f1, bf_eq f2]

theorem roundTrip.vdupl (d : BitVec 7) (a : BitVec 7) (t : BitVec 3) : roundTrip.Statement (.vdupl d a t) := by
  refine roundTrip.of_one rfl fun v0 hw => ?_
  obtain ⟨iw, e0, e1, c0, f0, f1, f2⟩ := shape55 42 3 d a t (by decide) (by decide) v0 (by omega)
  refine ⟨iw, ⟨_, e0, rfl⟩, ?_⟩
  rw [rawVprm2 e0, decodeVprm2, e1]; refine (if_pos c0).trans ?_; rw [bf_eq f0, bf_eq f1, bf_eq f2]

theorem roundTrip.vcvt (d : BitVec 7) (a : BitVec 7) (s : BitVec 4) (t : BitVec 4) (r : BitVec 3) (x : BitVec 1) : roundTrip.Statement (.vcvt d a s t r x) := by
  refine roundTrip.of_one rfl fun v0 hw => ?_
  obtain ⟨iw, e0, f0, f1, f2, f3, f4, f5⟩ := shape60 43 d a s t r x (by decide) v0 (by omega)
  refine ⟨iw, ⟨_, e0, rfl⟩, ?_⟩
  rw [rawVcvt e0, decodeVcvt]; rw [bf_eq f0, bf_eq f1, bf_eq f2, bf_eq f3, bf_eq f4, bf_eq f5]

theorem roundTrip.vqblk (d : BitVec 7) (a : BitVec 4) (s : BitVec 4) (t : BitVec 3) : roundTrip.Statement (.vqblk d a s t) := by
  refine roundTrip.of_one rfl fun v0 hw => ?_
  obtain ⟨iw, e0, e1, c0, f0, f1, f2, f3⟩ := shape61 44 0 d a s t (by decide) (by decide) v0 (by omega)
  refine ⟨iw, ⟨_, e0, rfl⟩, ?_⟩
  rw [rawVq e0, decodeVq, e1]; refine (if_pos c0).trans ?_; rw [bf_eq f0, bf_eq f1, bf_eq f2, bf_eq f3]

theorem roundTrip.vmxdec (d : BitVec 4) (a : BitVec 7) (s : BitVec 4) (t : BitVec 3) : roundTrip.Statement (.vmxdec d a s t) := by
  refine roundTrip.of_one rfl fun v0 hw => ?_
  obtain ⟨iw, e0, e1, c0, f0, f1, f2, f3⟩ := shape62 44 1 d a s t (by decide) (by decide) v0 (by omega)
  refine ⟨iw, ⟨_, e0, rfl⟩, ?_⟩
  rw [rawVq e0, decodeVq, e1]; refine (if_pos c0).trans ?_; rw [bf_eq f0, bf_eq f1, bf_eq f2, bf_eq f3]

theorem roundTrip.vdec (d : BitVec 5) (a : BitVec 7) (s : BitVec 4) : roundTrip.Statement (.vdec d a s) := by
  refine roundTrip.of_one rfl fun v0 hw => ?_
  obtain ⟨iw, e0, e1, c0, c1, f0, f1, f2⟩ := shape63 44 2 d a s (by decide) (by decide) v0 (by omega)
  refine ⟨iw, ⟨_, e0, rfl⟩, ?_⟩
  rw [rawVq e0, decodeVq, e1]; refine (if_pos c0).trans ?_; refine (if_pos c1).trans ?_; rw [bf_eq f0, bf_eq f1, bf_eq f2]

theorem roundTrip.venc (d : BitVec 7) (a : BitVec 5) (s : BitVec 4) : roundTrip.Statement (.venc d a s) := by
  refine roundTrip.of_one rfl fun v0 hw => ?_
  obtain ⟨iw, e0, e1, c0, c1, f0, f1, f2⟩ := shape64 44 3 d a s (by decide) (by decide) v0 (by omega)
  refine ⟨iw, ⟨_, e0, rfl⟩, ?_⟩
  rw [rawVq e0, decodeVq, e1]; refine (if_pos c0).trans ?_; refine (if_pos c1).trans ?_; rw [bf_eq f0, bf_eq f1, bf_eq f2]

theorem roundTrip.vrcp (d : BitVec 7) (a : BitVec 7) : roundTrip.Statement (.vrcp d a) := by
  refine roundTrip.of_one rfl fun v0 hw => ?_
  obtain ⟨iw, e0, e1, e2, c0, f0, f1⟩ := shape65 45 0 5 d a (by decide) (by decide) (by decide) v0 (by omega)
  refine ⟨iw, ⟨_, e0, rfl⟩, ?_⟩
  rw [rawVsf1 e0, decodeVsf1, e1]; refine (if_pos c0).trans ?_; refine (if_pos e2).trans ?_; rw [bf_eq f0, bf_eq f1]

theorem roundTrip.vrsq (d : BitVec 7) (a : BitVec 7) : roundTrip.Statement (.vrsq d a) := by
  refine roundTrip.of_one rfl fun v0 hw => ?_
  obtain ⟨iw, e0, e1, e2, c0, f0, f1⟩ := shape65 45 1 5 d a (by decide) (by decide) (by decide) v0 (by omega)
  refine ⟨iw, ⟨_, e0, rfl⟩, ?_⟩
  rw [rawVsf1 e0, decodeVsf1, e1]; refine (if_pos c0).trans ?_; refine (if_pos e2).trans ?_; rw [bf_eq f0, bf_eq f1]

theorem roundTrip.vexp2 (d : BitVec 7) (a : BitVec 7) : roundTrip.Statement (.vexp2 d a) := by
  refine roundTrip.of_one rfl fun v0 hw => ?_
  obtain ⟨iw, e0, e1, e2, c0, f0, f1⟩ := shape65 45 2 5 d a (by decide) (by decide) (by decide) v0 (by omega)
  refine ⟨iw, ⟨_, e0, rfl⟩, ?_⟩
  rw [rawVsf1 e0, decodeVsf1, e1]; refine (if_pos c0).trans ?_; refine (if_pos e2).trans ?_; rw [bf_eq f0, bf_eq f1]

theorem roundTrip.vlog2 (d : BitVec 7) (a : BitVec 7) : roundTrip.Statement (.vlog2 d a) := by
  refine roundTrip.of_one rfl fun v0 hw => ?_
  obtain ⟨iw, e0, e1, e2, c0, f0, f1⟩ := shape65 45 3 5 d a (by decide) (by decide) (by decide) v0 (by omega)
  refine ⟨iw, ⟨_, e0, rfl⟩, ?_⟩
  rw [rawVsf1 e0, decodeVsf1, e1]; refine (if_pos c0).trans ?_; refine (if_pos e2).trans ?_; rw [bf_eq f0, bf_eq f1]

theorem roundTrip.vsqrt (d : BitVec 7) (a : BitVec 7) : roundTrip.Statement (.vsqrt d a) := by
  refine roundTrip.of_one rfl fun v0 hw => ?_
  obtain ⟨iw, e0, e1, e2, c0, f0, f1⟩ := shape65 46 0 5 d a (by decide) (by decide) (by decide) v0 (by omega)
  refine ⟨iw, ⟨_, e0, rfl⟩, ?_⟩
  rw [rawVsf2 e0, decodeVsf2, e1]; refine (if_pos c0).trans ?_; refine (if_pos e2).trans ?_; rw [bf_eq f0, bf_eq f1]

theorem roundTrip.vdiv (d : BitVec 7) (a : BitVec 7) (b : BitVec 7) : roundTrip.Statement (.vdiv d a b) := by
  refine roundTrip.of_one rfl fun v0 hw => ?_
  obtain ⟨iw, e0, e1, e2, f0, f1, f2⟩ := shape66 46 1 5 d a b (by decide) (by decide) (by decide) v0 (by omega)
  refine ⟨iw, ⟨_, e0, rfl⟩, ?_⟩
  rw [rawVsf2 e0, decodeVsf2, e1]; refine (if_pos e2).trans ?_; rw [bf_eq f0, bf_eq f1, bf_eq f2]

theorem roundTrip.vflr (d : BitVec 7) (a : BitVec 7) (t : BitVec 3) : roundTrip.Statement (.vflr d a t) := by
  refine roundTrip.of_one rfl fun v0 hw => ?_
  obtain ⟨iw, e0, e1, c0, f0, f1, f2⟩ := shape55 46 2 d a t (by decide) (by decide) v0 (by omega)
  refine ⟨iw, ⟨_, e0, rfl⟩, ?_⟩
  rw [rawVsf2 e0, decodeVsf2, e1]; refine (if_pos c0).trans ?_; rw [bf_eq f0, bf_eq f1, bf_eq f2]

theorem roundTrip.vrnd (d : BitVec 7) (a : BitVec 7) (t : BitVec 3) : roundTrip.Statement (.vrnd d a t) := by
  refine roundTrip.of_one rfl fun v0 hw => ?_
  obtain ⟨iw, e0, e1, c0, f0, f1, f2⟩ := shape55 46 3 d a t (by decide) (by decide) v0 (by omega)
  refine ⟨iw, ⟨_, e0, rfl⟩, ?_⟩
  rw [rawVsf2 e0, decodeVsf2, e1]; refine (if_pos c0).trans ?_; rw [bf_eq f0, bf_eq f1, bf_eq f2]

theorem roundTrip.vrng (d : BitVec 7) (s : BitVec 4) : roundTrip.Statement (.vrng d s) := by
  refine roundTrip.of_one rfl fun v0 hw => ?_
  obtain ⟨iw, e0, e1, c0, c1, f0, f1⟩ := shape67 47 0 d s (by decide) (by decide) v0 (by omega)
  refine ⟨iw, ⟨_, e0, rfl⟩, ?_⟩
  rw [rawVrg e0, decodeVrg, e1]; refine (if_pos c0).trans ?_; refine (if_pos c1).trans ?_; rw [bf_eq f0, bf_eq f1]

theorem roundTrip.vrngf (d : BitVec 7) (s : BitVec 4) (t : BitVec 3) : roundTrip.Statement (.vrngf d s t) := by
  refine roundTrip.of_one rfl fun v0 hw => ?_
  obtain ⟨iw, e0, e1, c0, f0, f1, f2⟩ := shape68 47 1 d s t (by decide) (by decide) v0 (by omega)
  refine ⟨iw, ⟨_, e0, rfl⟩, ?_⟩
  rw [rawVrg e0, decodeVrg, e1]; refine (if_pos c0).trans ?_; rw [bf_eq f0, bf_eq f1, bf_eq f2]

theorem roundTrip.vmovs (d : BitVec 7) (s : BitVec 4) (t : BitVec 3) : roundTrip.Statement (.vmovs d s t) := by
  refine roundTrip.of_one rfl fun v0 hw => ?_
  obtain ⟨iw, e0, e1, c0, f0, f1, f2⟩ := shape68 48 0 d s t (by decide) (by decide) v0 (by omega)
  refine ⟨iw, ⟨_, e0, rfl⟩, ?_⟩
  rw [rawVmv e0, decodeVmv, e1]; refine (if_pos c0).trans ?_; rw [bf_eq f0, bf_eq f1, bf_eq f2]

theorem roundTrip.vins (d : BitVec 7) (i : BitVec 4) (s : BitVec 4) (t : BitVec 3) : roundTrip.Statement (.vins d i s t) := by
  refine roundTrip.of_one rfl fun v0 hw => ?_
  obtain ⟨iw, e0, e1, c0, f0, f1, f2, f3⟩ := shape69 48 1 d i s t (by decide) (by decide) v0 (by omega)
  refine ⟨iw, ⟨_, e0, rfl⟩, ?_⟩
  rw [rawVmv e0, decodeVmv, e1]; refine (if_pos c0).trans ?_; rw [bf_eq f0, bf_eq f1, bf_eq f2, bf_eq f3]

theorem roundTrip.vext (i : BitVec 4) (a : BitVec 7) (s : BitVec 4) (t : BitVec 3) : roundTrip.Statement (.vext i a s t) := by
  refine roundTrip.of_one rfl fun v0 hw => ?_
  obtain ⟨iw, e0, e1, c0, f0, f1, f2, f3⟩ := shape70 48 2 i a s t (by decide) (by decide) v0 (by omega)
  refine ⟨iw, ⟨_, e0, rfl⟩, ?_⟩
  rw [rawVmv e0, decodeVmv, e1]; refine (if_pos c0).trans ?_; rw [bf_eq f0, bf_eq f1, bf_eq f2, bf_eq f3]

theorem roundTrip.kmovs (k : BitVec 3) (s : BitVec 4) : roundTrip.Statement (.kmovs k s) := by
  refine roundTrip.of_one rfl fun v0 hw => ?_
  obtain ⟨iw, e0, e1, c0, c1, c2, f0, f1⟩ := shape71 48 3 k s (by decide) (by decide) v0 (by omega)
  refine ⟨iw, ⟨_, e0, rfl⟩, ?_⟩
  rw [rawVmv e0, decodeVmv, e1]; refine (if_pos ⟨c0, c1, c2⟩).trans ?_; rw [bf_eq f0, bf_eq f1]

theorem roundTrip.kext (k : BitVec 3) (s : BitVec 4) : roundTrip.Statement (.kext k s) := by
  refine roundTrip.of_one rfl fun v0 hw => ?_
  obtain ⟨iw, e0, e1, c0, c1, f0, f1⟩ := shape72 48 4 k s (by decide) (by decide) v0 (by omega)
  refine ⟨iw, ⟨_, e0, rfl⟩, ?_⟩
  rw [rawVmv e0, decodeVmv, e1]; refine (if_pos ⟨c0, c1⟩).trans ?_; rw [bf_eq f0, bf_eq f1]

theorem roundTrip.vaddi (d : BitVec 7) (a : BitVec 7) (i : BitVec 8) (t : BitVec 3) : roundTrip.Statement (.vaddi d a i t) := by
  refine roundTrip.of_one rfl fun v0 hw => ?_
  obtain ⟨iw, e0, e1, f0, f1, f2, f3⟩ := shape73 49 0 d a i t (by decide) (by decide) v0 (by omega)
  refine ⟨iw, ⟨_, e0, rfl⟩, ?_⟩
  rw [rawVim1 e0, decodeVim1, e1]; rw [bf_eq f0, bf_eq f1, bf_eq f2, bf_eq f3]; rfl

theorem roundTrip.vspli (d : BitVec 7) (i : BitVec 8) (t : BitVec 3) : roundTrip.Statement (.vspli d i t) := by
  refine roundTrip.of_one rfl fun v0 hw => ?_
  obtain ⟨iw, e0, e1, c0, f0, f1, f2⟩ := shape74 49 1 d i t (by decide) (by decide) v0 (by omega)
  refine ⟨iw, ⟨_, e0, rfl⟩, ?_⟩
  rw [rawVim1 e0, decodeVim1, e1]; refine (if_pos c0).trans ?_; rw [bf_eq f0, bf_eq f1, bf_eq f2]

theorem roundTrip.vshli (d : BitVec 7) (a : BitVec 7) (i : BitVec 8) (t : BitVec 3) : roundTrip.Statement (.vshli d a i t) := by
  refine roundTrip.of_one rfl fun v0 hw => ?_
  obtain ⟨iw, e0, e1, f0, f1, f2, f3⟩ := shape73 50 0 d a i t (by decide) (by decide) v0 (by omega)
  refine ⟨iw, ⟨_, e0, rfl⟩, ?_⟩
  rw [rawVim2 e0, decodeVim2, e1]; rw [bf_eq f0, bf_eq f1, bf_eq f2, bf_eq f3]; rfl

theorem roundTrip.vshri (d : BitVec 7) (a : BitVec 7) (i : BitVec 8) (t : BitVec 3) : roundTrip.Statement (.vshri d a i t) := by
  refine roundTrip.of_one rfl fun v0 hw => ?_
  obtain ⟨iw, e0, e1, f0, f1, f2, f3⟩ := shape73 50 1 d a i t (by decide) (by decide) v0 (by omega)
  refine ⟨iw, ⟨_, e0, rfl⟩, ?_⟩
  rw [rawVim2 e0, decodeVim2, e1]; rw [bf_eq f0, bf_eq f1, bf_eq f2, bf_eq f3]; rfl

theorem roundTrip.vsari (d : BitVec 7) (a : BitVec 7) (i : BitVec 8) (t : BitVec 3) : roundTrip.Statement (.vsari d a i t) := by
  refine roundTrip.of_one rfl fun v0 hw => ?_
  obtain ⟨iw, e0, e1, f0, f1, f2, f3⟩ := shape73 51 0 d a i t (by decide) (by decide) v0 (by omega)
  refine ⟨iw, ⟨_, e0, rfl⟩, ?_⟩
  rw [rawVim3 e0, decodeVim3, e1]; rw [bf_eq f0, bf_eq f1, bf_eq f2, bf_eq f3]; rfl

theorem roundTrip.vextb (d : BitVec 7) (a : BitVec 7) (i : BitVec 8) : roundTrip.Statement (.vextb d a i) := by
  refine roundTrip.of_one rfl fun v0 hw => ?_
  obtain ⟨iw, e0, e1, c0, f0, f1, f2⟩ := shape75 51 1 d a i (by decide) (by decide) v0 (by omega)
  refine ⟨iw, ⟨_, e0, rfl⟩, ?_⟩
  rw [rawVim3 e0, decodeVim3, e1]; refine (if_pos c0).trans ?_; rw [bf_eq f0, bf_eq f1, bf_eq f2]

theorem roundTrip.kand (d : BitVec 3) (a : BitVec 3) (b : BitVec 3) : roundTrip.Statement (.kand d a b) := by
  refine roundTrip.of_one rfl fun v0 hw => ?_
  obtain ⟨iw, e0, e1, c0, c1, c2, c3, f0, f1, f2⟩ := shape76 52 0 d a b (by decide) (by decide) v0 (by omega)
  refine ⟨iw, ⟨_, e0, rfl⟩, ?_⟩
  rw [rawVmsk e0, decodeVmsk, e1]; refine (if_pos ⟨c0, c1, c2, c3⟩).trans ?_; rw [bf_eq f0, bf_eq f1, bf_eq f2]

theorem roundTrip.kor (d : BitVec 3) (a : BitVec 3) (b : BitVec 3) : roundTrip.Statement (.kor d a b) := by
  refine roundTrip.of_one rfl fun v0 hw => ?_
  obtain ⟨iw, e0, e1, c0, c1, c2, c3, f0, f1, f2⟩ := shape76 52 1 d a b (by decide) (by decide) v0 (by omega)
  refine ⟨iw, ⟨_, e0, rfl⟩, ?_⟩
  rw [rawVmsk e0, decodeVmsk, e1]; refine (if_pos ⟨c0, c1, c2, c3⟩).trans ?_; rw [bf_eq f0, bf_eq f1, bf_eq f2]

theorem roundTrip.kxor (d : BitVec 3) (a : BitVec 3) (b : BitVec 3) : roundTrip.Statement (.kxor d a b) := by
  refine roundTrip.of_one rfl fun v0 hw => ?_
  obtain ⟨iw, e0, e1, c0, c1, c2, c3, f0, f1, f2⟩ := shape76 52 2 d a b (by decide) (by decide) v0 (by omega)
  refine ⟨iw, ⟨_, e0, rfl⟩, ?_⟩
  rw [rawVmsk e0, decodeVmsk, e1]; refine (if_pos ⟨c0, c1, c2, c3⟩).trans ?_; rw [bf_eq f0, bf_eq f1, bf_eq f2]

theorem roundTrip.knot (d : BitVec 3) (a : BitVec 3) : roundTrip.Statement (.knot d a) := by
  refine roundTrip.of_one rfl fun v0 hw => ?_
  obtain ⟨iw, e0, e1, c0, c1, c2, f0, f1⟩ := shape77 52 3 d a (by decide) (by decide) v0 (by omega)
  refine ⟨iw, ⟨_, e0, rfl⟩, ?_⟩
  rw [rawVmsk e0, decodeVmsk, e1]; refine (if_pos ⟨c0, c1, c2⟩).trans ?_; rw [bf_eq f0, bf_eq f1]

theorem roundTrip.vdot4 (d : BitVec 7) (a : BitVec 7) (b : BitVec 7) : roundTrip.Statement (.vdot4 d a b) := by
  refine roundTrip.of_one rfl fun v0 hw => ?_
  obtain ⟨iw, e0, e1, c0, f0, f1, f2⟩ := shape56 53 0 d a b (by decide) (by decide) v0 (by omega)
  refine ⟨iw, ⟨_, e0, rfl⟩, ?_⟩
  rw [rawVdot e0, decodeVdot, e1]; refine (if_pos c0).trans ?_; rw [bf_eq f0, bf_eq f1, bf_eq f2]

theorem roundTrip.vdot4u (d : BitVec 7) (a : BitVec 7) (b : BitVec 7) : roundTrip.Statement (.vdot4u d a b) := by
  refine roundTrip.of_one rfl fun v0 hw => ?_
  obtain ⟨iw, e0, e1, c0, f0, f1, f2⟩ := shape56 53 1 d a b (by decide) (by decide) v0 (by omega)
  refine ⟨iw, ⟨_, e0, rfl⟩, ?_⟩
  rw [rawVdot e0, decodeVdot, e1]; refine (if_pos c0).trans ?_; rw [bf_eq f0, bf_eq f1, bf_eq f2]

theorem roundTrip.vdot2b (d : BitVec 7) (a : BitVec 7) (b : BitVec 7) : roundTrip.Statement (.vdot2b d a b) := by
  refine roundTrip.of_one rfl fun v0 hw => ?_
  obtain ⟨iw, e0, e1, e2, f0, f1, f2⟩ := shape66 53 2 4 d a b (by decide) (by decide) (by decide) v0 (by omega)
  refine ⟨iw, ⟨_, e0, rfl⟩, ?_⟩
  rw [rawVdot e0, decodeVdot, e1]; refine (if_pos e2).trans ?_; rw [bf_eq f0, bf_eq f1, bf_eq f2]

theorem roundTrip.vdot2h (d : BitVec 7) (a : BitVec 7) (b : BitVec 7) : roundTrip.Statement (.vdot2h d a b) := by
  refine roundTrip.of_one rfl fun v0 hw => ?_
  obtain ⟨iw, e0, e1, e2, f0, f1, f2⟩ := shape66 53 3 3 d a b (by decide) (by decide) (by decide) v0 (by omega)
  refine ⟨iw, ⟨_, e0, rfl⟩, ?_⟩
  rw [rawVdot e0, decodeVdot, e1]; refine (if_pos e2).trans ?_; rw [bf_eq f0, bf_eq f1, bf_eq f2]

theorem roundTrip.ldv (d : BitVec 7) (bp : BitVec 3) (h : BitVec 5) (off : BitVec 24) : roundTrip.Statement (.ldv d bp h off) := by
  refine roundTrip.of_two rfl fun v0 v1 hw hv => ?_
  obtain ⟨iw, e0, e1, c0, f0, f1⟩ := shape78 54 0 d bp (by decide) (by decide) v0 (by omega)
  obtain ⟨iv, d0, g0, g1⟩ := shape20 h off v1 (by omega)
  refine ⟨iw, iv, ⟨_, e0, rfl⟩, ?_⟩
  rw [rawVmem e0, decodeVmem, e1]; refine (if_pos ⟨c0, d0⟩).trans ?_; rw [bf_eq f0, bf_eq f1, bf_eq g0, bf_eq g1]

theorem roundTrip.ldvp (d : BitVec 6) (bp : BitVec 3) (h : BitVec 5) (off : BitVec 24) : roundTrip.Statement (.ldvp d bp h off) := by
  refine roundTrip.of_two rfl fun v0 v1 hw hv => ?_
  obtain ⟨iw, e0, e1, c0, c1, f0, f1⟩ := shape79 54 1 d bp (by decide) (by decide) v0 (by omega)
  obtain ⟨iv, d0, g0, g1⟩ := shape20 h off v1 (by omega)
  refine ⟨iw, iv, ⟨_, e0, rfl⟩, ?_⟩
  rw [rawVmem e0, decodeVmem, e1]; refine (if_pos ⟨c0, c1, d0⟩).trans ?_; rw [bf_eq f0, bf_eq f1, bf_eq g0, bf_eq g1]

theorem roundTrip.ldvc (d : BitVec 6) (bp : BitVec 3) (cw : BitVec 2) (h : BitVec 5) (off : BitVec 24) : roundTrip.Statement (.ldvc d bp cw h off) := by
  refine roundTrip.of_two rfl fun v0 v1 hw hv => ?_
  obtain ⟨iw, e0, e1, c0, c1, f0, f1, f2⟩ := shape80 54 2 d bp cw (by decide) (by decide) v0 (by omega)
  obtain ⟨iv, d0, g0, g1⟩ := shape20 h off v1 (by omega)
  refine ⟨iw, iv, ⟨_, e0, rfl⟩, ?_⟩
  rw [rawVmem e0, decodeVmem, e1]; refine (if_pos ⟨c0, c1, d0⟩).trans ?_; rw [bf_eq f0, bf_eq f1, bf_eq f2, bf_eq g0, bf_eq g1]

theorem roundTrip.stv (d : BitVec 7) (bp : BitVec 3) (h : BitVec 5) (off : BitVec 24) : roundTrip.Statement (.stv d bp h off) := by
  refine roundTrip.of_two rfl fun v0 v1 hw hv => ?_
  obtain ⟨iw, e0, e1, c0, f0, f1⟩ := shape78 54 3 d bp (by decide) (by decide) v0 (by omega)
  obtain ⟨iv, d0, g0, g1⟩ := shape20 h off v1 (by omega)
  refine ⟨iw, iv, ⟨_, e0, rfl⟩, ?_⟩
  rw [rawVmem e0, decodeVmem, e1]; refine (if_pos ⟨c0, d0⟩).trans ?_; rw [bf_eq f0, bf_eq f1, bf_eq g0, bf_eq g1]

theorem roundTrip.stvp (d : BitVec 6) (bp : BitVec 3) (h : BitVec 5) (off : BitVec 24) : roundTrip.Statement (.stvp d bp h off) := by
  refine roundTrip.of_two rfl fun v0 v1 hw hv => ?_
  obtain ⟨iw, e0, e1, c0, c1, f0, f1⟩ := shape79 54 4 d bp (by decide) (by decide) v0 (by omega)
  obtain ⟨iv, d0, g0, g1⟩ := shape20 h off v1 (by omega)
  refine ⟨iw, iv, ⟨_, e0, rfl⟩, ?_⟩
  rw [rawVmem e0, decodeVmem, e1]; refine (if_pos ⟨c0, c1, d0⟩).trans ?_; rw [bf_eq f0, bf_eq f1, bf_eq g0, bf_eq g1]

theorem roundTrip.stvc (d : BitVec 6) (bp : BitVec 3) (cw : BitVec 2) (h : BitVec 5) (off : BitVec 24) : roundTrip.Statement (.stvc d bp cw h off) := by
  refine roundTrip.of_two rfl fun v0 v1 hw hv => ?_
  obtain ⟨iw, e0, e1, c0, c1, f0, f1, f2⟩ := shape80 54 5 d bp cw (by decide) (by decide) v0 (by omega)
  obtain ⟨iv, d0, g0, g1⟩ := shape20 h off v1 (by omega)
  refine ⟨iw, iv, ⟨_, e0, rfl⟩, ?_⟩
  rw [rawVmem e0, decodeVmem, e1]; refine (if_pos ⟨c0, c1, d0⟩).trans ?_; rw [bf_eq f0, bf_eq f1, bf_eq f2, bf_eq g0, bf_eq g1]

theorem roundTrip.vaadd (d : BitVec 7) (bp : BitVec 3) (bs : BitVec 1) (rm : BitVec 3) (t : BitVec 3) (h : BitVec 5) (off : BitVec 24) : roundTrip.Statement (.vaadd d bp bs rm t h off) := by
  refine roundTrip.of_two rfl fun v0 v1 hw hv => ?_
  obtain ⟨iw, e0, e1, c0, c1, f0, f1, f2, f3, f4⟩ := shape81 54 6 d bp bs rm t (by decide) (by decide) v0 (by omega)
  obtain ⟨iv, d0, g0, g1⟩ := shape20 h off v1 (by omega)
  refine ⟨iw, iv, ⟨_, e0, rfl⟩, ?_⟩
  rw [rawVmem e0, decodeVmem, e1]; refine (if_pos ⟨c0, c1, d0⟩).trans ?_; rw [bf_eq f0, bf_eq f1, bf_eq f2, bf_eq f3, bf_eq f4, bf_eq g0, bf_eq g1]

theorem roundTrip.ldvb (d : BitVec 7) (bp : BitVec 3) (t : BitVec 3) (h : BitVec 5) (off : BitVec 24) : roundTrip.Statement (.ldvb d bp t h off) := by
  refine roundTrip.of_two rfl fun v0 v1 hw hv => ?_
  obtain ⟨iw, e0, e1, c0, c1, f0, f1, f2⟩ := shape82 54 7 d bp t (by decide) (by decide) v0 (by omega)
  obtain ⟨iv, d0, g0, g1⟩ := shape20 h off v1 (by omega)
  refine ⟨iw, iv, ⟨_, e0, rfl⟩, ?_⟩
  rw [rawVmem e0, decodeVmem, e1]; refine (if_pos ⟨c0, c1, d0⟩).trans ?_; rw [bf_eq f0, bf_eq f1, bf_eq f2, bf_eq g0, bf_eq g1]

theorem roundTrip.mma (x : Nat) (y : Nat) (slot : Nat) : roundTrip.Statement (.mma x y slot) :=
  fun _ h => absurd rfl h

theorem roundTrip.mmai (x : Nat) (y : Nat) (slot : Nat) : roundTrip.Statement (.mmai x y slot) :=
  fun _ h => absurd rfl h

theorem roundTrip.mepi (x : Nat) (y : Nat) (slot : Nat) : roundTrip.Statement (.mepi x y slot) :=
  fun _ h => absurd rfl h

theorem roundTrip.copy (x : Nat) (y : Nat) (slot : Nat) : roundTrip.Statement (.copy x y slot) :=
  fun _ h => absurd rfl h

theorem roundTrip.slab (x : Nat) (y : Nat) (slot : Nat) : roundTrip.Statement (.slab x y slot) :=
  fun _ h => absurd rfl h

theorem roundTrip.gather (x : Nat) (y : Nat) (slot : Nat) : roundTrip.Statement (.gather x y slot) :=
  fun _ h => absurd rfl h

theorem roundTrip.fill (x : Nat) (y : Nat) (slot : Nat) : roundTrip.Statement (.fill x y slot) :=
  fun _ h => absurd rfl h

theorem roundTrip.ccvt (x : Nat) (y : Nat) (slot : Nat) : roundTrip.Statement (.ccvt x y slot) :=
  fun _ h => absurd rfl h

theorem roundTrip.cred (x : Nat) (y : Nat) (slot : Nat) : roundTrip.Statement (.cred x y slot) :=
  fun _ h => absurd rfl h

theorem roundTrip.optadam (x : Nat) (y : Nat) (slot : Nat) : roundTrip.Statement (.optadam x y slot) :=
  fun _ h => absurd rfl h

theorem roundTrip.optsgd (x : Nat) (y : Nat) (slot : Nat) : roundTrip.Statement (.optsgd x y slot) :=
  fun _ h => absurd rfl h

theorem roundTrip.engineChunk (x : Nat) (y : Nat) (slot : Nat) : roundTrip.Statement (.engineChunk x y slot) :=
  fun _ h => absurd rfl h

theorem roundTrip.commandCompletion (x : Nat) (y : Nat) (slot : Nat) (mtx : Bool) : roundTrip.Statement (.commandCompletion x y slot mtx) :=
  fun _ h => absurd rfl h

theorem roundTrip.gangStart (gang : Nat) (slot : Nat) : roundTrip.Statement (.gangStart gang slot) :=
  fun _ h => absurd rfl h

theorem roundTrip.deferredEngineError  : roundTrip.Statement (.deferredEngineError) :=
  fun _ h => absurd rfl h

theorem roundTrip.sliceRequest (n : Nat) : roundTrip.Statement (.sliceRequest n) :=
  fun _ h => absurd rfl h

theorem roundTrip.sectorFill (n : Nat) : roundTrip.Statement (.sectorFill n) :=
  fun _ h => absurd rfl h

theorem roundTrip.tableWalk (n : Nat) : roundTrip.Statement (.tableWalk n) :=
  fun _ h => absurd rfl h

theorem roundTrip.lineArrival (n : Nat) : roundTrip.Statement (.lineArrival n) :=
  fun _ h => absurd rfl h

theorem roundTrip.remoteScratchpadRequest (n : Nat) : roundTrip.Statement (.remoteScratchpadRequest n) :=
  fun _ h => absurd rfl h

theorem roundTrip.ticketFetch (n : Nat) : roundTrip.Statement (.ticketFetch n) :=
  fun _ h => absurd rfl h

theorem roundTrip.ticketFetchEnd (n : Nat) : roundTrip.Statement (.ticketFetchEnd n) :=
  fun _ h => absurd rfl h

theorem roundTrip.redemption (n : Nat) : roundTrip.Statement (.redemption n) :=
  fun _ h => absurd rfl h

theorem roundTrip.rdmsDelivery (n : Nat) : roundTrip.Statement (.rdmsDelivery n) :=
  fun _ h => absurd rfl h

theorem roundTrip.retireNotice (n : Nat) : roundTrip.Statement (.retireNotice n) :=
  fun _ h => absurd rfl h

theorem roundTrip.ticketReclaim (n : Nat) : roundTrip.Statement (.ticketReclaim n) :=
  fun _ h => absurd rfl h

theorem roundTrip.messageArrival (n : Nat) : roundTrip.Statement (.messageArrival n) :=
  fun _ h => absurd rfl h

theorem roundTrip.barrierArrival (n : Nat) : roundTrip.Statement (.barrierArrival n) :=
  fun _ h => absurd rfl h

theorem roundTrip.migrationArrival (n : Nat) : roundTrip.Statement (.migrationArrival n) :=
  fun _ h => absurd rfl h

theorem roundTrip.combOperation (die : Nat) : roundTrip.Statement (.combOperation die) :=
  fun _ h => absurd rfl h

theorem roundTrip.combAnswer (n : Nat) : roundTrip.Statement (.combAnswer n) :=
  fun _ h => absurd rfl h

theorem roundTrip.spill (p : Nat) (st : Nat) : roundTrip.Statement (.spill p st) :=
  fun _ h => absurd rfl h

theorem roundTrip.spillComplete (p : Nat) (st : Nat) : roundTrip.Statement (.spillComplete p st) :=
  fun _ h => absurd rfl h

theorem roundTrip.recall (p : Nat) (st : Nat) : roundTrip.Statement (.recall p st) :=
  fun _ h => absurd rfl h

theorem roundTrip.recallComplete (p : Nat) (st : Nat) : roundTrip.Statement (.recallComplete p st) :=
  fun _ h => absurd rfl h

theorem roundTrip.ringEntryRead (p : Nat) (r : Nat) : roundTrip.Statement (.ringEntryRead p r) :=
  fun _ h => absurd rfl h

theorem roundTrip.dependenceRead (p : Nat) (lid : Nat) (k : Nat) : roundTrip.Statement (.dependenceRead p lid k) :=
  fun _ h => absurd rfl h

theorem roundTrip.dependenceReread (p : Nat) : roundTrip.Statement (.dependenceReread p) :=
  fun _ h => absurd rfl h

theorem roundTrip.launchAgeing (p : Nat) (lid : Nat) : roundTrip.Statement (.launchAgeing p lid) :=
  fun _ h => absurd rfl h

theorem roundTrip.groupTableRead (p : Nat) (lid : Nat) : roundTrip.Statement (.groupTableRead p lid) :=
  fun _ h => absurd rfl h

theorem roundTrip.launchDispatch (p : Nat) (lid : Nat) : roundTrip.Statement (.launchDispatch p lid) :=
  fun _ h => absurd rfl h

theorem roundTrip.launchRetirement (p : Nat) (lid : Nat) : roundTrip.Statement (.launchRetirement p lid) :=
  fun _ h => absurd rfl h

theorem roundTrip.doneIncrement (p : Nat) (lid : Nat) : roundTrip.Statement (.doneIncrement p lid) :=
  fun _ h => absurd rfl h

theorem roundTrip.watchdog (p : Nat) (lid : Nat) (idx : Nat) : roundTrip.Statement (.watchdog p lid idx) :=
  fun _ h => absurd rfl h

theorem roundTrip.occupancyRecompute  : roundTrip.Statement (.occupancyRecompute) :=
  fun _ h => absurd rfl h

theorem roundTrip.pwr (watts : Nat) (temp : Nat) : roundTrip.Statement (.pwr watts temp) :=
  fun _ h => absurd rfl h

theorem roundTrip.droopTrip (q : Nat) (eighths : Nat) : roundTrip.Statement (.droopTrip q eighths) :=
  fun _ h => absurd rfl h

theorem roundTrip.powerLimit (near : Bool) : roundTrip.Statement (.powerLimit near) :=
  fun _ h => absurd rfl h

theorem roundTrip.pin (q : Nat) : roundTrip.Statement (.pin q) :=
  fun _ h => absurd rfl h

theorem roundTrip.unpin (q : Nat) : roundTrip.Statement (.unpin q) :=
  fun _ h => absurd rfl h

theorem roundTrip.pageAnswer (p : Nat) (v : BitVec 64) : roundTrip.Statement (.pageAnswer p v) :=
  fun _ h => absurd rfl h

theorem roundTrip.raise (p : Nat) (v : BitVec 64) : roundTrip.Statement (.raise p v) :=
  fun _ h => absurd rfl h

theorem roundTrip.invalidationComplete (p : Nat) : roundTrip.Statement (.invalidationComplete p) :=
  fun _ h => absurd rfl h

theorem roundTrip.sweepComplete (p : Nat) : roundTrip.Statement (.sweepComplete p) :=
  fun _ h => absurd rfl h

theorem roundTrip.prqcfg (p : Nat) (v : BitVec 64) : roundTrip.Statement (.prqcfg p v) :=
  fun _ h => absurd rfl h

theorem roundTrip.tail (p : Nat) (r : Nat) (v : BitVec 64) : roundTrip.Statement (.tail p r v) :=
  fun _ h => absurd rfl h

theorem roundTrip.evhead (fn : Nat) (v : BitVec 64) : roundTrip.Statement (.evhead fn v) :=
  fun _ h => absurd rfl h

theorem roundTrip.axtbl (p : Nat) (v : BitVec 64) : roundTrip.Statement (.axtbl p v) :=
  fun _ h => absurd rfl h

theorem roundTrip.tjtbl (p : Nat) (v : BitVec 64) : roundTrip.Statement (.tjtbl p v) :=
  fun _ h => absurd rfl h

theorem roundTrip.clr (die : Nat) (v : BitVec 64) : roundTrip.Statement (.clr die v) :=
  fun _ h => absurd rfl h

theorem roundTrip.registerWrite (block : Nat) (idx : Nat) (off : Nat) (v : BitVec 64) : roundTrip.Statement (.registerWrite block idx off v) :=
  fun _ h => absurd rfl h

theorem roundTrip.create (p : Nat) : roundTrip.Statement (.create p) :=
  fun _ h => absurd rfl h

theorem roundTrip.reshape (p : Nat) : roundTrip.Statement (.reshape p) :=
  fun _ h => absurd rfl h

theorem roundTrip.destroy (p : Nat) : roundTrip.Statement (.destroy p) :=
  fun _ h => absurd rfl h

theorem roundTrip.stop (p : Nat) : roundTrip.Statement (.stop p) :=
  fun _ h => absurd rfl h

theorem roundTrip.resume (p : Nat) : roundTrip.Statement (.resume p) :=
  fun _ h => absurd rfl h

theorem roundTrip.save (p : Nat) : roundTrip.Statement (.save p) :=
  fun _ h => absurd rfl h

theorem roundTrip.restore (p : Nat) : roundTrip.Statement (.restore p) :=
  fun _ h => absurd rfl h

theorem roundTrip.opUndefined (p : Nat) (op : Nat) : roundTrip.Statement (.opUndefined p op) :=
  fun _ h => absurd rfl h

theorem roundTrip.stopHalt (p : Nat) : roundTrip.Statement (.stopHalt p) :=
  fun _ h => absurd rfl h

theorem roundTrip.flushToken (p : Nat) (x : Nat) (y : Nat) : roundTrip.Statement (.flushToken p x y) :=
  fun _ h => absurd rfl h

theorem roundTrip.load  : roundTrip.Statement (.load) :=
  fun _ h => absurd rfl h

theorem roundTrip.nexta  : roundTrip.Statement (.nexta) :=
  fun _ h => absurd rfl h

theorem roundTrip.nextb  : roundTrip.Statement (.nextb) :=
  fun _ h => absurd rfl h

theorem roundTrip.commit  : roundTrip.Statement (.commit) :=
  fun _ h => absurd rfl h

theorem roundTrip.fwopUndefined (op : Nat) : roundTrip.Statement (.fwopUndefined op) :=
  fun _ h => absurd rfl h

theorem roundTrip.fwVerifyDone  : roundTrip.Statement (.fwVerifyDone) :=
  fun _ h => absurd rfl h

theorem roundTrip.atgo (v : BitVec 64) : roundTrip.Statement (.atgo v) :=
  fun _ h => absurd rfl h

theorem roundTrip.moduleReset  : roundTrip.Statement (.moduleReset) :=
  fun _ h => absurd rfl h

theorem roundTrip.imageVerified  : roundTrip.Statement (.imageVerified) :=
  fun _ h => absurd rfl h

theorem roundTrip.dieReady (d : Nat) : roundTrip.Statement (.dieReady d) :=
  fun _ h => absurd rfl h

theorem roundTrip.dieFailed (d : Nat) : roundTrip.Statement (.dieFailed d) :=
  fun _ h => absurd rfl h

theorem roundTrip.functionLevelReset (p : Nat) : roundTrip.Statement (.functionLevelReset p) :=
  fun _ h => absurd rfl h

theorem roundTrip.vectorUnmask (fn : Nat) (vector : Nat) : roundTrip.Statement (.vectorUnmask fn vector) :=
  fun _ h => absurd rfl h

theorem roundTrip.cxlMemAccess (dec : Nat) (pa : Nat) (w : Option (BitVec 256)) : roundTrip.Statement (.cxlMemAccess dec pa w) :=
  fun _ h => absurd rfl h

theorem roundTrip.hostSnoop (hpa : Nat) : roundTrip.Statement (.hostSnoop hpa) :=
  fun _ h => absurd rfl h

theorem roundTrip.inboundSwarmRequest (die : Nat) (src : Nat) (peer : Nat) (pa : Nat) (op : SwarmOp) : roundTrip.Statement (.inboundSwarmRequest die src peer pa op) :=
  fun _ h => absurd rfl h

theorem roundTrip.linkStateChange (die : Nat) (up : Bool) (peer : Nat) : roundTrip.Statement (.linkStateChange die up peer) :=
  fun _ h => absurd rfl h

theorem roundTrip.flitRetry (die : Nat) (swarm : Bool) (p : Nat) (lid : Nat) : roundTrip.Statement (.flitRetry die swarm p lid) :=
  fun _ h => absurd rfl h

theorem roundTrip.smbusRequest (rq : SmbusRq) : roundTrip.Statement (.smbusRequest rq) :=
  fun _ h => absurd rfl h

theorem roundTrip.adoptNewGen (n : Nat) : roundTrip.Statement (.adoptNewGen n) :=
  fun _ h => absurd rfl h

theorem roundTrip.writeBackComplete (n : Nat) : roundTrip.Statement (.writeBackComplete n) :=
  fun _ h => absurd rfl h

theorem roundTrip.swarmAnswer (n : Nat) (ok : Bool) (data : BitVec 256) : roundTrip.Statement (.swarmAnswer n ok data) :=
  fun _ h => absurd rfl h

theorem roundTrip.stackOperation (die : Nat) : roundTrip.Statement (.stackOperation die) :=
  fun _ h => absurd rfl h

theorem roundTrip.wakeReachesCore (n : Nat) : roundTrip.Statement (.wakeReachesCore n) :=
  fun _ h => absurd rfl h

theorem roundTrip.partitionCommandEnded (p : Nat) (err : Bool) : roundTrip.Statement (.partitionCommandEnded p err) :=
  fun _ h => absurd rfl h

theorem roundTrip.evbase (fn : Nat) (v : BitVec 64) : roundTrip.Statement (.evbase fn v) :=
  fun _ h => absurd rfl h

theorem roundTrip.droopRecovery (q : Nat) : roundTrip.Statement (.droopRecovery q) :=
  fun _ h => absurd rfl h

theorem roundTrip.firmwareRunsOnEveryDie  : roundTrip.Statement (.firmwareRunsOnEveryDie) :=
  fun _ h => absurd rfl h

theorem roundTrip.jtagInstruction (ir : Nat) : roundTrip.Statement (.jtagInstruction ir) :=
  fun _ h => absurd rfl h

end Sys2Proof.Laws
end

