-- ==== Sys2Proof/Tests/Slice0.lean ====
section
/-! SUPPORT. Tests: words of the encoding tables decode to what they stand for (the words of the manual's examples among
them), the well-formedness checks refuse, single steps give the manual's values, and every statement's hypotheses are met by
a state. -/

open Sys2Proof Sys2Proof.Machine Sys2Proof.Claims

section Checks
-- One check after the other: side by side they need more memory than one compile of the package has.
set_option Elab.async false

/-! ## Words, bit by bit (R47, R50, R55–R57)

Each pair is a word of the encoding tables, bit 31 first (word 1 above word 0 for the two-word formats), and the
instruction that its fields spell. -/

theorem test_words_sys : ∀ x ∈ ([
    (32, 0b00000010100000000000000000000000, .nop 10),
    (32, 0b00000010110000000000000100000000, .halt 11),
    (32, 0b00000011000000000000001000000000, .idle 12),
    (32, 0b00000011010000000000001110100101, .trap 13 165),
    (32, 0b00000011100000000000010000000000, .eret 14),
    (32, 0b00000011110000000000010110100101, .bkpt 15 165),
    (32, 0b00000000001011000000011000000001, .rdcyc 0 11 1),
    (32, 0b00000000011011000000011100000001, .rdtime 1 11 1),
    (32, 0b00000000101011000000100000000001, .rdsig 2 11 1),
    (32, 0b00000000111011011000100100000010, .lnch 3 11 6 2),
    (32, 0b00000001000000000000101000000000, .l1inv 4)] : List (Nat × Nat × Instr)),
    decodeTableWord x.1 x.2.1 = some x.2.2 := by decide

theorem test_words_alu : ∀ x ∈ ([
    (32, 0b00000101011011011011010000000000, .add 5 11 6 13),
    (32, 0b00000101101011011011010000000001, .sub 6 11 6 13),
    (32, 0b00000101111011011011010000000010, .and 7 11 6 13),
    (32, 0b00000110001011011011010000000011, .or 8 11 6 13),
    (32, 0b00000110011011011011010000000100, .xor 9 11 6 13),
    (32, 0b00000110101011011011010000000101, .andn 10 11 6 13),
    (32, 0b00000110111011011011010000000110, .shl 11 11 6 13),
    (32, 0b00000111001011011011010000000111, .shr 12 11 6 13),
    (32, 0b00000111011011011011010000001000, .sar 13 11 6 13),
    (32, 0b00000111101011011011010000001001, .rol 14 11 6 13),
    (32, 0b00000111111011011011010000001010, .mul 15 11 6 13),
    (32, 0b00000100001011011011010000001011, .mulh 0 11 6 13),
    (32, 0b00000100011011011011010000001100, .mulhu 1 11 6 13),
    (32, 0b00000100101011011011010000001101, .div 2 11 6 13),
    (32, 0b00000100111011011011010000001110, .divu 3 11 6 13),
    (32, 0b00000101001011011011010000001111, .rem 4 11 6 13),
    (32, 0b00000101011011011011010000010000, .remu 5 11 6 13),
    (32, 0b00000101101011011011010000010001, .min 6 11 6 13),
    (32, 0b00000101111011011011010000010010, .max 7 11 6 13),
    (32, 0b00000110001011011011010000010011, .minu 8 11 6 13),
    (32, 0b00000110011011011011010000010100, .maxu 9 11 6 13),
    (32, 0b00000110101011011000000000010101, .clz 10 11 6),
    (32, 0b00000110111011011000000000010110, .ctz 11 11 6),
    (32, 0b00000111001011011000000000010111, .popc 12 11 6),
    (32, 0b00000111011011011000000000011000, .brev 13 11 6),
    (32, 0b00000111101011011000000000011001, .sextb 14 11 6),
    (32, 0b00000111111011011000000000011010, .sexth 15 11 6),
    (32, 0b00000100001011011000000000011011, .zextb 0 11 6),
    (32, 0b00000100011011011000000000011100, .zexth 1 11 6),
    (32, 0b00000100101011011000000000011101, .mov 2 11 6),
    (32, 0b00000100111011011011010000011110, .slt 3 11 6 13),
    (32, 0b00000101001011011011010000011111, .sltu 4 11 6 13)] : List (Nat × Nat × Instr)),
    decodeTableWord x.1 x.2.1 = some x.2.2 := by decide

theorem test_words_imm : ∀ x ∈ ([
    (32, 0b00001001011011011010101010100101, .addi 5 11 6 10917),
    (32, 0b00001101101011011010101010100101, .andi 6 11 6 10917),
    (32, 0b00010001111011011010101010100101, .ori 7 11 6 10917),
    (32, 0b00010110001011011010101010100101, .xori 8 11 6 10917),
    (32, 0b00011010011011011000000000010101, .shli 9 11 6 21),
    (32, 0b00011010101011011000000000110101, .shri 10 11 6 21),
    (32, 0b00011010111011011000000001010101, .sari 11 11 6 21),
    (32, 0b00011011001011011000000001110101, .roli 12 11 6 21),
    (32, 0b00011111011011101010101010100101, .lih 13 11 174757),
    (32, 0b01110101010011011010101010100101, .paddi 5 3 6 10917)] : List (Nat × Nat × Instr)),
    decodeTableWord x.1 x.2.1 = some x.2.2 := by decide

theorem test_words_cmp : ∀ x ∈ ([
    (32, 0b00100011101011011011011011000000, .cmp 14 5 1 6 13 11),
    (32, 0b00100111111011011010101001011011, .cmpi 15 5 1 6 677 11),
    (32, 0b00101000001011101010000000000000, .pand 0 5 6 5),
    (32, 0b00101000011011101010000000000001, .por 1 5 6 5),
    (32, 0b00101000101011101010000000000010, .pxor 2 5 6 5),
    (32, 0b00101000111011101010000000000011, .pandn 3 5 6 5),
    (32, 0b00101001000000000001011000000100, .prdw 4 11),
    (32, 0b00101001010000000001011000000101, .pwrw 5 11)] : List (Nat × Nat × Instr)),
    decodeTableWord x.1 x.2.1 = some x.2.2 := by decide

theorem test_words_branch : ∀ x ∈ ([
    (32, 0b00101101101111111111111111111101, .br 6 4194301),
    (32, 0b00110001111111111111111111111101, .brl 7 4194301),
    (32, 0b00110110000000011000000000000000, .jr 8 6),
    (32, 0b00110110010000011000000000000001, .jrl 9 6),
    (32, 0b00111100110110101111000000000000, .rep 13 5 3 6)] : List (Nat × Nat × Instr)),
    decodeTableWord x.1 x.2.1 = some x.2.2 := by decide

theorem test_words_pair : ∀ x ∈ ([
    (32, 0b00111010100011011001010000000000, .padd 10 3 6 5),
    (32, 0b00111010110011011001010001010001, .padds 11 3 6 5 5),
    (32, 0b00111011000011011001010001010010, .paddu 12 3 6 5 5),
    (32, 0b00111011010011011001010000000011, .psub 13 3 6 5),
    (32, 0b00111011100011011000000000000100, .pmov 14 3 6)] : List (Nat × Nat × Instr)),
    decodeTableWord x.1 x.2.1 = some x.2.2 := by decide

theorem test_words_ld : ∀ x ∈ ([
    (64, 0b0000000111111111111111111111100001000010010100110000000000000000, .ldb 9 4 6 1 16777208),
    (64, 0b0000001011111111111111111111100001000010010101110000000000000001, .ldbu 9 5 6 2 16777208),
    (64, 0b0000001111111111111111111111100001000010010110110000000000000010, .ldh 9 6 6 3 16777208),
    (64, 0b0000010011111111111111111111100001000010010111110000000000000011, .ldhu 9 7 6 4 16777208),
    (64, 0b0000010111111111111111111111100001000010011000110000000000000100, .ldw 9 8 6 5 16777208),
    (64, 0b0001111101111111111111111111100001000000011010011000000000000101, .ldd 1 5 3 31 8388600),
    (64, 0b1100000000000000000000000000000001000000000110010000000000000110, .lda 0 6 2 6 0 0)] : List (Nat × Nat × Instr)),
    decodeTableWord x.1 x.2.1 = some x.2.2 := by decide

theorem test_words_st : ∀ x ∈ ([
    (64, 0b0000000111111111111111111111100001000110010100110000000000000000, .stb 9 4 6 1 16777208),
    (64, 0b0000001011111111111111111111100001000110010101110000000000000001, .sth 9 5 6 2 16777208),
    (64, 0b0000001111111111111111111111100001000110010110110000000000000010, .stw 9 6 6 3 16777208),
    (64, 0b0001111101111111111111111111100001000100011010011000000000000011, .std 1 5 3 31 8388600),
    (64, 0b1000000000000000000000000000000001000100000101011000000000000100, .str 0 5 3 4 0 0)] : List (Nat × Nat × Instr)),
    decodeTableWord x.1 x.2.1 = some x.2.2 := by decide

theorem test_words_atom : ∀ x ∈ ([
    (64, 0b0000000000000000000000000000010001001000101000001000000000000000, .aadd 2 8 1 0 0 0 4),
    (64, 0b0000000000000000000000000000010001001000101000001000000000010001, .amin 2 8 1 0 1 0 4),
    (64, 0b0000000000000000000000000000010001001000101000001100000000000010, .amax 2 8 1 1 0 0 4),
    (64, 0b0000000000000000000000000000010001001000101000001100000000010011, .aminu 2 8 1 1 1 0 4),
    (64, 0b0000000000000000000000000000010001001000101000001000000000000100, .amaxu 2 8 1 0 0 0 4),
    (64, 0b0000000000000000000000000000010001001000101000001000000000010101, .aand 2 8 1 0 1 0 4),
    (64, 0b0000000000000000000000000000010001001000101000001100000000000110, .aor 2 8 1 1 0 0 4),
    (64, 0b0000000000000000000000000000010001001000101000001100000000010111, .axor 2 8 1 1 1 0 4),
    (64, 0b0000000000000000000000000000010001001000101000001000000000001000, .aswp 2 8 1 0 0 0 4),
    (64, 0b0000000000000000000000000000000001001000001000001000000000011001, .acas 0 8 1 0 1 0 0),
    (64, 0b0000000000000000000000000000000001001000000011001000000000001010, .aaddf 0 3 1 0 0 0)] : List (Nat × Nat × Instr)),
    decodeTableWord x.1 x.2.1 = some x.2.2 := by decide

theorem test_words_ticket : ∀ x ∈ ([
    (64, 0b0000000000000000000000000100000001001100000110010000000000000000, .ldtL 0 6 2 0 64),
    (64, 0b0000000000000000000000000100000001001100000110010000000000000001, .ldtQ 0 6 2 0 64),
    (64, 0b0000000000000000000000000100000001001100000110010000000000000010, .ldtS 0 6 2 0 64),
    (64, 0b0000000000000000000000100000110001001100000111011000000000010011, .ldtC 0 7 3 1 0 524),
    (32, 0b01010010111011010011000000000000, .rdmv 11 45 6),
    (32, 0b01010011000000000011010100000001, .rdms 12 6 5),
    (32, 0b01010011010000000011000000000010, .tkdrop 13 6),
    (32, 0b01010011100000101011000000000011, .tktst 14 5 6),
    (32, 0b01010011110000000000000000000100, .rdmw 15)] : List (Nat × Nat × Instr)),
    decodeTableWord x.1 x.2.1 = some x.2.2 := by decide

theorem test_words_ord : ∀ x ∈ ([
    (32, 0b01010100001100000000000000000000, .fence 0 6),
    (32, 0b01010100011010000100000000000000, .fencee 1 5),
    (32, 0b01010100101000001000000000000000, .acq 2 4),
    (32, 0b01010100110110001100000000000000, .rel 3 3)] : List (Nat × Nat × Instr)),
    decodeTableWord x.1 x.2.1 = some x.2.2 := by decide

theorem test_words_msg : ∀ x ∈ ([
    (32, 0b01011001000000011001000000000000, .send 4 6 1),
    (32, 0b01011001011100000011010000000001, .waitm 5 3 13),
    (32, 0b01011000000100100111110000000010, .pollm 0 1 9 15),
    (32, 0b01011001110000011011010000000011, .mbind 7 6 13),
    (32, 0b01011010000000000011010000000100, .munbind 8 13),
    (32, 0b01011110010000000000100000000000, .bar 9 2),
    (32, 0b01011110101011011000100001000001, .barx 10 11 6 2 4),
    (32, 0b01011110111011000000100000000010, .garv 11 11 2),
    (32, 0b01011111000000011000100000000011, .gwt 12 6 2)] : List (Nat × Nat × Instr)),
    decodeTableWord x.1 x.2.1 = some x.2.2 := by decide

theorem test_words_enq : ∀ x ∈ ([
    (32, 0b01100011011011101101000000000000, .enqm 13 11 45),
    (32, 0b01100011101011101101000000001000, .enqmR 14 11 45),
    (32, 0b01100011111011101101000000000001, .enqc 15 11 45),
    (32, 0b01100000001011101101000000001001, .enqcR 0 11 45),
    (32, 0b01100000011011000010100000000010, .mwait 1 11 5),
    (32, 0b01100000100000000010100000000011, .cwait 2 5),
    (32, 0b01100000111011000010100000000100, .cstat 3 11 5),
    (32, 0b01100101001011000000000000010010, .csrr 4 11 18),
    (32, 0b01100101010000011001000001010101, .csrw 5 6 85),
    (32, 0b01100101101011011010000000010000, .csrs 6 11 6 16),
    (32, 0b01100101111011011011000001110000, .csrc 7 11 6 112)] : List (Nat × Nat × Instr)),
    decodeTableWord x.1 x.2.1 = some x.2.2 := by decide

theorem test_words_unit : ∀ x ∈ ([
    (32, 0b01101010001011011011010000000000, .tjins 8 11 6 13),
    (32, 0b01101010011011011011010000000001, .tjsmp 9 11 6 13),
    (32, 0b01101010101011011011010000000010, .tjpri 10 11 6 13),
    (32, 0b01101010111011011011010000000011, .tjevt 11 11 6 13),
    (32, 0b01101011001011011011010000000100, .tjver 12 11 6 13),
    (32, 0b01101011011011011011010000000101, .tjqry 13 11 6 13),
    (32, 0b01101011101011011011010000000110, .tjget 14 11 6 13),
    (32, 0b01101111111011110011010000000000, .axpush 15 11 6 13),
    (32, 0b01101100001011110011010000000001, .axpop 0 11 6 13),
    (32, 0b01101100011011011011010000000010, .axdepth 1 11 6 13),
    (32, 0b01101100101011011011010000000011, .axdrop 2 11 6 13),
    (32, 0b01110000110000110000000000000000, .go 3 6),
    (32, 0b01110001000000000000000000000001, .gohome 4),
    (32, 0b01111001101011000000010010000000, .qpush 6 11 9),
    (32, 0b01111001111011000000010010000001, .qpop 7 11 9),
    (32, 0b01111010001011000010110010000010, .qtry 8 11 5 9),
    (32, 0b01111010010000010110110010000011, .qpushv 9 45 9),
    (32, 0b01111010100000010110110010000100, .qpopv 10 45 9)] : List (Nat × Nat × Instr)),
    decodeTableWord x.1 x.2.1 = some x.2.2 := by decide

theorem test_words_varith : ∀ x ∈ ([
    (32, 0b10000010110110110110110110110100, .vadd 91 54 109 5),
    (32, 0b10000010110110110110110110110101, .vsub 91 54 109 5),
    (32, 0b10000010110110110110110110110110, .vmin 91 54 109 5),
    (32, 0b10000010110110110110110110110111, .vmax 91 54 109 5),
    (32, 0b10000110110110110110110110110100, .vmul 91 54 109 5),
    (32, 0b10000110110110110110110110110101, .vfma 91 54 109 5),
    (32, 0b10000110110110110110110110110110, .vfms 91 54 109 5),
    (32, 0b10000110110110110110110110110111, .vfnma 91 54 109 5),
    (32, 0b10001010110110110110110110100100, .vadds 91 54 109 1),
    (32, 0b10001010110110110110110110100101, .vsubs 91 54 109 1),
    (32, 0b10001010110110110110110110100110, .vmulh 91 54 109 1),
    (32, 0b10001010110110110110000000010111, .vabs 91 54 5)] : List (Nat × Nat × Instr)),
    decodeTableWord x.1 x.2.1 = some x.2.2 := by decide

theorem test_words_vlogic : ∀ x ∈ ([
    (32, 0b10001110110110110110110110100000, .vand 91 54 109),
    (32, 0b10001110110110110110110110100001, .vor 91 54 109),
    (32, 0b10001110110110110110110110100010, .vxor 91 54 109),
    (32, 0b10001110110110110110110110100011, .vandn 91 54 109),
    (32, 0b10010010110110110110110110100100, .vshl 91 54 109 1),
    (32, 0b10010010110110110110110110100101, .vshr 91 54 109 1),
    (32, 0b10010010110110110110110110100110, .vsar 91 54 109 1),
    (32, 0b10010010110110110110110110100111, .vrol 91 54 109 1)] : List (Nat × Nat × Instr)),
    decodeTableWord x.1 x.2.1 = some x.2.2 := by decide

theorem test_words_vcompare : ∀ x ∈ ([
    (32, 0b10010100000110110110110110110100, .vceq 3 54 109 5),
    (32, 0b10010100000110110110110110110101, .vcne 3 54 109 5),
    (32, 0b10010100000110110110110110110110, .vclt 3 54 109 5),
    (32, 0b10010100000110110110110110110111, .vcle 3 54 109 5),
    (32, 0b10011000000110110110110110100100, .vcltu 3 54 109 1),
    (32, 0b10011000000110110110110110100101, .vcleu 3 54 109 1),
    (32, 0b10011000000110110110110110110110, .vcun 3 54 109 5),
    (32, 0b10011000000110110110000000010011, .vcnf 3 54 4)] : List (Nat × Nat × Instr)),
    decodeTableWord x.1 x.2.1 = some x.2.2 := by decide

theorem test_words_vwide : ∀ x ∈ ([
    (32, 0b10011101101100110110110110100000, .vwadd 27 54 109 0),
    (32, 0b10011101101100110110110110100101, .vwmul 27 54 109 1),
    (32, 0b10011101101100110110110110101110, .vwmac 27 54 109 3),
    (32, 0b10011101101100110110110110110011, .vwsum 27 54 109 4),
    (32, 0b10100010110110110110110110110100, .vhadd 91 54 109 5),
    (32, 0b10100010110110110110110110110101, .vhmax 91 54 109 5),
    (32, 0b10100010110110110110110110110110, .vhmin 91 54 109 5),
    (32, 0b10100010110110110110110110110111, .vscan 91 54 109 5)] : List (Nat × Nat × Instr)),
    decodeTableWord x.1 x.2.1 = some x.2.2 := by decide

theorem test_words_vpermute : ∀ x ∈ ([
    (32, 0b10100110110110110110110110110100, .vzipl 91 54 109 5),
    (32, 0b10100110110110110110110110110101, .vziph 91 54 109 5),
    (32, 0b10100110110110110110110110110110, .vunzl 91 54 109 5),
    (32, 0b10100110110110110110110110110111, .vunzh 91 54 109 5),
    (32, 0b10101010110110110110110110110100, .vshuf 91 54 109 5),
    (32, 0b10101010110110110110110110110101, .vsel 91 54 109 5),
    (32, 0b10101010110110110110000000010110, .vrev 91 54 5),
    (32, 0b10101010110110110110000000010111, .vdupl 91 54 5)] : List (Nat × Nat × Instr)),
    decodeTableWord x.1 x.2.1 = some x.2.2 := by decide

theorem test_words_vconvert : ∀ x ∈ ([
    (32, 0b10101100000111000101100001111010, .vcvt 3 69 8 7 5 0),
    (32, 0b10110010110110110000010100100000, .vqblk 91 6 5 1),
    (32, 0b10110010110000110110010100100001, .vmxdec 11 54 5 1),
    (32, 0b10110011011000110110010100000010, .vdec 27 54 5),
    (32, 0b10110010110111011000010100000011, .venc 91 22 5)] : List (Nat × Nat × Instr)),
    decodeTableWord x.1 x.2.1 = some x.2.2 := by decide

theorem test_words_vspecial : ∀ x ∈ ([
    (32, 0b10110110110110110110000000010100, .vrcp 91 54),
    (32, 0b10110110110110110110000000010101, .vrsq 91 54),
    (32, 0b10110110110110110110000000010110, .vexp2 91 54),
    (32, 0b10110110110110110110000000010111, .vlog2 91 54),
    (32, 0b10111010110110110110000000010100, .vsqrt 91 54),
    (32, 0b10111010110110110110110110110101, .vdiv 91 54 109),
    (32, 0b10111010110110110110000000010110, .vflr 91 54 5),
    (32, 0b10111010110110110110000000001111, .vrnd 91 54 3),
    (32, 0b10111110110110000000010100000000, .vrng 91 5),
    (32, 0b10111110110110000000010110100001, .vrngf 91 5 5)] : List (Nat × Nat × Instr)),
    decodeTableWord x.1 x.2.1 = some x.2.2 := by decide

theorem test_words_vmove : ∀ x ∈ ([
    (32, 0b11000010110110000000010110100000, .vmovs 91 5 5),
    (32, 0b11000010110110000101010100100001, .vins 91 5 5 1),
    (32, 0b11000000001010110110010100100010, .vext 5 54 5 1),
    (32, 0b11000000001100000000010100000011, .kmovs 6 5),
    (32, 0b11000000000000000110010100000100, .kext 6 5),
    (32, 0b11000110110110110110101001010010, .vaddi 91 54 165 1),
    (32, 0b11000110110110000000101001011011, .vspli 91 165 5),
    (32, 0b11001010110110110110000011010010, .vshli 91 54 13 1),
    (32, 0b11001010110110110110000011010011, .vshri 91 54 13 1),
    (32, 0b11001110110110110110000011010010, .vsari 91 54 13 1),
    (32, 0b11001110110110110110000011010001, .vextb 91 54 13)] : List (Nat × Nat × Instr)),
    decodeTableWord x.1 x.2.1 = some x.2.2 := by decide

theorem test_words_vmask : ∀ x ∈ ([
    (32, 0b11010000000110000110000010100000, .kand 3 6 5),
    (32, 0b11010000000110000110000010100001, .kor 3 6 5),
    (32, 0b11010000000110000110000010100010, .kxor 3 6 5),
    (32, 0b11010000000110000110000000000011, .knot 3 6),
    (32, 0b11010110110110110110110110100000, .vdot4 91 54 109),
    (32, 0b11010110110110110110110110100001, .vdot4u 91 54 109),
    (32, 0b11010110110110110110110110110010, .vdot2b 91 54 109),
    (32, 0b11010110110110110110110110101111, .vdot2h 91 54 109)] : List (Nat × Nat × Instr)),
    decodeTableWord x.1 x.2.1 = some x.2.2 := by decide

theorem test_words_vmem : ∀ x ∈ ([
    (64, 0b0000001100000000000000000001000011011011111010100000000000000000, .ldv 125 2 3 16),
    (64, 0b0000000000000000000000000010000011011000001000100000000000000001, .ldvp 2 2 0 32),
    (64, 0b0000000000000000000000100000110011011000010000110000000000010010, .ldvc 4 3 1 0 524),
    (64, 0b0000000011111111111111111111000011011010101010100000000000000011, .stv 85 2 0 16777200),
    (64, 0b0000000000000000000000000010000011011011111101110000000000000100, .stvp 63 7 0 32),
    (64, 0b0000000000000000000000001000000011011000001100010000000000100101, .stvc 3 1 2 0 128),
    (64, 0b0000000000000000000000000000000011011000001000100000101100000110, .vaadd 4 2 0 5 4 0 0),
    (64, 0b0000000000000000000000000000011011011000000110100000000001000111, .ldvb 3 2 1 0 6)] : List (Nat × Nat × Instr)),
    decodeTableWord x.1 x.2.1 = some x.2.2 := by decide
/-- Words of the manual's own examples and tables, each with the instruction printed beside it. -/
theorem test_words_manual_1 : ∀ x ∈ ([
    (32, 0x4191400, .add 0 6 4 5), (32, 0x408D00C, .mulhu 0 2 3 4), (32, 0x40C480D, .div 0 3 1 2),
    (32, 0x409C015, .clz 0 2 7), (32, 0x420001D, .mov 0 8 0), (32, 0x4199C04, .xor 0 6 6 7),
    (32, 0x101DE667, .ori 0 7 7 0x2667), (32, 0x8047FFC, .addi 0 1 1 0x3FFC),
    (32, 0xC0CC0FF, .andi 0 3 3 0xFF), (32, 0x1408BFFF, .xori 0 2 2 0x3FFF), (32, 0x18110003, .shli 0 4 4 3),
    (32, 0x1815805F, .sari 0 5 6 31), (32, 0x1C1DA827, .lih 0 7 0x1A827), (32, 0x20104C80, .cmp 0 2 0 1 3 2),
    (32, 0x2409C000, .cmpi 0 1 0 7 0 0), (32, 0x24140105, .cmpi 0 2 1 0 0x10 5),
    (32, 0x28194000, .pand 0 3 1 2), (32, 0x28090002, .pxor 0 1 1 0), (32, 0x28000A04, .prdw 0 5),
    (32, 0x28000A05, .pwrw 0 5), (32, 0x2C3FFFFD, .br 0 0x3FFFFD), (32, 0x30800010, .brl 2 0x10),
    (32, 0x3403C000, .jr 0 15), (32, 0x3443C000, .jr 1 15)] : List (Nat × Nat × Instr)),
    decodeTableWord x.1 x.2.1 = some x.2.2 := by decide

/-- Words of the manual's own examples and tables, each with the instruction printed beside it. -/
theorem test_words_manual_2 : ∀ x ∈ ([
    (32, 0x34018001, .jrl 0 6), (32, 0x38088C00, .padd 0 2 2 3), (32, 0x38088C31, .padds 0 2 2 3 3),
    (32, 0x38144004, .pmov 0 5 1), (32, 0x7419BFE0, .paddi 0 6 6 0x3FE0), (32, 0x3C324800, .rep 3 1 1 1),
    (32, 0x64080012, .csrr 0 2 0x012), (32, 0x64011000, .csrw 0 4 0x000), (32, 0x640CA010, .csrs 0 3 2 0x010),
    (32, 0x64007010, .csrc 0 0 1 0x010), (32, 0x0, .nop 0), (32, 0x100, .halt 0), (32, 0x200, .idle 0),
    (32, 0x307, .trap 0 7), (32, 0x400, .eret 0), (32, 0x505, .bkpt 0 5), (32, 0x100600, .rdcyc 0 4 0),
    (32, 0x180700, .rdtime 0 6 0), (32, 0x80801, .rdsig 0 2 1), (32, 0x260902, .lnch 0 9 8 2),
    (32, 0xA00, .l1inv 0), (32, 0x68191400, .tjins 0 6 4 5), (32, 0x6C18A000, .axpush 0 6 1 8),
    (32, 0x6C252001, .axpop 0 9 2 8)] : List (Nat × Nat × Instr)),
    decodeTableWord x.1 x.2.1 = some x.2.2 := by decide

/-- Words of the manual's own examples and tables, each with the instruction printed beside it. -/
theorem test_words_manual_3 : ∀ x ∈ ([
    (32, 0x70018000, .go 0 3), (32, 0x5800A000, .send 0 2 2), (32, 0x60242000, .enqm 0 9 2),
    (32, 0x60242001, .enqc 0 9 2), (32, 0x60242009, .enqcR 0 9 2), (32, 0x60004803, .cwait 0 9),
    (32, 0x60284804, .cstat 0 10 9), (32, 0x54200000, .fence 0 4), (32, 0x780C0280, .qpush 0 3 5),
    (32, 0x78100101, .qpop 0 4 2), (32, 0x78101102, .qtry 0 4 2 2), (32, 0x78003083, .qpushv 0 6 1),
    (32, 0x50043000, .rdmv 0 4 6), (32, 0x50003301, .rdms 0 6 3), (32, 0x50003002, .tkdrop 0 6),
    (32, 0x50013003, .tktst 0 2 6), (32, 0x50000004, .rdmw 0), (64, 0x840190005, .ldd 0 3 2 0 8),
    (64, 0x100001040108004, .ldw 0 4 1 1 16), (64, 0x8000000044158004, .str 0 5 3 4 0 0),
    (64, 0x844188002, .stw 0 6 1 0 8), (64, 0x44808C000, .aadd 0 2 1 1 0 0 4),
    (64, 0x48190004, .amaxu 0 6 2 0 0 0 0), (64, 0x48190016, .aor 0 6 2 0 1 0 0)] : List (Nat × Nat × Instr)),
    decodeTableWord x.1 x.2.1 = some x.2.2 := by decide

/-- Words of the manual's own examples and tables, each with the instruction printed beside it. -/
theorem test_words_manual_4 : ∀ x ∈ ([
    (64, 0x48048008, .aswp 0 1 1 0 0 0 0), (64, 0x48208019, .acas 0 8 1 0 1 0 0),
    (64, 0x480C800A, .aaddf 0 3 1 0 0 0), (64, 0x404C190000, .ldtL 0 6 2 0 64),
    (64, 0x20C4C1D8013, .ldtC 0 7 3 1 0 0x20C), (64, 0x20D8220001, .ldvp 2 2 0 0x20),
    (64, 0x20CD8430012, .ldvc 4 3 1 0 0x20C), (64, 0x6D81A0047, .ldvb 3 2 1 0 6),
    (64, 0xD8220B06, .vaadd 4 2 0 5 4 0 0), (32, 0x80100034, .vadd 2 0 1 5), (32, 0x84100035, .vfma 2 0 1 5),
    (32, 0x843040B1, .vfma 6 4 5 4), (32, 0x88181044, .vadds 3 1 2 1), (32, 0x940840B6, .vclt 1 4 5 5),
    (32, 0x9810300F, .vcnf 2 3 3), (32, 0xD0181041, .kor 3 1 2), (32, 0x9C40206E, .vwmac 4 2 3 3),
    (32, 0xA018004B, .vscan 3 0 2 2), (32, 0xD4201040, .vdot4 4 1 2), (32, 0xD4201052, .vdot2b 4 1 2),
    (32, 0xA4301044, .vzipl 6 1 2 1), (32, 0xA8283089, .vsel 5 3 4 2), (32, 0xAC18287A, .vcvt 3 2 8 7 5 0),
    (32, 0xAC201891, .vcvt 4 1 8 9 0 1)] : List (Nat × Nat × Instr)),
    decodeTableWord x.1 x.2.1 = some x.2.2 := by decide

/-- Words of the manual's own examples and tables, each with the instruction printed beside it. -/
theorem test_words_manual_5 : ∀ x ∈ ([
    (32, 0xAC302C80, .vcvt 6 2 12 8 0 0), (32, 0xB0400520, .vqblk 8 0 5 1), (32, 0xB0008521, .vmxdec 0 8 5 1),
    (32, 0xB0201602, .vdec 1 1 6), (32, 0xB4101014, .vrcp 2 1), (32, 0xB8284014, .vsqrt 5 4),
    (32, 0xB8202075, .vdiv 4 2 3), (32, 0xBC200200, .vrng 4 2), (32, 0xBC2803A1, .vrngf 5 3 5),
    (32, 0xC0180440, .vmovs 3 4 2), (32, 0xC0185421, .vins 3 5 4 1), (32, 0xC0283622, .vext 5 3 6 1),
    (32, 0xC0100703, .kmovs 2 7), (32, 0xC0002704, .kext 2 7), (32, 0xC4081FF4, .vaddi 1 1 0xFF 2),
    (32, 0xC400001B, .vspli 0 1 5), (32, 0xC8183042, .vshli 3 3 4 1), (32, 0xCC101041, .vextb 2 1 4)] : List (Nat × Nat × Instr)),
    decodeTableWord x.1 x.2.1 = some x.2.2 := by decide


/-- A word is refused for a reason. -/
def refusedAs (w : Nat) (r : Reject) : Bool :=
  match decodeWords w 0 with
  | .error q => q == r
  | .ok _ => false

/-- Refused: a condition of 13, a conversion from code 14, SCOPE 7 and a nonzero unused operand (R53, R60, R229). -/
theorem test_words_refused :
    refusedAs 0x2414010D .illegal = true ∧ refusedAs 0xAC182E7A .format = true ∧ refusedAs 0x54380000 .scope = true ∧
    refusedAs 0x54010000 .illegal = true ∧ refusedAs 0x0409C415 .illegal = true ∧ refusedAs 0x68191410 .illegal = true := by
  decide

/-! ## Well-formedness: each check refuses a term, and its boundary passes -/

/-- The checks of encoded forms (R60): conditions, CSR numbers, POLLM's register, reductions, doubleword registers, column
widths, VAADD's rounding and type, scopes, integer, float and block types, conversion pairs, pair registers, element
indexes, shift amounts and VEXTB's count. -/
theorem test_wf_refuses_forms : ∀ i ∈ ([
    .cmp 0 1 0 2 3 12, .cmpi 0 1 0 2 3 15, .csrr 0 1 0x009, .csrw 0 1 0x025, .csrs 0 1 2 0x043, .csrc 0 1 2 0x081,
    .pollm 0 2 9 1, .barx 0 1 2 3 5, .aadd 0 3 1 0 1 0 0, .amin 0 3 1 0 1 0 0, .amax 0 3 1 0 1 0 0, .aminu 0 3 1 0 1 0 0,
    .amaxu 0 3 1 0 1 0 0, .aand 0 3 1 0 1 0 0, .aor 0 3 1 0 1 0 0, .axor 0 3 1 0 1 0 0, .aswp 0 3 1 0 1 0 0,
    .acas 0 3 1 0 0 0 0, .acas 0 2 1 0 1 0 0, .ldtC 0 1 2 3 0 0, .ldvc 1 2 3 0 0, .stvc 1 2 3 0 0,
    .vaadd 1 2 0 6 4 0 0, .vaadd 1 2 0 5 2 0 0, .vaadd 1 2 0 0 6 0 0, .fence 0 7, .fencee 0 7, .acq 0 7, .rel 0 7,
    .lda 0 1 2 7 0 0, .str 0 1 2 7 0 0, .vadds 1 2 3 5, .vsubs 1 2 3 3, .vmulh 1 2 3 4, .vshl 1 2 3 5, .vshr 1 2 3 5,
    .vsar 1 2 3 5, .vrol 1 2 3 5, .vcltu 1 2 3 5, .vcleu 1 2 3 5, .vcun 1 2 3 0, .vcnf 1 2 2, .vwadd 1 2 3 2, .vwmul 1 2 3 5,
    .vwmac 1 2 3 2, .vwsum 1 2 3 5, .vcvt 1 2 8 7 6 0, .vcvt 1 2 14 7 0 0, .vqblk 2 1 3 2, .vqblk 3 1 3 0, .vmxdec 1 2 3 2,
    .vmxdec 1 3 3 0, .vflr 1 2 2, .vrnd 1 2 0, .vrngf 1 2 1, .vins 1 8 2 1, .vext 4 1 2 2, .vaddi 1 2 3 5, .vspli 1 2 6,
    .vshli 1 2 16 1, .vshri 1 2 8 0, .vsari 1 2 32 2, .vshli 1 2 0 5, .vextb 1 2 17] : List Instr), wf i = false := by decide

theorem test_wf_boundaries : ∀ i ∈ ([
    .cmp 0 1 0 2 3 11, .csrr 0 1 0x008, .pollm 0 1 9 1, .barx 0 1 2 3 4, .aadd 0 2 1 0 1 0 0, .acas 0 4 1 0 1 0 0,
    .ldtC 0 1 2 2 0 0, .vaadd 1 2 0 5 5 0 0, .fence 0 6, .str 0 1 2 6 0 0, .vadds 1 2 3 2, .vcun 1 2 3 7, .vwadd 1 2 3 4,
    .vcvt 1 2 8 7 5 0, .vqblk 3 1 3 1, .vins 1 7 2 1, .vshli 1 2 15 1, .vextb 1 2 16] : List Instr), wf i = true := by decide

/-- The checks of events: a core's coordinates and slot, a gang, a die, a stack, a ring, a dependence, a partition, OP codes
that have a meaning of their own, stretches, quads, functions, vectors and decoders. -/
theorem test_wf_refuses_events :
    wf (.copy 640 0 0) = false ∧ wf (.mma 0 640 0) = false ∧ wf (.engineChunk 0 0 16) = false ∧ wf (.gangStart 25600 0) = false ∧
    wf (.combOperation 16) = false ∧ wf (.spill 64 0) = false ∧ wf (.recall 0 16) = false ∧ wf (.tail 0 4 0) = false ∧
    wf (.dependenceRead 0 0 2) = false ∧ wf (.raise 64 0) = false ∧ wf (.flushToken 0 0 640) = false ∧
    wf (.opUndefined 0 3) = false ∧ wf (.fwopUndefined 4) = false ∧ wf (.droopTrip 0 5) = false ∧ wf (.pin 320) = false ∧
    wf (.evhead 65 0) = false ∧ wf (.vectorUnmask 0 2) = false ∧ wf (.cxlMemAccess 65 0 none) = false := by decide
theorem test_wf_events_boundaries :
    wf (.copy 639 639 15) = true ∧ wf (.gangStart 25599 15) = true ∧ wf (.combOperation 15) = true ∧ wf (.spill 63 15) = true ∧
    wf (.tail 63 3 0) = true ∧ wf (.dependenceRead 63 0 1) = true ∧ wf (.opUndefined 0 8) = true ∧
    wf (.fwopUndefined 5) = true ∧ wf (.droopTrip 319 4) = true ∧ wf (.evhead 64 0) = true ∧ wf (.vectorUnmask 64 1) = true ∧
    wf (.cxlMemAccess 64 0 none) = true := by decide

/-! ## States that meet the statements' hypotheses -/

/-- A thread of partition 0 about to run a word, and the same state with that thread changed. -/
def probe : State := State.reset.withFetchWord 64 0x04191400
def probeT (f : Thread → Thread) : State := { probe with thr := f probe.thr }
theorem packet_alone {s : State} {k : Packet} (h : s.net = [k]) (w : s.swept = []) (e : k.entries ≤ 64) :
    s.packet? k.seq = some k := by
  simp [State.packet?, State.granted, h, w, e]
theorem one_entry : Nat.max 1 ((0 + 63) / 64) ≤ 64 := by decide
def probeRep : Rep := { i := 0, last := 63, w0 := 0x04191400, id := 7, ia := 1 }

theorem test_witness_RoundTrip :
    formCheck (.add 15 15 15 15) = none ∧ encode (.add 15 15 15 15) ≠ [] ∧
    formCheck (.stvc 63 7 2 31 0xFFFFFF) = none ∧ encode (.stvc 63 7 2 31 0xFFFFFF) ≠ [] ∧
    formCheck (.rep 63 7 7 7) = none ∧ encode (.rep 63 7 7 7) ≠ [] := by decide

theorem test_witness_DecodedWords :
    (∃ w0 : Word, w0.toNat / 2 ^ 26 = 0x1F) ∧ (∃ w0 : Word, w0.toNat / 2 ^ 26 = 0x37) ∧
    (∃ w0 : Word, w0.toNat / 2 ^ 26 = 0x3F) :=
  ⟨⟨0x7C000000, by decide⟩, ⟨0xDC000000, by decide⟩, ⟨0xFFFFFFFF, by decide⟩⟩

theorem test_witness_StepRunsDecoded :
    (probe.agenda = [] ∧ probe.canIssue = true ∧ probe.thr.phase = .run ∧ probe.turnOver = false ∧ probe.pendingErrs = [] ∧
      probe.thr.rep = none ∧ probe.word? probe.thr.pc.toNat = some 0x04191400 ∧ twoWord 0x04191400 = false ∧
      decodeTableWord 32 0x04191400 = some (.add 0 6 4 5) ∧
      shapeCheck probe.thr.vregs probe.thr.prv probe.thr.lperm (.add 0 6 4 5) = none ∧
      probe.thr.poisonRead 0x04191400 (.add 0 6 4 5) = none) ∧
    (let s := State.reset.withFetchWord 64 0x0000000840190005
     twoWord 0x40190005 = true ∧ s.word? s.thr.pc.toNat = some 0x40190005 ∧ s.word? (s.thr.pc + 4).toNat = some 8) ∧
    (let s := probeT (fun t => { t with rep := some probeRep })
     s.canIssue = true ∧ s.thr.phase = .run ∧ s.turnOver = false ∧ s.thr.rep = some probeRep ∧
      stepWord probeRep.w0.toNat probeRep.i probeRep.id probeRep.ia probeRep.ib = 0x04191400) := by
  decide

theorem test_witness_DecodeTraps :
    let s (w : Nat) : State :=
      let u := State.reset.withFetchWord 32 w
      { u with thr := { u.thr with flog := 0, prv := false, lperm := false, csr := { u.thr.csr with tvecl := 0x2000 } } }
    (∀ w ∈ [0x7C000000, 0x54380000, 0xAC182E7A, 0x00260902, 0x84FFFFF5],
      (s w).canIssue = true ∧ (s w).thr.tvec ≠ 0 ∧ (s w).word? (s w).thr.pc.toNat = some (BitVec.ofNat 32 w) ∧
      twoWord w = false ∧ (s w).pendingErrs = [] ∧ (s w).turnOver = false) ∧
    refusedAs 0x7C000000 .illegal = true ∧ refusedAs 0x54380000 .scope = true ∧ refusedAs 0xAC182E7A .format = true ∧
    shapeCheck (s 0).thr.vregs (s 0).thr.prv (s 0).thr.lperm (.lnch 0 9 8 2) = some .priv ∧
    shapeCheck (s 0).thr.vregs (s 0).thr.prv (s 0).thr.lperm (.vadd 31 16 15 5) = some (.regRange 31) ∧
    (let u := s 0x04191400
     let v : State := { u with thr := { u.thr with poison := [5, 4096 * 4 + 0x001] } }
     v.canIssue = true ∧ v.pendingErrs = [] ∧ decodeTableWord 32 0x04191400 = some (.add 0 6 4 5) ∧
      shapeCheck v.thr.vregs v.thr.prv v.thr.lperm (.add 0 6 4 5) = none ∧ v.thr.poisonRead 0x04191400 (.add 0 6 4 5) = some 5 ∧
      v.thr.poisonRead 0x64080001 (.csrr 0 2 0x001) = some 16385) := by
  decide

theorem test_witness_StepRunsEvent :
    ({ probe with agenda := [.event (.raise 63 1) 7] }).agenda = .event (.raise 63 1) 7 :: [] ∧ encode (.raise 63 1) = [] ∧
    encode (.nop 0) ≠ [] ∧ ({ probe with agenda := [.upset (.corrected 15 4) 224] }).agenda = .upset (.corrected 15 4) 224 :: [] ∧
    ({ probe with agenda := [.hostRead 0 false 0x140000 0] }).agenda = .hostRead 0 false 0x140000 0 :: [] := by decide

theorem test_witness_DisabledPasses : guardLen (.add 8 6 4 5) = some (8, 4) ∧ probe.thr.enabled 8 = false ∧
    guardLen (.ldb 1 6 4 0 5) = some (1, 8) ∧ probe.thr.enabled 1 = false := by decide

theorem on_probe : on probe 0 := ⟨rfl, by unfold plain; decide⟩
theorem plain_probe : plain probe := on_probe.2

/-! ## The manual's worked values

One operation, or one step of `exec` on the probe, against the values that the manual works out. -/

/-- What holds of the thread after one instruction on the probe, changed by f first. -/
def after (f : Thread → Thread) (i : Instr) (q : Thread → Bool) : Bool :=
  match exec i (probeT f) with
  | .next u => q u.thr
  | .fault _ => false
  | .refused _ => false

/-- The example of R94: partition 9 owns quads 211 and 212 and accesses VA 0x0000_1234_5678_9ABC. -/
def probeNine : State := probe.modPart 9 (fun x => { x with pcur := 0x410BA })

theorem test_slice_and_set : probeNine.sliceIx 9 0x123456789ABC = 7 ∧ probeNine.sliceOf 9 0x123456789ABC = 851 ∧
    probeNine.setOf 9 0x123456789ABC = 52 := by decide +kernel

/-- The signature bits of that sector, with R294. -/
theorem test_signature : sectorNo 0x123456789ABC = 0x48D159E26 ∧ sigH1 0x48D159E26 = 0x13D ∧ sigH2 0x48D159E26 = 0x173 := by
  decide +kernel

/-- The example with R109: core (357, 412), slice index 7, sequence number 0. -/
theorem test_ticket : tkValue 7 (coreAt 357 412) 0 = 0x00EE6968 ∧ tkCore 0x00EE6969 = coreAt 357 412 := by decide +kernel

/-- The example with R66: offset 0x200 of the core at (37, 92) of the partition. -/
theorem test_window :
    let s := probe.modPart 0 (fun x => { x with pcur := 0xFFFF083000 })
    s.window 0 0 0xFE00005C00250200 [0x200] = some (coreAt 37 92, 0x200) ∧
    s.window 0 5 0xFF00000000000200 [0x200] = some (5, 0x200) := by decide +kernel

/-- The example of R147: slot mask 0x1111 and L1M 0x1000. -/
theorem test_banks :
    let s := { (probe.modPart 9 (fun x => { x with pcur := 0x11110410BA })) with l1cfg := [(64 * coreAt 357 412 + 9, 0x1000)] }
    s.banks 9 (coreAt 357 412) = [0, 4, 8] ∧ s.scratchSize 9 (coreAt 357 412) = 12288 ∧
    s.sramAddr 9 (coreAt 357 412) 0x2010 = 4096 * (16 * coreAt 357 412 + 8) + 0x10 ∧
    s.l1Lines 9 (coreAt 357 412) = 128 := by decide +kernel

/-- R171: a zero divisor, and the signed case that overflows. -/
theorem test_div : after (fun t => (t.ws 1 7).ws 2 0) (.div 0 3 1 2) (fun t => t.rs 3 == 0xFFFFFFFF) = true ∧
    after (fun t => (t.ws 1 0x80000000).ws 2 0xFFFFFFFF) (.div 0 3 1 2) (fun t => t.rs 3 == 0x80000000) = true := by
  decide +kernel
theorem test_rem : after (fun t => (t.ws 1 7).ws 2 0) (.rem 0 3 1 2) (fun t => t.rs 3 == 7) = true ∧
    after (fun t => (t.ws 1 0xFFFFFFF9).ws 2 2) (.rem 0 3 1 2) (fun t => t.rs 3 == 0xFFFFFFFF) = true := by decide +kernel

/-- The example "Narrowing FP32 to E4M3": RNE, with and without saturation; OF, NX, UF and NF (R208). -/
theorem test_vcvt :
    let x := vecOf 32 [0x43960000, 0x43FA0000, 0xBA83126F, 0x7FC00000]
    after (·.wv 1 x) (.vcvt 2 1 8 9 0 0) (fun t => t.rv 2 == 0x7F817F79 && t.csr.fstat == (fOF ||| fNX ||| fUF ||| fNF).setWidth 32)
      = true ∧
    after (·.wv 1 x) (.vcvt 2 1 8 9 0 1) (fun t => t.rv 2 == 0x7F817E79 && t.csr.fstat == (fOF ||| fNX ||| fUF ||| fNF).setWidth 32)
      = true := by decide +kernel

/-- The example "A block decoded": 5.0, 1.2 and −0.7 under the scale 0x7F, and the quantiser back from 4.0, 1.0 and −0.5. -/
theorem test_vmxdec :
    after (fun t => (t.wv 8 0x926).ws 5 0x7F) (.vmxdec 0 8 5 1)
      (fun t => t.rv 0 == vecOf 32 [0x40800000, 0x3F800000, 0xBF000000, 0] && t.rv 7 == 0 && t.csr.fstat == 0) = true := by
  decide +kernel
theorem test_vqblk :
    after (·.wv 0 (vecOf 32 [0x40A00000, 0x3F99999A, 0xBF333333, 0])) (.vqblk 8 0 5 1)
      (fun t => t.rv 8 == 0x926 && t.rs 5 == 0x7F) = true ∧
    after (·.wv 0 (vecOf 32 [0x40800000, 0x3F800000, 0xBF000000, 0])) (.vqblk 8 0 5 1)
      (fun t => t.rv 8 == 0x926 && t.rs 5 == 0x7F && t.csr.fstat == 0) = true := by decide +kernel

/-- The example of R219: (1.0, NaN, −0.0, 2.0) below (2.0, 0.0, +0.0, 1.0). -/
theorem test_vclt :
    after (fun t => (t.wv 4 (vecOf 32 [0x3F800000, 0x7FC00000, 0x80000000, 0x40000000])).wv 5
        (vecOf 32 [0x40000000, 0, 0, 0x3F800000])) (.vclt 1 4 5 5)
      (fun t => t.rk 1 == 0x000F && t.csr.fstat == 1) = true := by decide +kernel

/-- The examples with R222: 256 and seven ones in BF16, summed and scanned; and a scan of words. -/
theorem test_vhadd :
    after (·.wv 5 (vecOf 16 [0x4380, 0x3F80, 0x3F80, 0x3F80, 0x3F80, 0x3F80, 0x3F80, 0x3F80])) (.vhadd 7 5 6 4)
      (fun t => t.rv 7 == 0x4384 && t.csr.fstat == 4) = true := by decide +kernel
theorem test_vscan :
    after (fun t => (t.wv 1 (vecOf 32 [5, 6, 7, 8])).wv 3 (vecOf 32 [1, 3, 6, 10])) (.vscan 4 1 3 2)
      (fun t => t.rv 4 == vecOf 32 [15, 21, 28, 36]) = true ∧
    after (·.wv 5 (vecOf 16 [0x4380, 0x3F80, 0x3F80, 0x3F80, 0x3F80, 0x3F80, 0x3F80, 0x3F80])) (.vscan 7 5 6 4)
      (fun t => t.rv 7 == vecOf 16 [0x4380, 0x4380, 0x4381, 0x4382, 0x4382, 0x4382, 0x4383, 0x4384] && t.csr.fstat == 4) = true := by
  decide +kernel

/-- The example of VEXT: element 5 of h and of hf. -/
theorem test_vext : after (·.wv 3 (vecOf 16 [0, 0, 0, 0, 0, 0xFFF0])) (.vext 5 3 6 1) (fun t => t.rs 6 == 0xFFFFFFF0) = true ∧
    after (·.wv 3 (vecOf 16 [0, 0, 0, 0, 0, 0xFFF0])) (.vext 5 3 6 3) (fun t => t.rs 6 == 0x0000FFF0) = true := by
  decide +kernel


/-- AluThree, AluTwo, Pairs and SystemForms: an enabled guard, p0's and, inverted, that of a false predicate; and a wake
bit. -/
theorem test_witness_AluThree_AluTwo_Pairs_SystemForms :
    on probe 0 ∧ on probe 9 ∧ on (probeT (fun t => { t with wake := true })) 0 ∧
    (probeT (fun t => { t with wake := true })).thr.wake = true :=
  ⟨on_probe, ⟨rfl, plain_probe⟩, ⟨rfl, by unfold plain; decide⟩, rfl⟩

theorem test_witness_ComparesPredicates : on probe 0 ∧
    (true = true ↔ holds 0 (probe.thr.rs 1) (probe.thr.rs 2)) ∧ (false = true ↔ holds 1 (probe.thr.rs 1) (probe.thr.rs 2)) ∧
    (false = true ↔ holds 10 (probe.thr.rs 1) (probe.thr.rs 2)) ∧ (true = true ↔ holds 11 (probe.thr.rs 1) (probe.thr.rs 2)) := by
  have h : probe.thr.rs 1 = probe.thr.rs 2 := by decide
  have k : probe.thr.rs 1 &&& probe.thr.rs 2 = 0 := by decide
  exact ⟨on_probe, ⟨fun _ => h, fun _ => rfl⟩, ⟨(fun x => nomatch x), fun x => absurd h x⟩,
    ⟨(fun x => nomatch x), fun x => (x : probe.thr.rs 1 &&& probe.thr.rs 2 ≠ 0) k |>.elim⟩, ⟨fun _ => k, fun _ => rfl⟩⟩

theorem test_witness_BranchesJumps :
    on probe 0 ∧
    (let s := probeT (fun t => t.ws 15 0x20004)
     on s 0 ∧ (s.thr.pc.toNat / 2 ^ 32 * 2 ^ 32 + (s.thr.rs 15).toNat) % 4 = 0) ∧
    (let s := probeT (fun t => { t.ws 15 0x20003 with csr := { t.csr with tvecl := 0x4000 } })
     s.thr.enabled 0 = true ∧ s.thr.tvec ≠ 0 ∧ (s.thr.pc.toNat / 2 ^ 32 * 2 ^ 32 + (s.thr.rs 15).toNat) % 4 ≠ 0) :=
  ⟨on_probe, ⟨⟨rfl, by unfold plain; decide⟩, by decide⟩, by decide⟩

theorem test_witness_CsrForms : on probe 0 ∧ (ownCsrs.map (·.n)).head? = some 0x000 ∧
    (ownCsrs.map (·.n)).getLast? = some 0x070 ∧ (roCsrs.map (·.1)).getLast? = some 0x061 ∧
    probe.scratchSize 0 0 = 65536 :=
  ⟨on_probe, by decide, by decide, by decide, by decide⟩

/-- Halt, TrapEntry and SingleStep: an enabled guard; a handler, and none; single-step set; and forms that retire with it
clear: one of a scalar result, one within a repeat, one that takes a queued command's place. -/
theorem test_witness_Halt_TrapEntry_SingleStep :
    probe.thr.enabled 0 = true ∧ probe.thr.ownsHere 7 = false ∧ probe.thr.ownsHere 14 = true ∧ probe.thr.tvec = 0 ∧
    (let s (r : Option Rep) := probeT (fun t => { t with rep := r, csr := { t.csr with tvecl := 0x4000, dbgctl := 1 } })
     let steps (s : State) (i : Instr) : Bool :=
       match exec i (withThr s { s.thr with csr := { s.thr.csr with dbgctl := 0 } }) with
       | .next u => decide (u.thr.phase = .run ∧ u.thr.entered = false ∧ s.thr.issued < u.thr.issued ∧ u.thr.tvec ≠ 0)
       | _ => false
     (s none).thr.enabled 0 = true ∧ (s none).thr.tvec ≠ 0 ∧ (s none).thr.csr.dbgctl = 1 ∧ encode (.addi 0 1 1 1) ≠ [] ∧
      steps (s none) (.addi 0 1 1 1) = true ∧ steps (s (some probeRep)) (.vand 1 2 3) = true ∧
      steps (s none) (.enqc 0 1 2) = true) := by decide

/-- The probe with three words from its pc on and EPC and REPST set. -/
def probeWords (w0 w1 w2 : Word) (epc repst : Word) : State :=
  let s := probeT (fun t => { t with csr := { t.csr with tvecl := 0x4000, epcl := epc, repst := repst } })
  { s with ibuf := [(0x10000, w0), (0x10004, w1), (0x10008, w2)] }

/-- Eret: not in a repeat; misaligned; a repeat to resume, of a one-word and of a two-word target; and no repeat there. -/
theorem test_witness_Eret :
    (let s := probeWords 0 0 0 0x10000 0
     s.thr.enabled 0 = true ∧ s.thr.csr.epcl.toNat % 4 = 0 ∧ s.thr.csr.repst.getLsbD 31 = false) ∧
    (let s := probeWords 0 0 0 0x10002 0
     s.thr.tvec ≠ 0 ∧ s.thr.csr.epcl.toNat % 4 ≠ 0) ∧
    (let s := probeWords 0x3C324800 0x80400094 0 0x10000 0x80000102
     s.thr.csr.repst.getLsbD 31 = true ∧ s.word? 0x10000 = some 0x3C324800 ∧ s.word? 0x10004 = some 0x80400094 ∧
      decodeTableWord 32 0x3C324800 = some (.rep 3 1 1 1) ∧ twoWord 0x80400094 = false ∧
      repeatAllowed 0x3C324800 0x80400094 = true) ∧
    (let s := probeWords 0x3C320000 0x40190005 8 0x10000 0x80000000
     s.word? 0x10008 = some 8 ∧ twoWord 0x40190005 = true ∧ repeatAllowed 0x3C320000 0x40190005 = true) ∧
    (let s := probeWords 0x04191400 0 0 0x10000 0x80000000
     s.thr.tvec ≠ 0 ∧ s.word? 0x10000 = some 0x04191400 ∧ decodeTableWord 32 0x04191400 = some (.add 0 6 4 5)) := by
  decide

/-- RepeatPrefix: a target that passes, with every increment, and targets that do not. -/
theorem test_witness_RepeatPrefix :
    (let s := probeWords 0x3C324800 0x80400094 0 0 0
     s.word? (s.thr.pc + 4).toNat = some 0x80400094 ∧ twoWord 0x80400094 = false ∧
      0x0F * 2 ^ 26 + 3 * 2 ^ 20 + 1 * 2 ^ 17 + 1 * 2 ^ 14 + 1 * 2 ^ 11 = 0x3C324800 ∧
      repeatAllowed 0x3C324800 0x80400094 = true ∧ repeatAllowed 0x3C324800 0x2C000001 = false ∧
      repeatAllowed 0x3C324800 0x40190005 = false ∧ s.thr.tvec ≠ 0) := by decide

/-- The vector statements: VectorMoves, VectorArithmetic, VectorCompares, WideningReductions, DotProducts and SpecialFunctions
need a thread that is not single-stepped, and a type of each side of the bounds that they name. -/
theorem test_witness_vector_forms : plain probe ∧ (2#3).toNat < 3 ∧ 3 ≤ (3#3).toNat ∧ (7#3).toNat ≠ 2 ∧ (7#3).toNat ≠ 5 ∧
    (15#4).toNat < tElems (0#3).toNat ∧ (3#4).toNat < tElems (2#3).toNat :=
  ⟨plain_probe, by decide, by decide, by decide, by decide, by decide, by decide⟩

/-- The probe with bank 0 of its core in its partition's hands. -/
def probeBank : State := { probe with tags := [(0, 0)] }

set_option maxRecDepth 100000 in
/-- Conversions and BlockForms: a decode table at place 0 of the core's scratchpad, types and registers at their bounds, and a
scale of each kind. -/
theorem test_witness_Conversions_BlockForms : plain probeBank ∧ tableReady probeBank ∧ tBlock 1 = true ∧ tBlock 7 = true ∧
    (126#7).toNat % 2 = 0 ∧ (5#3).toNat < 6 ∧ (probe.thr.rs 3).toNat % 256 ≠ 0xFF ∧
    ((probeT (fun t => t.ws 3 0xFF)).thr.rs 3).toNat % 256 = 0xFF ∧ (probeT (fun t => t.ws 3 0xFF)).thr.phase = .run :=
  ⟨by unfold plain; decide, ⟨rfl, rfl, by decide⟩, by decide⟩

/-- The probe with banks 0 and 15 of its core in its partition's hands, and an address in pair a2. -/
def probeAt (hi lo : Word) : State :=
  { probe with thr := { ((probe.thr.ws 5 hi).ws 4 lo) with csr := { probe.thr.csr with tvecl := 0x4000 } }
               tags := [(0, 0), (15, 0)] }

/-- Loads: an answer; the first and the last word of own scratchpad; an L1 line by row and by column. -/
theorem test_witness_Loads :
    (loadOf (.ldw 0 4 2 0 0)).isSome = true ∧ on (probeAt 0xFF000000 0xFFFC) 0 ∧ atIssue (probeAt 0xFF000000 0xFFFC) ∧
    answeredBy { probe with thr := { probe.thr with answer := some {} } } {} ∧
    (∀ m ∈ (loadOf (.ldw 0 4 2 0 0)).map (·.1), ∀ o ∈ ([0, 0xFFFC] : List Nat),
      m.va (probeAt 0xFF000000 (BitVec.ofNat 32 o)).thr = 0xFF00000000000000 + o) ∧
    mult 4 0xFF0000000000FFFC = true ∧
    inPad (probeAt 0xFF000000 0) 0xFF00000000000000 (run 4 0) ∧ unpoisoned (probeAt 0xFF000000 0) (run 4 0) ∧
    inPad (probeAt 0xFF000000 0xFFFC) 0xFF0000000000FFFC (run 4 0xFFFC) ∧
    (let s : State := { probeAt 0 0x21 with l1 :=
        [{ core := 0, part := 0, va := 0x20, kind := .row, gen := 0, data := 7 },
         { core := 0, part := 0, va := 0x21, kind := .col 1, gen := 0, data := 9 }] }
     (s.l1Hit 0 0 .row (0x24 / 32 * 32)).map (·.data) = some 7 ∧ (s.l1Hit 0 0 (.col 1) 0x21).map (·.data) = some 9 ∧ columnLine 1 0x21 = false ∧
      columnLine 1 0 = true) := by
  refine ⟨rfl, ⟨rfl, by unfold plain; decide⟩, ⟨rfl, rfl, rfl⟩, ⟨rfl, rfl⟩, by decide, by decide, ?_, ?_, ?_, by decide⟩ <;>
    simp only [inPad, unpoisoned] <;> decide

/-- Stores and Atomics: a form of each, at the scratchpad's first and last bytes; and an answer for VAADD. -/
theorem test_witness_Stores_Atomics :
    (storeOf (.stb 0 4 2 0 0)).isSome = true ∧ (storeOf (.stvp 3 2 0 0)).isSome = true ∧
    (atomOf (.acas 0 8 2 0 1 0 0)).isSome = true ∧
    inPad (probeAt 0xFF000000 0xFFFF) 0xFF0000000000FFFF (run 1 0xFFFF) ∧
    inPad (probeAt 0xFF000000 0) 0xFF00000000000000 (run 32 0) ∧
    inPad (probeAt 0xFF000000 0xFFF8) 0xFF0000000000FFF8 (run 8 0xFFF8) ∧
    unpoisoned (probeAt 0xFF000000 0xFFF8) (run 8 0xFFF8) ∧ plain { probe with thr := { probe.thr with answer := some {} } } := by
  refine ⟨rfl, rfl, rfl, ?_, ?_, ?_, ?_, ?_⟩ <;> simp only [inPad, unpoisoned, plain] <;> decide

/-- MemoryRequests: a miss at the last translated address's row, by row and by column; the scratchpad of another core. -/
theorem test_witness_MemoryRequests :
    (memOf (.ldw 0 4 2 0 0)).isSome = true ∧ (memOf (.vaadd 4 2 0 0 4 0 0)).isSome = true ∧
    (let s := probeAt 0x00FFFFFF 0xFFFFFFFC
     s.l1Hit 0 0 .row (0x00FFFFFFFFFFFFFC / 32 * 32) = none ∧ s.l1Hit 0 0 (.col 1) 0x00FFFFFFFFFFFFFC = none ∧
      s.fetchRefused (s.sliceOf 0 0x00FFFFFFFFFFFFFC) = false) ∧
    (let s := probeAt 0xFE000000 0x10000
     s.window 0 0 0xFE00000000010000 (run 4 0) = some (1, 0) ∧ s.window 0 0 0xFE0000000001FFFC (run 4 0xFFFC) = some (1, 0xFFFC)) := by
  decide

/-- AddressChecks: the bounds of the unimplemented range; a misaligned address on each side of it; a window address outside
the region and one past the scratchpad. -/
theorem test_witness_AddressChecks :
    (∀ m ∈ memOf (.ldw 0 4 2 0 0), m.va (probeAt 0x01000000 0).thr = 2 ^ 56 ∧
      m.va (probeAt 0xFDFFFFFF 0xFFFFFFFC).thr = 2 ^ 64 - 2 ^ 57 - 4 ∧ m.ok (m.va (probeAt 0x00FFFFFF 0xFFFFFFFD).thr) = false ∧
      m.ok (m.va (probeAt 0xFE000000 2).thr) = false) ∧
    (probeAt 0 0).thr.tvec ≠ 0 ∧ (probeAt 0 0).window 0 0 0xFE00FFFF00000000 (run 4 0) = none ∧
    (probeAt 0 0).window 0 0 0xFF00000000010000 (run 4 0) = none ∧
    (probeAt 0 0).window 0 0 0xFE00FFFF00000000 [] = none ∧ (probeAt 0 0).l1cfgWaits 0 0 = false ∧
    (memOf (.vaadd 4 2 0 0 4 0 0)).map (·.pad) = some false := by decide

/-- The probe with changes to its thread, its parts and its shape. -/
def probeCtl (ctl : DWord) : State := probe.setPart 0 { probe.part 0 with ctl := ctl }
def probeShaped (shape : DWord) : State := probe.setPart 0 { probe.part 0 with pcur := shape }

theorem sigHit_none (k : Nat) : sigHit 0 k = false := by simp [sigHit]

/-- Where nothing is on its way, held or resident, a release publishes at every scope. -/
theorem publishes_quiet {s : State} (n : Nat) (h : s.net = [] ∧ s.held = [] ∧ s.thr.unserved = 0 ∧ s.sectors = [] ∧ s.wbs = []) :
    publishes s n := by
  obtain ⟨a, b, c, d, e⟩ := h
  refine ⟨c, ⟨fun k h => ?_, fun k h => ?_⟩, fun _ => ⟨fun k h => ?_, fun k h => ?_⟩⟩
  · rw [a] at h; exact absurd h List.not_mem_nil
  · rw [b] at h; exact absurd h List.not_mem_nil
  · rw [d] at h; exact absurd h List.not_mem_nil
  · rw [e] at h; exact absurd h List.not_mem_nil

/-- Ordering: scopes below, at and above the cap; a release that publishes, at scope 6 beside a sector that does not match its
accumulator; one that waits for a fetch; queues that are idle and commands to acquire; an LDA's answer; a request. -/
theorem test_witness_Ordering :
    on (probeCtl 4) 0 ∧ ¬ uncapped (probeCtl 4) 6 ∧ uncapped (probeCtl 4) 5 ∧ uncapped (probeCtl 6) 6 ∧
    atIssue probe ∧ publishes probe 6 ∧ idleQueues probe ∧ publishes (ownAcquired probe) 4 ∧
    (let s := { probe with sectors := [{ slice := 0, set := 0, asn := 0, vpn := 5, gen := 0, leaf := {}, target := 0 }] }
     publishes s 6) ∧
    (probeT (fun t => { t with unserved := 1 })).thr.unserved ≠ 0 ∧ answeredBy (probeT (fun t => { t with answer := some {} })) {} ∧
    ¬acknowledged { probe with net := [⟨9, 0, 0, .wake probe.thr.tid 8 {}⟩] } ∧
    (rowForm 0 2 0 4 (fun _ _ => .readHome false)).va (probeAt 0x00FFFFFF 0xFFFFFFFC).thr = 2 ^ 56 - 4 ∧
    (probeAt 0x00FFFFFF 0xFFFFFFFC).fetchRefused ((probeAt 0 0).sliceOf 0 (2 ^ 56 - 4)) = false := by
  refine ⟨⟨rfl, ?_⟩, ?_, ?_, ?_, ⟨rfl, rfl, rfl⟩, publishes_quiet 6 ⟨rfl, rfl, rfl, rfl, rfl⟩, ⟨rfl, rfl, rfl, ?_⟩, ?_, ⟨rfl, ?_, ?_⟩,
    by decide, ⟨rfl, rfl⟩, fun h => h.1 _ List.mem_cons_self rfl, by decide, by decide⟩
  · unfold plain; decide
  · unfold uncapped; decide
  · unfold uncapped; decide
  · unfold uncapped; decide
  · intro m; cases m <;> exact ⟨rfl, rfl⟩
  · have h : ownAcquired probe = probe := if_pos (show (0#512 ||| 0#512) = 0#512 by simp)
    rw [h]
    exact publishes_quiet 4 ⟨rfl, rfl, rfl, rfl, rfl⟩
  · exact (publishes_quiet (s := probe) 4 ⟨rfl, rfl, rfl, rfl, rfl⟩).2.1
  · refine fun _ => ⟨fun c h => ?_, fun w h => absurd h List.not_mem_nil⟩
    cases h with
    | head => intro _; show sigHit (0#512 ||| 0#512) 5 = false; rw [BitVec.or_self]; exact sigHit_none 5
    | tail _ h => exact absurd h List.not_mem_nil

/-- TicketForms: each kind of trap address, a number free toward the slice, tickets at the region's last slice and past it, a
place of own scratchpad, and deliveries due. -/
theorem test_witness_TicketForms :
    (ldtOf (.ldtC 0 7 2 2 0 0)).isSome = true ∧ (ldtOf (.ldtS 0 7 2 0 0)).isSome = true ∧ (probeAt 0 0).thr.tvec ≠ 0 ∧
    (∀ m ∈ ldtOf (.ldtS 0 7 2 0 0), m.va (probeAt 0x01000000 0).thr = 2 ^ 56 ∧ m.ok (2 ^ 56 - 1024) = true ∧
      m.ok (2 ^ 56 - 512) = false ∧ m.ok (2 ^ 64 - 2 ^ 57) = true) ∧
    (probe.live.filter (fun l => l.tid == probe.thr.tid)).length < 4 * probe.thr.vregs ∧
    probe.freeSeq 0 (probe.sliceOf 0 (2 ^ 56 - 1024)) = some 0 ∧
    redeemable probe (BitVec.ofNat 32 (3 * 2 ^ 21 + 3)) ∧ shSlices (probe.shape 0) = 4 ∧
    (4 * 2 ^ 21) / 2 ^ 21 = 4 ∧ probe.window 0 0 0xFF0000000000FFE0 [0xFFE0] = some (0, 0xFFE0) ∧ 0xFFE0 % 32 = 0 ∧
    probe.thr.rdmsDue = 0 ∧ (probeT (fun t => { t with rdmsDue := 1 })).thr.rdmsDue ≠ 0 := by
  refine ⟨rfl, rfl, ?_, ?_, ?_, ?_, ⟨?_, ?_⟩, ?_⟩ <;> decide

/-- A class of the probe's core with one message, bound to the thread's slot; another one empty. -/
def probeClass : State := { probe with classes := [(3, { queue := [{ w0 := 5 }], bound := some 0 }), (4, { bound := some 0 })] }

/-- MessageForms: a legal target word and an illegal one; a class that the partition owns and one that it does not; a message,
an empty class, an unbound one; a class to bind. -/
theorem test_witness_MessageForms :
    (let sh := probe.shape 0
     32 * shQw sh = 32 ∧ 40 * shQh sh = 40 ∧ 0x02701C0F / 2 ^ 30 = 0 ∧ 0x02701C0F / 2 ^ 4 % 2 ^ 6 = 0 ∧
      0x02701C0F / 2 ^ 10 % 2 ^ 10 = 7 ∧ 0x02701C0F / 2 ^ 20 % 2 ^ 10 = 39 ∧
      probe.ownsSlot 0 (32 * shQx sh + 7 + 640 * (40 * shQy sh + 39)) 15 = true ∧ 0x80000000 / 2 ^ 30 ≠ 0) ∧
    (let s := probeShaped (BitVec.ofNat 64 (0x00FF * 2 ^ 24 + 3 * 2 ^ 22 + 2 ^ 17 + 2 ^ 12))
     s.ownsSlot 0 0 8 = false ∧ s.ownsSlot 0 0 7 = true) ∧
    boundTo probeClass 3 ∧ (probeClass.classAt 0 3).queue = [{ w0 := 5 }] ∧ (probeClass.classAt 0 3).waiting = [] ∧
    boundTo probeClass 4 ∧ (probeClass.classAt 0 4).queue = [] ∧ ¬boundTo probeClass 5 ∧ atIssue probeClass ∧
    probe.thr.ownsHere ((probe.thr.rs 4).toNat % 16) = true ∧ (probeClass.classAt 0 5).bound = none := by
  refine ⟨by decide, by decide, ⟨by decide, 0, rfl, by decide⟩, rfl, rfl, ⟨by decide, 0, rfl, by decide⟩, rfl, ?_,
    ⟨rfl, rfl, rfl⟩, by decide, rfl⟩
  rintro ⟨_, b, h, _⟩
  exact absurd ((show (probeClass.classAt 0 5).bound = none from rfl).symm.trans h) nofun

/-- MeshArrivals: a message for a class with room and for one without; an arrival of the last member, and of another one. -/
theorem test_witness_MeshArrivals :
    (let m : MsgPkt := { core := 0, cls := 3, msg := {}, sender := .thread {} 1 }
     let full : Machine.Class := { queue := [{}, {}, {}, {}] }
     let s : State := { probe with net := [⟨9, 0, 0, .msg m⟩], classes := [(3, full)] }
     s.packet? 9 = some ⟨9, 0, 0, .msg m⟩ ∧ s.net.all (fun k => decide (9 ≤ k.seq)) = true ∧
      4 ≤ (s.classAt 0 3).queue.length ∧ (probe.classAt 0 3).queue.length < 4 ∧ (probe.classAt 0 3).waiting = []) ∧
    (let a : Arrive := { tid := probe.thr.tid, gid := 5, phase := 0, kind := .barx 2 7, seq := some 9 }
     let b (n : Nat) : Bar := { part := 0, lid := 1, gid := 5, count := n }
     let s (n : Nat) : State := { probe with net := [⟨9, 0, 0, .arrive a⟩], bars := [b n] }
     (s 1).packet? 9 = some ⟨9, 0, 0, .arrive a⟩ ∧ (s 1).bar? 0 1 5 = some (b 1) ∧ (s 2).bar? 0 1 5 = some (b 2) ∧
      a.phase ≤ (b 1).c ∧ (b 1).red = none ∧ (b 1).early = [] ∧ (b 1).count ≤ 1 ∧ 1 < (b 2).count) :=
  ⟨⟨rfl, by decide, by decide, by decide, rfl⟩, rfl, rfl, rfl, by decide, rfl, rfl, by decide, by decide⟩

/-- GroupForms: an unset group; one that is set, at its issue and with an answer of each kind; a phase that its count has passed,
and one that it has not. -/
theorem test_witness_GroupForms :
    groupOf probe.thr 3 = 0xFFFF ∧ (probeAt 0 0).thr.tvec ≠ 0 ∧
    (let b (c : Nat) : Bar := { part := 0, lid := probe.thr.tid.lid, gid := 5, count := 2, c := c }
     let s (c : Nat) : State := { probeT (fun t => { t with grp := t.grp.set 3 5, arr := t.arr.set 3 1 }) with bars := [b c] }
     groupOf (s 1).thr 3 ≠ 0xFFFF ∧ atIssue (s 1) ∧ countOf (s 0) 3 < phaseOf (s 0).thr 3 ∧ phaseOf (s 1).thr 3 ≤ countOf (s 1) 3 ∧
      (s 1).bar? (s 1).thr.tid.part (s 1).thr.tid.lid (groupOf (s 1).thr 3).toNat = some (b 1) ∧
      pastPhase (b 1) 0 ∧ ¬pastPhase (b 1) 1 ∧ publishes (s 1) 4) ∧
    answeredBy (probeT (fun t => { t with answer := some {} })) {} ∧
    (let x : Answer := { verdict := .trap 0x14 0 }
     (probeT (fun t => { t with answer := some x })).thr.answer = some x) := by
  refine ⟨by decide, by decide, ⟨by decide, ⟨rfl, rfl, rfl⟩, by decide, by decide, rfl, ?_, ?_, publishes_quiet 4 ⟨rfl, rfl, rfl, rfl, rfl⟩⟩,
    ⟨rfl, rfl⟩, rfl⟩ <;> simp only [pastPhase] <;> decide

/-- The probe with a slot of its core, and commands. -/
def probeSlot (k : Nat) (x : Slot) : State :=
  { probe with slots := [(k, x)], thr := { probe.thr with csr := { probe.thr.csr with tvecl := 0x4000 } } }
def probeCmd : Cmd := { id := 0xFFFF, word := 0, cap := {} }

/-- CommandForms: queues with room and full; SCOPE 7 and 6; a queued command, a completed one, and none. -/
theorem test_witness_CommandForms :
    on probe 0 ∧ atIssue probe ∧ (probe.queueAt 0 0 false).cmds.length < 2 ∧ (probe.queueAt 0 0 true).cmds.length < 2 ∧
    2 ≤ ((probeSlot 0 { copy := { cmds := [probeCmd, probeCmd] } }).queueAt 0 0 false).cmds.length ∧
    2 ≤ ((probeSlot 0 { mtx := { cmds := [probeCmd, probeCmd] } }).queueAt 0 0 true).cmds.length ∧
    ((probe.thr.wvp 2 (BitVec.ofNat 256 (7 * 2 ^ 12))).rvp 2).toNat / 2 ^ 12 % 8 = 7 ∧ (probeSlot 0 {}).thr.tvec ≠ 0 ∧
    ((probe.thr.wvp 2 (BitVec.ofNat 256 (6 * 2 ^ 12))).rvp 2).toNat / 2 ^ 12 % 8 = 6 ∧ publishes probe 6 ∧ uncapped probe 6 ∧
    ¬(∀ c ∈ ((probeSlot 0 { copy := { cmds := [probeCmd] } }).queueAt 0 0 false).cmds, c.id ≠ 0xFFFF) ∧
    (∀ c ∈ (probe.queueAt 0 0 false).cmds, c.id ≠ 0xFFFF) ∧ (probe.queueAt 0 0 false).done? 0xFFFF = none ∧
    (let e : Done := { id := 5, status := 0x80000000, sig := 0, release := true, sc := 0 }
     ((probeSlot 0 { copy := { hist := [e] } }).queueAt 0 0 false).done? 5 = some e) ∧
    (let s := probeSlot 0 { copy := { past := 1, pastSc := 6 } }
     uncapped s (s.queueAt s.thr.core s.thr.slot false).pastSc) := by
  refine ⟨on_probe, ⟨rfl, rfl, rfl⟩, ?_, ?_, ?_, ?_, ?_, ?_, ?_, publishes_quiet 6 ⟨rfl, rfl, rfl, rfl, rfl⟩, ?_, ?_, ?_, rfl, rfl, ?_⟩
  any_goals first | decide | (simp only [uncapped]; decide)

/-- QueueForms: a queue that the partition does not own, one without a live holder, one with room for four words and one
without; queues of one, none, four and three words; a queue of another thread. -/
theorem test_witness_QueueForms :
    probe.thr.answer = none ∧
    (probeShaped (BitVec.ofNat 64 (0x00FF * 2 ^ 24 + 3 * 2 ^ 22 + 2 ^ 17 + 2 ^ 12))).ownsSlot 0 0 15 = false ∧
    probe.ownsSlot 0 0 1 = true ∧ (probe.liveIn 0 0 1).isNone = true ∧ (probe.liveIn 0 0 14).isSome = true ∧
    (probeSlot 14 { inq := [1, 2, 3, 4] }).pushBehind 14 = false ∧
    ((probeSlot 14 { inq := [1, 2, 3, 4] }).slotAt 0 14).inq.length + 4 ≤ 8 ∧
    8 < ((probeSlot 14 { inq := [1, 2, 3, 4, 5] }).slotAt 0 14).inq.length + 4 ∧
    ((probeSlot 14 { inq := [1, 2, 3, 4] }).slotAt 0 14).inq = 1 :: 2 :: 3 :: 4 :: [] ∧
    ((probeSlot 14 { inq := [1, 2, 3] }).slotAt 0 14).inq.length < 4 ∧ (probe.slotAt 0 14).inq = [] ∧
    probe.thr.ownsHere 15 = false ∧ probe.thr.ownsHere 14 = true ∧ (probeSlot 0 {}).thr.tvec ≠ 0 := by decide

/-- The probe with banks 0 and 15 its partition's, and a launch descriptor of one core and one slot at place 0. -/
def probeDesc : State := { probeAt 0 0 with sram := [(33, 1), (35, 1), (36, 4)] }

/-- TjForms: an answer with words; a block off its place, one past the scratchpad, the first and the last one; store ids at
the bound. -/
theorem test_witness_TjForms :
    (tjOf (.tjsmp 0 6 4 5)).isSome = true ∧ (tjOf (.tjget 0 6 4 5)).isSome = true ∧
    (let r : Answer := { words := [2, 7] }
     answeredBy (probeT (fun t => { t with answer := some r })) r ∧
      r.words = ([(2, 7)] : List (Nat × Word)).flatMap (fun x => [BitVec.ofNat 32 x.1, x.2])) ∧
    0x20 % 64 ≠ 0 ∧ 0x10000 % 64 = 0 ∧ probe.scratchSize 0 0 < 0x10000 + 64 ∧
    inPad (probeAt 0 0) (2 ^ 64 - 2 ^ 56) (run 64 0) ∧ unpoisoned (probeAt 0 0) (run 64 0) ∧
    inPad (probeAt 0 0) (2 ^ 64 - 2 ^ 56 + 0xFFC0) (run 64 0xFFC0) ∧ publishes probe 4 ∧
    padValue (probeAt 0 0) (run 64 0) / 2 ^ 40 % 2 = 0 ∧ (probe.thr.rs 5).toNat < 64 ∧
    64 ≤ ((probe.thr.ws 5 64).rs 5).toNat ∧ (probeAt 0 0).l1cfgWaits 0 0 = false := by
  refine ⟨rfl, rfl, ⟨⟨rfl, rfl⟩, by decide⟩, by decide, by decide, by decide, ?_, ?_, ?_,
    publishes_quiet 4 ⟨rfl, rfl, rfl, rfl, rfl⟩, by decide, by decide, by decide, rfl⟩ <;> simp only [inPad, unpoisoned] <;> decide

/-- AxForms: answers of both kinds; legal and illegal lengths, stacks and selectors, with and without W; a full queue. -/
theorem test_witness_AxForms :
    (probeT (fun t => { t with answer := some {} })).thr.answer = some {} ∧ ({} : Answer).verdict = .ok ∧
    ({ verdict := .trap 0x12 0x302 } : Answer).verdict = .trap 0x12 0x302 ∧ (0x12 : Nat) < 256 ∧
    (let len (w : Nat) : Nat := w % 2 ^ 27
     (len 0xF4000000 ≠ 0 ∧ len 0xF4000000 % 256 = 0 ∧ len 0xF4000000 ≤ 2 ^ 26 ∧ 0xF4000000 / 2 ^ 27 % 2 = 0) ∧
      0xFC000000 / 2 ^ 27 % 2 = 1 ∧ 2 ^ 26 < len 0x04000100 ∧ len 0x10000080 % 256 ≠ 0 ∧ len 0x10000000 = 0) ∧
    2 ≤ ((probeSlot 0 { copy := { cmds := [probeCmd, probeCmd] } }).queueAt 0 0 false).cmds.length ∧ publishes probe 4 ∧
    atIssue probe ∧ (probeSlot 0 {}).thr.tvec ≠ 0 ∧ (15 : Nat) ≤ 15 ∧ (3 : Nat) ≤ 3 :=
  ⟨rfl, rfl, rfl, by decide, by decide, by decide, publishes_quiet 4 ⟨rfl, rfl, rfl, rfl, rfl⟩, ⟨rfl, rfl, rfl⟩, by decide,
    by decide, by decide⟩

/-- LaunchForm: a descriptor off its place, one past the scratchpad, a legal one and an illegal one, in a ring with room. -/
theorem test_witness_LaunchForm :
    on probeDesc 0 ∧ atIssue probeDesc ∧ probeDesc.thr.tvec ≠ 0 ∧ 0x40 % 128 ≠ 0 ∧ probeDesc.scratchSize 0 0 < 0x10000 + 128 ∧
    inPad probeDesc (2 ^ 64 - 2 ^ 56) (run 128 0) ∧ unpoisoned probeDesc (run 128 0) ∧
    inPad probeDesc (2 ^ 64 - 2 ^ 56 + 0xFF80) (run 128 0xFF80) ∧ publishes probeDesc 4 ∧
    probeDesc.descCheck 0 (BitVec.ofNat 1024 (padValue probeDesc (run 128 0))) true true = 0 ∧
    (probeAt 0 0).descCheck 0 (BitVec.ofNat 1024 (padValue (probeAt 0 0) (run 128 0))) true true = 2 ∧
    probeDesc.ringFull 0 3 = false ∧ probeDesc.l1cfgWaits 0 0 = false := by
  refine ⟨⟨rfl, ?_⟩, ⟨rfl, rfl, rfl⟩, by decide, by decide, by decide, ?_, ?_, ?_, publishes_quiet 4 ⟨rfl, rfl, rfl, rfl, rfl⟩,
    by decide +kernel, by decide +kernel, by decide, rfl⟩ <;> simp only [inPad, unpoisoned, plain] <;> decide +kernel

/-- MigrationForms: a target that is no core, the own core, and another core, with a visitor mask and without, the thread
FIXED and not; a thread away from its home; travelling threads on the way out and back, with a free slot set. -/
theorem test_witness_MigrationForms :
    (let s := probeCtl 0xFFFF0006
     s.window 0 0 0xFE00000000010000 [0] = some (1, 0) ∧ s.window 0 0 0xFE00000000000000 [0] = some (0, 0) ∧
      s.window 0 0 0xFE0000000000FFFF [0xFFFF] = some (0, 0xFFFF) ∧ s.window 0 0 0xFE00000000200000 [0] = none ∧
      s.takesVisitors 0 s.thr.step = true ∧ probe.takesVisitors 0 probe.thr.step = false ∧ s.thr.fix = false ∧
      (s.clock (quadOf 1)).pinned = false ∧ s.thr.home = none ∧ s.thr.rdmsDue = 0 ∧ s.freeVisitorSet 0 1 2 = some 0) ∧
    publishes probe 4 ∧
    (let h : Home := { core := 0, slot := 0, s := probe.thr.s, v := probe.thr.v, k := probe.thr.k, csr := {}, cycHi := 0,
                       timeHi := 0, wake := false }
     let v (back : Bool) (at_ : Option Nat) : Travel := { tid := probe.thr.tid, core := if back then 0 else 1, back := back, arrived := at_ }
     let s (x : Travel) : State := { probeCtl 0xFFFF0006 with
       thr := { probe.thr with core := 1, home := some h, travelling := true, phase := .parked .visitor }
       net := [⟨9, 0, 0, .travel x⟩] }
     (s (v true none)).thr.home = some h ∧ (s (v true none)).packet? 9 = some ⟨9, 0, 0, .travel (v true none)⟩ ∧
      (s (v true none)).partRuns 0 = true ∧ (s (v true none)).thread? probe.thr.tid = some (s (v true none)).thr ∧
      ((s (v true none)).queueAt 1 0 true).cmds = [] ∧ ((s (v true none)).queueAt 1 0 true).posting = false ∧
      ¬((s (v true none)).thr.csr.dbgctl = 1 ∧ h.csr.dbgctl = 1) ∧
      (let g : Home := { h with csr := { dbgctl := 1, tvecl := 0x4000 } }
       let u : Thread := { (s (v true none)).thr with home := some g, csr := { probe.thr.csr with dbgctl := 1 } }
       u.csr.dbgctl = 1 ∧ g.csr.dbgctl = 1 ∧ g.csr.tvecl ≠ 0) ∧
      (∀ at_ ∈ ([none, some 7] : List (Option Nat)), ∀ k ∈ (s (v false at_)).net, ∀ x, k.body = .travel x → ∀ i, x.arrived = some i →
        ∃ j, (v false at_).arrived = some j ∧ j ≤ i) ∧
      (s (v false none)).freeVisitorSet 0 1 2 = some 0 ∧ (probe.freeVisitorSet 0 1 2) = none) := by
  refine ⟨by decide, publishes_quiet 4 ⟨rfl, rfl, rfl, rfl, rfl⟩, rfl, rfl, rfl, rfl, rfl, rfl, by decide, by decide, ?_,
    by decide, by decide⟩
  intro at_ _ k hk x hx i hi
  cases hk with
  | head => cases hx; exact ⟨i, hi, Nat.le_refl i⟩
  | tail _ h => exact absurd h List.not_mem_nil

/-- A ticket of the probe's thread at slice 0 for a line, and the state with some; a sector that answers address 0. -/
def probeTicket : Ticket :=
  { n := 4, slice := 0, val := 1, part := 0, lid := 1, core := 0, slot := 0, tid := probe.thr.tid, kind := 0, cw := 0, va := 0,
    state := .pending, units := 1, since := 0 }
def probeTickets (t : Ticket) (net : List Packet) : State := { probe with tickets := [t], net := net }
def probeSector : Sector :=
  { slice := 0, set := 0, asn := 0, vpn := 0, gen := 0, valid := BitVec.allOnes 32, target := 0x400,
    leaf := { rd := true, w := true } }

/-- TicketEvents: a fetch with room, with the last free unit, and without room; a retire notice; entries of each state whose
time has come. -/
theorem test_witness_TicketEvents :
    (let r : TkReq := { tid := probe.thr.tid, part := 0, core := 0, slot := 0, slice := 0, ticket := 1, kind := 2, cw := 0, va := 0 }
     let s := probeTickets { probeTicket with units := 2016 } [⟨9, 0, 0, .tkFetch r⟩]
     arrives s 9 (.tkFetch r) ∧ (∀ t ∈ s.tickets, isTomb 0 1 t = true → t.discard = false) ∧
      2016 + kindUnits r.kind ≤ 2048 ∧ 2048 < 2017 + kindUnits r.kind ∧ s.tickets.length < 2048) ∧
    (probeTickets probeTicket [⟨9, 0, 0, .retire 1⟩]).packet? 9 = some { seq := 9, part := 0, src := 0, body := .retire 1 } ∧
    (let s := { probeTickets probeTicket [] with gtime := 131072 }
     (s.tickets.find? (fun t => t.n == 4)) = some probeTicket ∧ (s.part 0).state = .running ∧
      2 ^ 20 ≤ s.now / 28 - probeTicket.since / 28) := by
  refine ⟨⟨⟨⟨0, 0, rfl⟩, fun _ k h => ?_⟩, fun t h => ?_, by decide, by decide, by decide⟩, rfl, rfl, rfl, by decide⟩
  · cases h with
    | head => intro h; exact absurd h (by decide)
    | tail _ h => exact absurd h List.not_mem_nil
  · cases h with
    | head => intro _; rfl
    | tail _ h => exact absurd h List.not_mem_nil

/-- A fetch's reads deliver. -/
def delivers (s : State) (t : Ticket) : Bool :=
  match s.readLines t t.reads [] false with
  | .data _ _ pois => !pois
  | _ => false

/-- Redemptions: fetches that end; redemptions of each kind, and tickets of each state, of another partition, that failed, are
poisoned or whole; a place with room and one without; a delivery to own scratchpad. -/
theorem test_witness_Redemptions :
    (let s := { probe with tickets := [probeTicket], sectors := [probeSector] }
     (s.tickets.find? (fun t => t.n == 4)) = some probeTicket ∧ s.slicesRun 0 = true ∧ s.held = [] ∧
      delivers s probeTicket = true ∧ ({ probeTicket with pf := .failed 0 0 }).pf = .failed 0 0) ∧
    (∀ k ∈ ([.rdmv, .rdms 0xFF0000000000FFE0 32, .rdms 0xFF0000000000FFE0 31, .test, .drop] : List RedeemKind),
      ∀ x ∈ ([.pending, .ready, .claimed, .spent, .expired] : List TkState), ∀ kind ∈ ([0, 1, 2, 3] : List Nat), ∀ part ∈ ([0, 1] : List Nat),
      let r : Redeem := { tid := probe.thr.tid, part := 0, core := 0, slot := 0, slice := 0, ticket := 1, kind := k }
      let t : Ticket := { probeTicket with state := x, part := part, kind := kind, fail := none, data := [7] }
      let s := probeTickets t [⟨9, 0, 0, .redeem r⟩]
      (∃ p src, s.packet? 9 = some { seq := 9, part := p, src := src, body := .redeem r }) ∧
      s.tickets.find? (fun t => t.slice == r.slice && t.val == r.ticket) = some t) ∧
    (31 : Nat) < 32 * kindUnits 0 ∧ 32 * kindUnits 0 ≤ 32 ∧
    ((probeTickets probeTicket []).tickets.find? (fun t => t.slice == 0 && t.val == 2)).isNone = true ∧
    (let r : Redeem := { tid := probe.thr.tid, part := 0, core := 0, slot := 0, slice := 0, ticket := 1, kind := .rdms 0xFFE0 32 }
     let t : Ticket := { probeTicket with state := .claimed, data := [7], claim := some (r, 8), delivering := true }
     let s (ts : List Ticket) : State := { probeAt 0 0 with tickets := ts, net := [⟨9, 0, 0, .rdms probe.thr.tid 0 0xFFE0 [7] 4⟩] }
     ∀ ts ∈ ([[], [t]] : List (List Ticket)),
      (s ts).packet? 9 = some { seq := 9, part := 0, src := 0, body := .rdms (s ts).thr.tid 0 0xFFE0 [7] 4 } ∧ (s ts).thr.core = 0 ∧
      (s ts).thr.phase = .run ∧ (s ts).l1cfgWaits 0 0 = false ∧ 0xFFE0 + 32 * 1 ≤ (s ts).scratchSize 0 0 ∧
      (∀ o ∈ run 32 0xFFE0, Table.get? (s ts).tags (padAddr (s ts) o / 4096) = some 0) ∧
      (s [t]).tickets.find? (fun t => t.delivering && t.n == 4) = some t ∧ t.discard = false ∧ t.data ≠ [] ∧ t.state = .claimed) ∧
    (let r : Redeem := { tid := probe.thr.tid, part := 0, core := 0, slot := 0, slice := 0, ticket := 1, kind := .rdmv }
     let t : Ticket := { probeTicket with state := .claimed, data := [7], claim := some (r, 9), delivering := true }
     let s := probeTickets t [⟨9, 0, 0, .wake r.tid 9 { data := 7 }⟩]
     s.packet? 9 = some { seq := 9, part := 0, src := 0, body := .wake r.tid 9 { data := 7 } } ∧ s.tickets = [t] ∧
      t.delivering = true ∧ t.claim = some (r, 9) ∧ r.kind = .rdmv ∧ t.data ≠ []) := by
  refine ⟨⟨rfl, rfl, rfl, by decide +kernel, rfl⟩, ?_, by decide, by decide, by decide, ?_, by decide +kernel, rfl, rfl, rfl, rfl, by decide⟩
  · intro k _ x _ kind _ part _
    exact ⟨⟨0, 0, packet_alone (k := ⟨9, 0, 0, .redeem _⟩) rfl rfl one_entry⟩, rfl⟩
  · intro r t s ts h
    simp only [List.mem_cons, List.not_mem_nil, or_false] at h
    rcases h with rfl | rfl <;> exact ⟨rfl, rfl, rfl, rfl, by decide, by decide, rfl, rfl, by decide, rfl⟩

/-- A command of a kind, its word changed by an addition, on core (0, 0), slot 0 of the probe. -/
def probeCmdOf (kind extra : Nat) : Cmd := { id := 1, word := BitVec.ofNat 256 (kind + extra), cap := {} }
def probeHead (mtx : Bool) (c : Cmd) : State :=
  let q : Queue := { cmds := [c] }
  let s := probeAt 0 0
  { s with slots := [(0, if mtx then { mtx := q } else { copy := q })]
           thr := { s.thr with phase := .parked .command } }

/-- The fields of FILL's body: 32 bytes at place 0x40, of four-byte units. -/
def fillBody : Nat := 2 * 2 ^ 101 + 0x04030201 * 2 ^ 103 + 32 * 2 ^ 167 + (2 ^ 56 + 0x40) * 2 ^ 199

/-- The fields of COPY's body: one row of 32 bytes, from place 0x40 to place 0xFFE0. -/
def copyBody : Nat := 31 * 2 ^ 126 + (2 ^ 56 + 0xFFE0) * 2 ^ 142 + (2 ^ 56 + 0x40) * 2 ^ 199

/-- CopyCommands: a queued command of each kind, with a legal header and an illegal one, a body that passes and one that does
not, and its channel not armed. -/
theorem test_witness_CopyCommands :
    (∀ k ∈ copyKinds.map (·.1), atHead (probeHead false (probeCmdOf k 0)) 0 0 false (probeCmdOf k 0) [] ∧
      (probeCmdOf k 0).word.toNat % 256 = k) ∧
    (let s := probeHead false (probeCmdOf 0x23 fillBody)
     s.engineFree 0 0 false = true ∧ s.queuePart 0 0 = 0 ∧ legalHeader s 0 0 false (BitVec.ofNat 256 0x23) ∧
      ¬legalHeader s 0 0 false (BitVec.ofNat 256 (0x23 + 7 * 2 ^ 12)) ∧ s.copyBodyOk 0 (probeCmdOf 0x23 fillBody) = true ∧
      s.copyBodyOk 0 (probeCmdOf 0x23 0) = false ∧ s.partRuns 0 = true ∧
      ((probeCmdOf 0x23 fillBody).arms 0).isNone = true ∧ (∀ q, s.l1cfgWaits 0 q = false)) := by
  refine ⟨?_, by decide +kernel, by decide +kernel, ?_, ?_, by decide +kernel, by decide +kernel, by decide +kernel, by decide +kernel,
    fun q => ?_⟩
  · intro k h; exact ⟨rfl, by revert k; decide +kernel⟩
  · unfold legalHeader; decide +kernel
  · unfold legalHeader; decide +kernel
  · show (((0 == 0 && (0 == q)) && false && false) || false) = false
    simp

/-- A running FILL and a running COPY of 32 bytes within own scratchpad. -/
theorem test_witness_CopyCommands_running :
    (let c : Cmd := { probeCmdOf 0x23 fillBody with state := .running }
     let s := probeHead false c
     atHead s 0 0 false c [] ∧ c.word.toNat % 256 = 0x23 ∧ c.word.toNat / 2 ^ 167 % 2 ^ 32 = 32 ∧ c.word.getLsbD 32 = false ∧
      fieldAddr c 199 = 0xFE00000000000040 ∧ namesRow s 0 0 c (fieldAddr c 199) 32 0 0x40) ∧
    (let c : Cmd := { probeCmdOf 0x20 copyBody with state := .running }
     let s := probeHead false c
     atHead s 0 0 false c [] ∧ c.word.toNat % 256 = 0x20 ∧ c.word.toNat / 2 ^ 118 % 2 ^ 8 = 0 ∧
      c.word.toNat / 2 ^ 110 % 2 ^ 8 = 0 ∧ c.word.toNat / 2 ^ 126 % 2 ^ 16 + 1 = 32 ∧ c.word.getLsbD 32 = false ∧
      fieldAddr c 142 = 0xFE0000000000FFE0 ∧
      namesRow s 0 0 c (fieldAddr c 199) 32 0 0x40 ∧ namesRow s 0 0 c (fieldAddr c 142) 32 0 0xFFE0 ∧
      padClean s 0 0 (run 32 0x40)) := by
  and_intros <;> first | decide +kernel | rfl | (simp only [padOwned]; decide +kernel) |
    (simp only [padClean]; decide +kernel)

/-- Bodies of one row or element: SLAB's and GATHER's of 32 bytes, CCVT's from FP32 to E4M3, CRED's and the optimisers' of FP32,
between places of own scratchpad. -/
def fromTo (a b : Nat) : Nat := (2 ^ 56 + a) * 2 ^ 199 + (2 ^ 56 + b) * 2 ^ 142
def slabBody : Nat := 31 * 2 ^ 159 + 0xFFE0 * 2 ^ 83 + (2 ^ 56 + 0x40) * 2 ^ 199
def gatherBody : Nat := 31 * 2 ^ 69 + fromTo 0x40 0x80 + (2 ^ 56 + 0xFFE0) * 2 ^ 85
def ccvtBody : Nat := 8 * 2 ^ 61 + 9 * 2 ^ 57 + fromTo 0x40 0xFFFF
def credBody : Nat := 8 * 2 ^ 118 + fromTo 0x40 0xFFFC
def probeRunning (kind body : Nat) : Cmd := { probeCmdOf kind body with state := .running }

/-- A running SLAB, GATHER, CCVT, CRED, OPTADAM and OPTSGD, the last without momentum and with it. -/
theorem test_witness_CopyCommands_kinds :
    (let c := probeRunning 0x21 slabBody
     let s := probeHead false c
     let f (hi lo : Nat) : Nat := c.word.toNat / 2 ^ lo % 2 ^ (hi + 1 - lo)
     c.word.toNat % 256 = 0x21 ∧ f 158 139 = 0 ∧ f 174 159 + 1 = 32 ∧ f 98 83 + 32 ≤ 2 ^ 16 ∧ c.word.getLsbD 32 = false ∧
      namesRow s 0 0 c (fieldAddr c 199) 32 0 0x40 ∧
      namesRow s 0 0 c (0xFE00000000000000 + f 128 119 * 2 ^ 32 + f 138 129 * 2 ^ 16 + f 98 83) 32 0 0xFFE0) ∧
    (let c := probeRunning 0x22 gatherBody
     let s := probeHead false c
     let f (hi lo : Nat) : Nat := c.word.toNat / 2 ^ lo % 2 ^ (hi + 1 - lo)
     c.word.toNat % 256 = 0x22 ∧ f 68 49 = 0 ∧ f 84 69 + 1 = 32 ∧ c.word.getLsbD 32 = false ∧
      namesRow s 0 0 c (fieldAddr c 142) 4 0 0x80 ∧ padClean s 0 0 (run 4 0x80) ∧
      namesRow s 0 0 c ((fieldAddr c 199 + padNat s 0 0 0x80 4 * 32) % 2 ^ 64) 32 0 0x40 ∧
      namesRow s 0 0 c (fieldAddr c 85) 32 0 0xFFE0) ∧
    (let c := probeRunning 0x24 ccvtBody
     let s := probeHead false c
     let f (hi lo : Nat) : Nat := c.word.toNat / 2 ^ lo % 2 ^ (hi + 1 - lo)
     c.word.toNat % 256 = 0x24 ∧ f 84 65 = 0 ∧ c.word.getLsbD 52 = false ∧ c.word.getLsbD 32 = false ∧ f 64 61 = 8 ∧ f 60 57 = 9 ∧
      namesRow s 0 0 c (fieldAddr c 199) (codeWidth (f 64 61) / 8) 0 0x40 ∧
      namesRow s 0 0 c (fieldAddr c 142) (codeWidth (f 60 57) / 8) 0 0xFFFF) ∧
    (let c := probeRunning 0x25 credBody
     let s := probeHead false c
     let f (hi lo : Nat) : Nat := c.word.toNat / 2 ^ lo % 2 ^ (hi + 1 - lo)
     c.word.toNat % 256 = 0x25 ∧ f 141 122 = 0 ∧ f 121 118 = 8 ∧ c.word.getLsbD 32 = false ∧
      namesRow s 0 0 c (fieldAddr c 199) (codeWidth (f 121 118) / 8) 0 0x40 ∧
      namesRow s 0 0 c (fieldAddr c 142) (codeWidth (f 121 118) / 8) 0 0xFFFC ∧ padClean s 0 0 (run 4 0xFFFC)) ∧
    (let b : BitVec 512 := BitVec.ofNat 512 (0xFE000000000000C0 + 0xFE00000000000100 * 2 ^ 64)
     ∀ x ∈ ([(0x26, 0), (0x27, 0), (0x27, 2 ^ 63), (0x27, 2 ^ 64)] : List (Nat × Nat)),
      let c : Cmd := { probeRunning x.1 (fromTo 0x40 0x80 + x.2) with params := some b }
      let s := probeHead false c
      c.word.toNat % 256 = x.1 ∧ c.word.toNat / 2 ^ 65 % 2 ^ 20 = 0 ∧ c.word.getLsbD 32 = false ∧
       namesRow s 0 0 c (fieldAddr c 199) 4 0 0x40 ∧ namesRow s 0 0 c (fieldAddr c 142) 4 0 0x80 ∧
       namesRow s 0 0 c (fieldAddr c 142) 2 0 0x80 ∧ namesRow s 0 0 c (paramAddr b 0) 4 0 0xC0 ∧
       namesRow s 0 0 c (paramAddr b 1) 4 0 0x100 ∧ padClean s 0 0 (run 4 0x40 ++ run 4 0x80 ++ run 4 0xC0 ++ run 4 0x100)) := by
  refine ⟨?_, ?_, ?_, ?_, ?_⟩
  iterate 4 simp only [namesRow, padOwned, padClean]; decide +kernel
  intro b x hx
  refine ⟨by revert x; decide +kernel, by revert x; decide +kernel, by revert x; decide +kernel, ?_, ?_, ?_, ?_, ?_, ?_⟩ <;>
    simp only [namesRow, padOwned, padClean] <;> revert x <;> decide +kernel

/-- A piece of a command's work is done at once, or holds it on a page request; its channel is armed and admits it, or does not. -/
theorem test_witness_CopyCommands_channels :
    (let c : Cmd := { probeCmdOf 0x23 fillBody with state := .running }
     let s := probeHead false c
     (match s.engineWork (s.engineOf 0 0) 0 c with
      | .ok s1 c1 => decide (c1.done = 32 ∧ (s1.queueAt 0 0 false).cmds.length = 1)
      | _ => false) = true) ∧
    (let c : Cmd := probeRunning 0x23 (2 * 2 ^ 101 + 32 * 2 ^ 167 + 0x40 * 2 ^ 199)
     let s := { probeHead false c with devKey := [(0, 0)] }
     (match s.engineWork (s.engineOf 0 0) 0 c with
      | .block _ (some _) => true
      | _ => false) = true ∧ ({ c with pf := .waiting 6 }).pf = .waiting 6) ∧
    (let c := probeCmdOf 0x23 (fillBody + 2 ^ 32)
     let s (len : Nat) : State := { probeHead false c with slots := [(0, { chbase := 0x40, chlen := len, copy := { cmds := [c] } })] }
     (c.arms 0).isSome = true ∧ (s 32).copyBodyOk 0 c = true ∧
      (∀ m ∈ c.arms 0, c.destinations.all ((s 32).channelOk 0 0 m.chan) = true ∧
        c.destinations.all ((s 16).channelOk 0 0 m.chan) = false)) := by
  decide +kernel

/-- MMAI's body: types b, K = 16, A at 0x100, B at 0x200, the accumulator at 0x400, strides of 16 bytes; MMA's of bf elements,
with strides of 32; MEPI's from FP32 to FP32. -/
def mmaiBody : Nat := 0x100 * 2 ^ 240 + 0x200 * 2 ^ 218 + 0x400 * 2 ^ 196 + 16 * 2 ^ 184 + 16 * 2 ^ 172
def mmaBody : Nat := mmaiBody + 16 * 2 ^ 184 + 16 * 2 ^ 172 + 7 * 2 ^ 131 + 7 * 2 ^ 127
def mepiBody : Nat := 8 * 2 ^ 156 + 8 * 2 ^ 152 + 0x400 * 2 ^ 240

/-- The sixteen cores of gang 0 with an arrived command each at slot 0; member 3's operand A may stand elsewhere. -/
def gangCmd (odd : Nat) (n : Nat) : Cmd :=
  { probeCmdOf 2 (mmaiBody + 256 + (if n = 3 then odd * 2 ^ 242 else 0)) with state := .arrived }
def probeGang (odd : Nat) : State :=
  { probeAt 0 0 with slots := (List.range 16).map (fun n => (16 * n, { mtx := { cmds := [gangCmd odd n] } })) }

/-- MatrixCommands: each kind queued, with a legal header and an illegal one, its body legal and not, with GANG and without;
MMAI's operands in own banks; a gang that agrees and one that does not. -/
theorem test_witness_MatrixCommands :
    (∀ k ∈ matrixKinds.map (·.1), atHead (probeHead true (probeCmdOf k 0)) 0 0 true (probeCmdOf k 0) [] ∧
      (probeCmdOf k 0).word.toNat % 256 = k) ∧
    (let s := probeHead true (probeCmdOf 2 mmaiBody)
     s.engineFree 0 0 true = true ∧ s.queuePart 0 0 = 0 ∧ legalHeader s 0 0 true (probeCmdOf 2 mmaiBody).word ∧
      ¬legalHeader s 0 0 true (BitVec.ofNat 256 (2 + 2 ^ 19)) ∧ (probeCmdOf 2 mmaiBody).mmaOk true = true ∧
      (probeCmdOf 1 mmaBody).mmaOk false = true ∧ (probeCmdOf 3 mepiBody).mepiOk = true ∧
      (probeCmdOf 2 (mmaiBody + 2 ^ 240)).mmaOk true = false ∧ (probeCmdOf 1 mmaiBody).mmaOk false = false ∧
      (probeCmdOf 3 0).mepiOk = false ∧ (probeCmdOf 2 mmaiBody).word.getLsbD 8 = false ∧
      (probeCmdOf 2 (mmaiBody + 256)).word.getLsbD 8 = true ∧
      (∀ q ∈ (probeCmdOf 2 mmaiBody).tileCores 0, s.l1cfgWaits 0 q = false) ∧
      (∀ o ∈ tilePlaces 0 (probeCmdOf 2 mmaiBody), padOwned s 0 o.1 o.2 ∧ padClean s 0 o.1 o.2)) ∧
    (∀ odd ∈ ([0, 1] : List Nat), ∀ n, n < 16 →
      ((probeGang odd).queueAt (engineCore (0 % 40 * 16 + n) (0 / 40)) 0 true).cmds = [gangCmd odd n] ∧
      (probeGang odd).engineFree (engineCore (0 % 40 * 16 + n) (0 / 40)) 0 true = true) ∧
    (gangCmd 1 3).gangKey ≠ (gangCmd 1 0).gangKey := by
  and_intros
  any_goals decide +kernel
  · exact fun k h => ⟨rfl, by revert k; decide +kernel⟩
  · unfold legalHeader; decide +kernel
  · unfold padOwned padClean; decide +kernel

/-- An operand that begins in the last row of the scratchpad. -/
def pastEnd : Nat := 0xFEF0 * 2 ^ 240

/-- MatrixCommands, the operands: those of MMA and MMAI, with decode tables and without, and of MEPI, which lie in own scratchpad,
of which one does not, and of which one is poisoned. -/
theorem test_witness_MatrixCommands_operands :
    (∀ x ∈ ([(true, 2, mmaiBody), (false, 1, mmaBody)] : List (Bool × Nat × Nat)),
      let c := probeCmdOf x.2.1 x.2.2
      let s := probeHead true c
      c.word.toNat % 256 = (if x.1 then 2 else 1) ∧ c.mmaOk x.1 = true ∧ c.at_ ≠ 12 ∧ c.bt ≠ 12 ∧
      (∀ o ∈ tileOperands 0 c, padOwned s 0 o.2.1 o.2.2 ∧ tainted s 0 o = false) ∧
      ((tileOperands 0 (probeCmdOf x.2.1 (x.2.2 + pastEnd))).find? (beyond s 0)).isSome = true ∧
      (probeCmdOf x.2.1 (x.2.2 + pastEnd)).mmaOk x.1 = true ∧
      (((tileOperands 0 c).filter (fun o => o.1 ≠ 2 || c.word.getLsbD 126)).find?
        (tainted { s with sramPois := [0x104] } 0)).isSome = true) ∧
    (let c := probeCmdOf 1 (mmaBody + 5 * 2 ^ 131)
     let s := probeHead true c
     c.mmaOk false = true ∧ c.at_ = 12 ∧
      ∀ i, i < 256 → padOwned s 0 0 (run 4 (tableOff c.cap.tblp i)) ∧ padClean s 0 0 (run 4 (tableOff c.cap.tblp i))) ∧
    (let c := probeCmdOf 3 mepiBody
     let s := probeHead true c
     legalHeader s 0 0 true c.word ∧ (∀ o ∈ mepiOperands 0 c, padOwned s 0 o.2.1 o.2.2) ∧
      (∀ o ∈ (mepiOperands 0 c).eraseIdx 1, tainted s 0 o = false) ∧
      ((mepiOperands 0 (probeCmdOf 3 (mepiBody + 0xFBC0 * 2 ^ 240))).find? (beyond s 0)).isSome = true ∧
      (probeCmdOf 3 (mepiBody + 0xFBC0 * 2 ^ 240)).mepiOk = true ∧
      (((mepiOperands 0 c).eraseIdx 1).find? (tainted { s with sramPois := [0x400] } 0)).isSome = true) := by
  simp only [padOwned, padClean, legalHeader]; decide +kernel

/-- Completions: an ended command without NOTIFY, with it, with bytes to write; and a pending error, of each cause, of a thread
that runs or waits. -/
theorem test_witness_Completions :
    (let c : Cmd := { probeCmdOf 0x23 0 with state := .ending }
     let s := probeHead false c
     atHead s 0 0 false c [] ∧ (s.queueAt 0 0 false).posting = false ∧ s.partRuns 0 = true ∧ c.word.getLsbD 10 = false ∧
      c.word.getLsbD 9 = false ∧ (s.ownerOf 0 0).isSome = true ∧ s.thr.isLive = true) ∧
    (probeCmdOf 0x23 (2 ^ 9 + 15 * 2 ^ 15)).word.getLsbD 9 = true ∧
    (probeAt 0 0).ownsSlot 0 0 ((probeCmdOf 0x23 (2 ^ 9 + 15 * 2 ^ 15)).word.toNat / 2 ^ 15 % 16) = true ∧
    (([(0xFFFE, 1), (0xFFFF, 2)] : List (Nat × Byte)).map (·.1) = run 2 0xFFFE ∧ padOwned (probeAt 0 0) 0 0 (run 2 0xFFFE)) ∧
    (let s (w : Word) : State := { probeSlot 0 { copy := { err := some (1, w) } } with
       thr := { (probeSlot 0 {}).thr with phase := .parked .command } }
     (s 0x80800000).thr.home = none ∧ (s 0x80800000).thr.travelling = false ∧ (s 0x80800000).thr.owed = [] ∧ (s 0x80800000).thr.tvec ≠ 0 ∧ ((s 0x80800000).slotAt 0 0).copy.err = some (1, 0x80800000) ∧
      (0x80800000#32).toNat / 2 ^ 20 % 16 = 8 ∧ (0x80500000#32).toNat / 2 ^ 20 % 16 ≠ 8) := by
  and_intros <;> first | rfl | decide +kernel | (unfold padOwned; decide +kernel)

/-- A request of the probe's thread to slice 0, as packet 9, and the probe's sector resident there. -/
def probeReq (va : Nat) (op : MemOp) : Req := { tid := probe.thr.tid, part := 0, core := 0, slot := 0, dst := 0, va := va, op := op }
def probeAsk (r : Req) (cs : List Sector) : State := { probe with net := [⟨9, 0, 0, .slice r⟩], sectors := cs }

/-- SliceRequests: the first and the last word of a sector, read, written, added to, poisoned; hits that lack the permission and
that lack the row; misses, of a page whose leaf the translation cache holds, permits and does not, and of another. -/
theorem test_witness_SliceRequests :
    (∀ va ∈ ([0, 0x3FC] : List Nat), ∀ op ∈ ([.read .row 4, .write 4 7 false, .alu .add 4 1 0] : List MemOp),
      served (probeAsk (probeReq va op) [probeSector]) 9 (probeReq va op) ∧ va % 32 + 4 ≤ 32 ∧
      (probeAsk (probeReq va op) [probeSector]).sector? 0 0 va = some probeSector) ∧
    probeSector.whole = false ∧ probeSector.valid = BitVec.allOnes 32 ∧ probeSector.leaf.rd = true ∧ probeSector.leaf.w = true ∧
    probeSector.pois.getLsbD (rowNo 0x3FC) = false ∧ ({ probeSector with pois := 0x80000000 }).pois.getLsbD (rowNo 0x3FC) = true ∧
    (let c : Sector := { probeSector with valid := 1, leaf := { rd := true } }
     (probeAsk (probeReq 0x3FC (.read .row 4)) [c]).sector? 0 0 0x3FC = some c ∧ c.leaf.permits 0 = true ∧ c.leaf.permits 1 = false ∧
      c.valid.getLsbD (rowNo 0x3FC) = false) ∧
    served (probeAsk (probeReq 0 (.read .row 4)) []) 9 (probeReq 0 (.read .row 4)) ∧
    (probeAsk (probeReq 0 (.read .row 4)) []).sector? 0 0 0 = none ∧
    (probeAsk (probeReq 0 (.read .row 4)) []).tcFind 0 0 0 = none ∧
    (∀ tgt ∈ ([0, 2] : List Nat),
      let l : Leaf := { tgt := tgt, rd := true }
      let s : State := { probeAsk (probeReq 0 (.read .row 4)) [] with tc := [{ slice := 0, asn := 0, page := 0, gen := 0, leaf := l }] }
      s.tcFind 0 0 0 = some l ∧ populated (l.target 0) = true ∧ l.permits 0 = true ∧ l.permits 1 = false ∧ l.prq = false) := by
  refine ⟨fun va h op ho => ⟨⟨⟨0, 0, packet_alone (k := ⟨9, 0, 0, .slice _⟩) rfl rfl ?_⟩, ?_, ?_, fun _ h => absurd h List.not_mem_nil⟩, ?_, ?_⟩, rfl, rfl, rfl, rfl, by decide, by decide,
    ⟨rfl, rfl, rfl, by decide⟩, ⟨⟨0, 0, by decide +kernel⟩, by decide +kernel, by decide +kernel,
      fun _ h => absurd h List.not_mem_nil⟩, rfl, rfl, fun tgt h => ?_⟩
  iterate 3 exact (by revert va op; decide +kernel)
  · revert va; decide
  · simp only [List.mem_cons, List.not_mem_nil, or_false] at h
    rcases h with rfl | rfl <;> rfl
  · simp only [List.mem_cons, List.not_mem_nil, or_false] at h
    rcases h with rfl | rfl <;> exact ⟨rfl, rfl, rfl, rfl, rfl⟩

/-- A held request of packet 9 at a stage, with a table entry at address 0 of device memory. -/
def probeHeld (st : HeldStage) (e : Byte) : State :=
  { probe with held := [{ seq := 9, req := probeReq 0 (.read .row 4), stage := st }], dev := if e = 0 then [] else [(0, e)]
               devKey := [(0, 0)] }

/-- The probe with every fault entry of slice 0 in use. -/
def probeFull (s : State) : State :=
  { s with faults := (List.range 64).map (fun i =>
      { slice := 0, index := i, asn := 1, page := i, acc := 0, rid := i, record := 0, recorded := true }) }

/-- SliceMisses: a walk that reads a malformed entry, a table, a leaf that permits, ones that do not, that name a peer and a place
that is not there, and no entry, with a fault entry free and without; a fill; a write-back to device memory. -/
theorem test_witness_SliceMisses :
    (∀ x ∈ ([(3, 3), (3, 1), (0, 0x0B), (0, 3), (0, 0)] : List (Nat × Byte)),
      (probeHeld (.walk x.1 0 0) x.2).held.find? (fun h => h.seq == 9) =
        some { seq := 9, req := probeReq 0 (.read .row 4), stage := .walk x.1 0 0 } ∧
      (probeHeld (.walk x.1 0 0) x.2).tableRead (0 + 8 * (0 / 2 ^ (12 + 9 * x.1) % (if x.1 = 3 then 2 ^ 17 else 2 ^ 9)))
        = BitVec.ofNat 64 x.2.toNat) ∧
    malformed 3 3 = true ∧ malformed 1 3 = false ∧ malformed 0x0B 0 = false ∧ malformed 3 0 = false ∧
    (Leaf.of 0x0B 0).permits 0 = true ∧ (Leaf.of 3 0).permits 0 = false ∧ (Leaf.of 3 0).prq = false ∧
    populated ((Leaf.of 0x0B 0).target 0) = true ∧
    (malformed 0x800000000000000B 0 = false ∧ (Leaf.of 0x800000000000000B 0).tgt = 2 ∧
      populated ((Leaf.of 0x800000000000000B 0).target 0) = true) ∧
    (malformed 0x2C000000B 2 = false ∧ (Leaf.of 0x2C000000B 2).tgt = 0 ∧
      populated ((Leaf.of 0x2C000000B 2).target 0x10000000) = false) ∧
    (probe.freeFault 0).isSome = true ∧ probe.faultWaits = [] ∧ (probeFull probe).freeFault 0 = none ∧
    (probeFull probe).faults.find? (fun f => f.slice == 0 && f.asn == 0 && f.page == 0 && f.acc == 0) = none ∧
    (let s := probeHeld (.fill (Leaf.of 0x0B 0)) 0
     (s.part 0).state = .running ∧ (0 : Half) = s.genAt 0 0 ∧ s.held.map (fun h => h.evict) = [none] ∧ s.wayWaits = [] ∧
      s.wbs = [] ∧ s.waysUsed 0 (s.setOf 0 0) < 16 ∧ s.sector? 0 0 0 = none) ∧
    (let w : WriteBack := { n := 2, slice := 0, set := 0, part := 0, vpn := 0, gen := 0, leaf := {}, target := 0x400
                            mask := 0x80000001, pois := 0, rows := Vector.replicate 32 7 }
     let s := ({ probe with wbs := [w] }).setPart 0 { probe.part 0 with key := some 1 }
     s.wbs.find? (fun w => w.n == 2) = some w ∧ s.wbs.any (fun v => v.n < 2 && v.of w.slice w.part (1024 * w.vpn)) = false ∧
      w.target % 1024 = 0 ∧ (s.part 0).key = some 1) := by
  and_intros <;> first | decide +kernel | rfl

/-- CoreArrivals: answers of each kind for the thread that expects them; a wake, an acknowledgement; window requests. -/
theorem test_witness_CoreArrivals :
    (∀ op ∈ ([.read .row 4, .readHome true, .write 4 7 false] : List MemOp), ∀ v ∈ ([.ok, .trap 4 0] : List Verdict),
      let r := probeReq 0 op
      let a : Answer := { verdict := v }
      let s : State := { probe with net := [⟨9, 0, 0, .answer r a 0⟩],
                                    thr := { probe.thr with phase := .parked .answer, expect := some 9 } }
      s.packet? 9 = some { seq := 9, part := 0, src := 0, body := .answer r a 0 } ∧ s.thr.tid = r.tid ∧ s.thr.core = r.core ∧
        s.thr.expect = some 9 ∧ s.thr.travelling = false ∧ s.thr.phase ≠ .none) ∧
    (lineAsked (probeReq 0x24 (.read .row 4)) = some (.row, 0x20) ∧
      lineAsked (probeReq 0x21 (.read (.col 1) 32)) = some (.col 1, 0x21) ∧ (probeReq 0 (.read .row 4)).install = true ∧
      (0 : Half) = probe.genAt 0 (coreTarget 0) ∧
      0 < ({ probe with l1cfg := [(0, 0x8000)] }).l1Lines 0 0) ∧ probe.tickets = [] ∧
    ({ probe with net := [⟨9, 0, 0, .wake probe.thr.tid 8 {}⟩] }).packet? 9 =
      some { seq := 9, part := 0, src := 0, body := .wake probe.thr.tid 8 {} } ∧
    ({ probe with net := [⟨9, 0, 0, .served probe.thr.tid⟩] }).packet? 9 =
      some { seq := 9, part := 0, src := 0, body := .served probe.thr.tid } ∧
    (∀ op ∈ ([.read .row 4, .write 32 7 false] : List MemOp),
      let r : Req := { probeReq 0xFE00000000000000 op with core := 1 }
      let s : State := { probeAt 0 0 with net := [⟨9, 0, 1, .scratch r⟩] }
      s.packet? 9 = some { seq := 9, part := 0, src := 1, body := .scratch r } ∧ s.l1cfgWaits 0 0 = false) ∧
    (probeAt 0 0).window 0 1 0xFE00000000000000 (run 32 0) = some (0, 0) ∧ padOwned (probeAt 0 0) 0 0 (run 32 0) ∧
    padClean (probeAt 0 0) 0 0 (run 32 0) := by
  refine ⟨by decide +kernel, by decide, rfl, by decide +kernel, rfl, by decide +kernel, by decide +kernel, ?_, ?_⟩
  · unfold padOwned; decide +kernel
  · unfold padClean; decide +kernel

/-- A trajectory operation of a form with a block, a store, and the probe with store 0 granted and loaded. -/
def probeTj (form : Nat) (block : BitVec 512) : TjOp :=
  { n := 3, die := 0, tid := probe.thr.tid, seq := 5, part := 0, core := 0, slot := 0, form := form, sid := 0, block := block, arrived := true }
def probeStore (grant : DWord) (k : Store) (o : TjOp) : State :=
  ({ probe with comb := [o], stores := [(0, k)] }).setPart 0 { probe.part 0 with grant := grant }

/-- UnitEvents, the comb units: a new operation of each of the two forms, its store granted or not, broken or not, its block
legal or not; a finished one with NOTIFY and without. -/
theorem test_witness_UnitEvents_comb :
    (∀ form ∈ ([4, 5] : List Nat), ∀ grant ∈ ([0, 1] : List DWord), ∀ broken ∈ ([true, false] : List Bool),
      let k : Store := { part := 0, daddr := 0, desc := 0, broken := broken }
      aloneAt (probeStore grant k (probeTj form 0)) (probeTj form 0)) ∧
    ((probeStore 0 { part := 0, daddr := 0, desc := 0 } (probeTj 4 0)).part 0).grant.getLsbD 0 = false ∧
    storeReady (probeStore 1 { part := 0, daddr := 0, desc := 0 } (probeTj 4 0)) (probeTj 4 0) { part := 0, daddr := 0, desc := 0 } ∧
    (probeStore 1 { part := 0, daddr := 0, desc := 0 } (probeTj 4 0)).blockOk (probeTj 4 0) { part := 0, daddr := 0, desc := 0 } = true ∧
    (probeStore 1 { part := 0, daddr := 0, desc := 0 } (probeTj 4 1)).blockOk (probeTj 4 1) { part := 0, daddr := 0, desc := 0 } = false ∧
    (let o : TjOp := { probeTj 4 0x80000000 with finished := true, code := 1 }
     ({ probe with comb := [o] }).comb.find? (fun o => o.n == 3) = some o ∧ probe.partRuns 0 = true ∧
      o.block.getLsbD 31 = true ∧ o.checked = false ∧ ({ o with checked := true }).checked = true ∧
      (probeTj 4 0).block.getLsbD 31 = false) := by
  and_intros
  any_goals first | decide +kernel | rfl
  exact fun form _ grant _ broken _ => by and_intros <;> rfl

/-- A store of 16 slots whose records begin at 0x200 and whose tree region begins at 0, and the probe with it, its sector resident:
slot 1 is live, of generation 1 and priority 5. -/
def probeDesc16 : BitVec 1024 := 0x200 + 4 * 2 ^ 288
def probeTree : Store :=
  { part := 0, daddr := 0, desc := probeDesc16, n := 1, head := 1, tree := (List.range 5).map (fun l => (2 ^ 20 * l, 5)) }
def probeLeaves (k : Store) (o : TjOp) : State :=
  { probeStore 1 k o with sectors := [{ probeSector with rows :=
      (probeSector.rows.set 0 (BitVec.ofNat 256 (1 * 2 ^ 96 + 5 * 2 ^ 64))).set 4 5 }] }

/-- A read or write of the comb units that works, and leaves the operations as they are; and one that ends with a code. -/
def stillOk {α : Type} (s : State) (r : Res (Except Fail α)) (q : State → α → Bool) : Bool :=
  match r with
  | .ok s1 (.ok v) => decide (s1.comb = s.comb) && q s1 v
  | _ => false
def failsWith {α : Type} (s : State) (r : Res (Except Fail α)) (code : Nat) : Bool :=
  match r with
  | .ok s1 (.error c) => decide (s1.comb = s.comb ∧ c.1 = code)
  | _ => false

/-- Leaf i can be read, as a generation and a priority, and written. -/
def leafOk (s : State) (o : TjOp) (k : Store) (i gen prio : Nat) : Bool :=
  stillOk s (s.codedRead o.engine (k.tbase + 8 * i) 8) (fun s1 v =>
    decide (v / 2 ^ 32 = gen ∧ v % 2 ^ 32 = prio ∧ s1.stores = s.stores) &&
    stillOk s1 (s1.treeOp o.engine .swp (k.tbase + 8 * i) 7) (fun s2 _ =>
      stillOk s2 (s2.treeOp o.engine .add (k.tbase + 8 * k.cap + 8 * (i / 16)) 9) (fun _ _ => true)))

/-- UnitEvents, the operations that linearise: each form's checks pass; TJINS at a slot that is free, one that is live and one that
may not be overwritten; a handle that names a live slot and one whose generation has gone; a batch from an empty tree and from
one that draws slot 1; a child that a point chooses; tree SRAM with an error. -/
theorem test_witness_UnitEvents_linearise :
    (∀ form ∈ ([0, 1, 2, 3, 4, 5, 6] : List Nat),
      let o : TjOp := { probeTj form (1 * 2 ^ 32 + 1 * 2 ^ 64) with src := some [(1, false), (2, true)] }
      let s := probeLeaves probeTree o
      aloneAt s o ∧ storeReady s o probeTree ∧ (form ∈ ([2, 3, 6] : List Nat) → s.blockOk o probeTree = true) ∧
      namedSlot o = 1 ∧ namedGen o = 1) ∧
    (∀ form ∈ ([0, 1, 4, 5] : List Nat),
      let o : TjOp := { probeTj form 0 with src := some [(1, false), (2, true)] }
      (probeLeaves probeTree o).blockOk o probeTree = true ∧ 2 * 32 = probeTree.recLen) ∧
    (let o := probeTj 0 0
     let s := probeLeaves probeTree o
     leafOk s o probeTree 0 0 0 = true ∧ leafOk s o probeTree 1 1 5 = true ∧ probeTree.fullref = false ∧
      ({ probeTree with desc := probeDesc16 + 2 ^ 300 }).fullref = true ∧ probeTree.badAbove 0 = false) ∧
    namedGen (probeTj 2 (1 * 2 ^ 32 + 3 * 2 ^ 64)) ≠ 1 ∧ probeTree.badNode 0 0 = false ∧
    ({ probeTree with bad := [0] }).badNode 0 0 = true ∧ ({ probeTree with tree := [] }).total = 0 ∧
    (let o := probeTj 1 0
     let s := probeLeaves probeTree o
     let after : Store := { probeTree with seq := 1 }
     stillOk s ((s.setStore 0 after).drawAll o probeTree 0 1 0 1 []) (fun s1 es =>
       decide (Table.get? s1.stores 0 = some after ∧ es = [some (1, 1, 5)])) = true) ∧
    (([7, 8].map (probeTree.sum 1)).sum ≤ 4 ∧ 4 < ([7, 8].map (probeTree.sum 1)).sum + probeTree.sum 1 0) := by
  refine ⟨?_, ?_, by decide +kernel, by decide +kernel, by decide, by decide, by decide, by decide +kernel, by decide⟩
  · intro form h
    simp only [List.mem_cons, List.not_mem_nil, or_false] at h
    rcases h with rfl | rfl | rfl | rfl | rfl | rfl | rfl <;>
      exact ⟨⟨rfl, rfl, rfl, rfl, rfl, rfl, rfl⟩, ⟨by decide, rfl, rfl⟩, by decide +kernel, by decide +kernel, by decide +kernel⟩
  · decide +kernel

/-- UnitEvents, the accesses that follow: an entry, a priority that is written and one whose write fails, a record in one piece and
in two, a copy into a buffer, of whole and of poisoned lines, and out of it. -/
theorem test_witness_UnitEvents_tasks :
    (let o (t : CombTask) (d : BitVec 1024) : TjOp := { probeTj 1 0 with linearised := true, desc := d, tasks := [t], entries := [(5, 6, 0)] }
     let s (o : TjOp) : State := probeLeaves probeTree o
     let lines (n : Nat) : List (Line × Bool) := List.replicate n (1, false)
     goesOn (s (o (.entry 0 0x300) probeDesc16)) (o (.entry 0 0x300) probeDesc16) ∧ (o (.entry 0 0x300) probeDesc16).entries[0]? = some (5, 6, 0) ∧
      stillOk (s (o (.entry 0 0x300) probeDesc16)) ((s (o (.entry 0 0x300) probeDesc16)).codedWrite (probeTj 1 0).engine 0x300 16 5) (fun _ _ => true) = true ∧
      recordAt probeDesc16 1 = 0x240 ∧ recordLen probeDesc16 = 64 ∧ recordAt 0x0100000000000000 0 = 2 ^ 56 ∧
      (let q := o (.prio 1 7) probeDesc16
       stillOk (s q) ((s q).codedWrite q.engine (recordAt q.desc 1) 4 7) (fun _ _ => true) = true) ∧
      (let q := o (.prio 0 7) 0x0100000000000000
       failsWith (s q) ((s q).codedWrite q.engine (recordAt q.desc 0) 4 7) 6 = true ∧ q.code = 0 ∧
        Table.get? (s q).stores q.sid = some probeTree) ∧
      (let q := { o (.record 1 7 3) probeDesc16 with src := some ((2, false) :: lines 1) }
       stillOk (s q) ((s q).writeMarked q.engine (recordAt q.desc 1) (((2, false) :: lines 1).take 32) 0) (fun _ _ => true) = true ∧
        (lines 1).length + 1 ≤ 0 + 32 ∧ ¬((lines 32).length + 1 ≤ 0 + 32)) ∧
      (let q := o (.copy 1 0x300 (some 0)) probeDesc16
       q.buf = none ∧ q.dstGone = false ∧
       stillOk (s q) ((s q).readMarked q.engine ((List.range (recordLen q.desc / 32)).map (fun n => recordAt q.desc 1 + 32 * n)) [])
         (fun _ ls => decide (ls.any (·.2) = false)) = true ∧
       (let z : State := { s q with sectors := [{ probeSector with pois := 1#32 <<< 18 }] }
        stillOk z (z.readMarked q.engine ((List.range (recordLen q.desc / 32)).map (fun n => recordAt q.desc 1 + 32 * n)) [])
          (fun _ ls => decide (ls.any (·.2) = true)) = true) ∧
       stillOk (s q) ((s q).writeMarked q.engine 0x300 ((lines 2).take 32) 0) (fun _ _ => true) = true)) := by
  and_intros <;> first | decide +kernel | rfl

/-- A stack whose lengths, ring and Fen places stand in own scratchpad, an operation on it, and the probe with both. -/
def probeStack : Stack :=
  { eaddr := 0, fbase := 0xFE00000000004000, wbase := 0xFE00000000000400, wlen := 8, hi := 4, lo := 2, flen := 8,
    lbase := 0xFE00000000000100, home := 0, valid := true }
def probeAx (form arg : Nat) : StackOp :=
  { n := 3, tid := probe.thr.tid, seq := 5, part := 0, core := 0, slot := 0, form := form, stack := 0, arg := arg }
def probeStacked (k : Stack) (ops : List StackOp) : State :=
  { probeAt 0 0 with tags := (List.range 16).map (fun b => (b, 0)), stackTab := [(0, k)], stackOps := ops, sram := [(0x100, 1), (0x104, 1)] }
def okWith {α : Type} (s : State) (r : Res (Except α Nat)) (n : Nat) : Bool :=
  match r with
  | .ok s1 (.ok v) => decide (v = n ∧ s1.slots = s.slots)
  | _ => false

/-- UnitEvents, the sluice engines: operations of each form that are next, on a stack that is not valid, empty, full, and that
takes or gives a frame; a spill and a recall to begin, with a chunk to move, and done. -/
theorem test_witness_UnitEvents_sluice :
    (∀ form ∈ ([0, 1, 2, 3] : List Nat), ((probeStacked probeStack [probeAx form 256]).nextStackOp 0) = some (probeAx form 256)) ∧
    (probeStacked probeStack []).stack? 0 0 = some probeStack ∧ ({ probeStack with valid := false }).valid = false ∧
    (probeStack.hi < 1280 / 256 ∧ ({ probeStack with depth := 65535 }).depth = 65535 ∧ probeStack.flen < 8 + 256 / 256) ∧
    probeStack.depth = 0 ∧ 256 / 256 ≤ probeStack.hi ∧ probeStack.total + 256 / 256 ≤ probeStack.flen ∧
    (match (probeStacked probeStack [probeAx 0 256]).codedWrite (probeAx 0 256).engine (probeStack.lbase + 4 * 0) 4 1 with
     | .ok s1 (.ok _) => decide (s1.slots = [])
     | _ => false) = true ∧
    okWith (probeStacked probeStack []) ((probeStacked probeStack []).frameLen (probeAx 1 256).engine probeStack 0) 1 = true ∧
    ({ probeStack with depth := 2, total := 2, hot := 2 }).job = none ∧ (probeAx 1 0).arg < 256 * 1 ∧ 256 * 1 ≤ (probeAx 1 256).arg ∧
    (∀ n ∈ ([0, 1, 2] : List Nat), ∀ cold ∈ ([0, 2] : List Nat),
      let k : Stack := { probeStack with depth := 2, total := 2, cold := cold, hot := 2 - cold }
      (match (probeStacked k []).dropFrames (probeAx 3 n).engine k n with
       | .ok _ (.ok k1) => decide (k1.depth = 2 - n)
       | _ => false) = true) ∧
    (let k : Stack := { probeStack with depth := 2, total := 2, hot := 5, wtop := 5 }
     let j : StackJob := { spill := true, len := 1536, ring := 0, fen := k.fbase, done := 1024 }
     k.cold < k.depth ∧ k.hi < k.hot ∧ j.len ≠ 0 ∧ j.done ≠ j.len ∧
      okWith (probeStacked k []) ((probeStacked k []).frameLen (sluiceEngine 0 0 k.home .clear) k k.cold) 1 = true ∧
      (probeStacked { k with job := some j } []).jobReady 0 0 { k with job := some j } j = true ∧
      okWith (probeStacked { k with job := some j } []) ((probeStacked { k with job := some j } []).moveJob 0 0 { k with job := some j } j)
        (Nat.min 1024 (j.len - j.done)) = true ∧ ({ j with done := 1536 }).done = j.len) ∧
    (let k : Stack := { probeStack with depth := 2, cold := 2, total := 2, hot := 1 }
     k.hot < k.lo ∧ 0 < k.cold ∧ k.hot + 1 ≤ k.hi ∧
      okWith (probeStacked k []) ((probeStacked k []).frameLen (sluiceEngine 0 0 k.home .clear) k (k.cold - 1)) 1 = true) := by
  and_intros <;> first | decide +kernel | rfl

/-- A launch of one core and one slot, its descriptor changed by an addition, and the probe with some launches. -/
def probeLaunch (extra : Nat) : Launch :=
  { part := 0, lid := 7, entry := 0, ring := 0, level := 0, desc := BitVec.ofNat 1024 (2 ^ 290 + 2 ^ 280 + 2 ^ 264 + extra) }
def probeLaunched (ls : List Launch) : State := { probeAt 0 0 with launches := ls, gtime := 6400 }
def coded {α : Type} (s : State) (r : Res (Except Fail α)) (ok : Bool) : Bool :=
  match r with
  | .ok s1 (.ok _) => ok && decide (s1.launches.length = s.launches.length)
  | .ok s1 (.error _) => !ok && decide (s1.launches.length = s.launches.length)
  | _ => false

/-- LaunchEvents: launches of each phase; counters that can be read and one that cannot; groups that agree and do not; counts
of groups and no groups; stopped and halted threads; a ring entry to read; a reread that is due; parked threads whose time
has come, on waits that the watchdog counts and on others. -/
theorem test_witness_LaunchEvents :
    (∀ ph ∈ ([.waiting, .admitted, .ready, .running, .doneDue] : List LaunchPhase),
      launchOf (probeLaunched [{ probeLaunch 0 with phase := ph }]) 0 7 { probeLaunch 0 with phase := ph }) ∧
    (probeLaunched []).partRuns 0 = true ∧ (probeLaunch 0).pf = .clear ∧
    (let l := { probeLaunch (0xFE00000000000100 * 2 ^ 640) with read0 := true }
     coded (probeLaunched [l]) ((probeLaunched [l]).codedRead (l.engine (probeLaunched [l])) (descField l 703 640) 8) true = true) ∧
    (let l := { probeLaunch (0xFE00000000000100 * 2 ^ 512) with read1 := true }
     l.read1 = true ∧ l.pf1 = .clear ∧
      coded (probeLaunched [l]) ((probeLaunched [l]).codedRead (l.engine (probeLaunched [l])) (descField l 575 512) 8) true = true) ∧
    (let l := { probeLaunch (0x0100000000000000 * 2 ^ 640) with read0 := true }
     coded (probeLaunched [l]) ((probeLaunched [l]).codedRead (l.engine (probeLaunched [l])) (descField l 703 640) 8) false = true) ∧
    (let l := { probeLaunch 0 with met0 := true, met1 := true, level := 2 }
     l.level < 3 ∧ l.mark + 6400 ≤ (probeLaunched [l]).gtime + l.waited ∧ l.mark ≤ (probeLaunched [l]).gtime) ∧
    (let l := probeLaunch (2 ^ 237 + 0xFE00000000000100 * 2 ^ 832 + 0xFE00000000000108 * 2 ^ 768)
     descField l 245 237 = 1 ∧ l.count = 1 ∧
      coded (probeLaunched [l]) ((probeLaunched [l]).readDwords (l.engine (probeLaunched [l])) (descField l 895 832) 1 []) true = true ∧
      groupsOk 1 [1] [0xFFFFFFFFFFFF0000] = true ∧ groupsOk 1 [2] [0xFFFFFFFFFFFF0000] = false) ∧
    (probeLaunched [probeLaunch 0]).mayDispatch (probeLaunch 0) = true ∧
    (probeLaunched [{ probeLaunch 0 with phase := .running }]).mayRetire { probeLaunch 0 with phase := .running } = true ∧
    (let l := { probeLaunch 0 with phase := .running, lid := 1 }
     let s (ph : Phase) : State := { probeLaunched [l] with thr := { probe.thr with phase := ph } }
     (s .stopped).mayRetire l = true ∧ (s .halted).mayRetire l = true ∧ ((s .stopped).launchThreads 0 1).length = 1) ∧
    descField (probeLaunch 0) 447 384 = 0 ∧
    (let l := probeLaunch (0xFE00000000000100 * 2 ^ 384)
     descField l 447 384 ≠ 0 ∧ descField l 447 384 % 8 = 0 ∧
      (match (probeLaunched [l]).engOp (l.engine (probeLaunched [l])) (descField l 447 384) (.alu .add 8 1 0) with
       | .ok s1 (.val _ _) => decide (s1.launches.length = 1)
       | _ => false) = true) := by
  and_intros
  any_goals first | decide +kernel | rfl
  intro ph h
  simp only [List.mem_cons, List.not_mem_nil, or_false] at h
  rcases h with rfl | rfl | rfl | rfl | rfl <;> rfl

theorem test_witness_LaunchEvents_ring :
    (let x : Ring := { base := 0xFE00000000000000, log := 4, head := 15, tail := 16 }
     let s := probeDesc.setPart 0 { probe.part 0 with rings := Vector.replicate 4 x }
     s.ringReady 0 3 = true ∧ (((s.part 0).rings)[3]).head % 2 ^ 4 = 15 ∧
      coded s (s.codedRead (s.seqEngine 0 3 (.ring 0 3) .clear) (x.base.toNat + 128 * (x.head % 2 ^ 4)) 128) true = true ∧
      (s.part 0).nextLid = 1 ∧ s.launches.length = 0) ∧
    (probeLaunched []).partRuns 0 = true ∧ ((probeLaunched []).part 0).reread / 100 < (probeLaunched []).gtime / 100 ∧
    (∀ w ∈ ([.answer, .l1cfg, .ring 3, .tickets 2, .idle, .watermark 0, .push 0, .pop 15] : List Wait),
      let s : State := ({ probeAt 0 0 with gtime := 1024, thr := { (probeAt 0 0).thr with phase := .parked w } }).setPart 0
        { probe.part 0 with wdog := 1 }
      s.thr.phase = .parked w ∧ s.thr.tvec ≠ 0 ∧ s.partRuns 0 = true ∧ s.thr.travelling = false ∧
      (s.part 0).wdog ≠ 0 ∧ (s.part 0).wdog.toNat * 1024 ≤ s.thr.waited + (s.gtime - s.thr.parkTime)) := by
  refine ⟨by decide +kernel, rfl, by decide, ?_⟩
  intro w h
  simp only [List.mem_cons, List.not_mem_nil, or_false] at h
  rcases h with rfl | rfl | rfl | rfl | rfl | rfl | rfl | rfl <;> exact ⟨rfl, by decide, rfl, rfl, by decide, by decide⟩

/-- TimingEvents: ticks of each kind; a quad that is elastic, stretched, pinned; a FIXED launch that holds its quad, and none. -/
theorem test_witness_TimingEvents :
    (let s : State := { probe with gtime := 16000 }
     s.gtime % 128 = 0 ∧ s.gtime % 1000 = 0 ∧ s.gtime % 5 = 0 ∧ s.frac = 0 ∧ (s.clock 319).pinned = false ∧ s.haltDue = false) ∧
    (0 : Nat) ∈ probe.parts.map (·.1) ∧ (1 : Nat) ≤ 1 ∧ (4 : Nat) ≤ 4 ∧
    (({ probe with clocks := [(319, { stretch := 4 })] }).clock 319).stretch ≠ 0 ∧
    (({ probe with clocks := [(0, { pinned := true })] }).clock 0).pinned = true ∧
    (let l := { probeLaunch (2 ^ 224) with phase := .admitted }
     l.fixed = true ∧ 0 ∈ (probeLaunched [l]).launchQuads l) ∧
    ¬(∃ l ∈ probe.launches, l.fixed = true) := by
  refine ⟨by decide +kernel, by decide, by decide, by decide, by decide, rfl, by decide +kernel, ?_⟩
  rintro ⟨l, h, _⟩
  exact absurd h List.not_mem_nil

/-- TranslationEvents: a partition between raises, in one, and sweeping; a slice that has adopted and one that has not; a raise
that is complete; page answers that match nothing, by each of their fields, and that match an open entry. -/
theorem test_witness_TranslationEvents :
    ((probe.part 0).inv = false ∧ (probe.part 0).swp = false ∧ (1 : DWord).getLsbD 0 = true) ∧
    (let r : Raise := { old := 0, adopted := [1] }
     let s := probe.setPart 0 { probe.part 0 with inv := true, raise := some r }
     (s.part 0).inv = true ∧ (s.part 0).raise = some r ∧ 0 ∉ r.adopted ∧ 0 ∈ s.targets 0) ∧
    (let r : Raise := { old := 0, adopted := probe.targets 0 }
     let s := probe.setPart 0 { probe.part 0 with inv := true, raise := some r }
     (s.part 0).raise = some r ∧ (∀ t ∈ s.targets 0, t ∈ r.adopted) ∧ s.landed r.wbs = true ∧ s.oldDone 0 r = true) ∧
    ((probe.setPart 0 { probe.part 0 with swp := true }).part 0).swp = true ∧
    ((probe.setPart 0 { probe.part 0 with swp := true, pend := true }).part 0).pend = true ∧
    (let f : FaultEntry := { slice := 0, index := 0, asn := 0, page := 0, acc := 0, rid := 6, record := 0, recorded := true }
     let h : Held := { seq := 9, req := probeReq 0 (.read .row 4), stage := .faulted, pf := .waiting 6 }
     let s : State := { probe with faults := [f], held := [h] }
     (s.part 0).state = .running ∧ s.held = [h] ∧
      ¬((6 : DWord).extractLsb' 32 16 ≠ (s.part 0).ctxgen ∨ (6 : DWord).toNat / 2 ^ 49 ≠ 0 ∨
        ∀ f ∈ s.faults, f.asn ≠ 0 ∨ f.rid ≠ (6 : DWord).toNat % 2 ^ 32) ∧
      (0x1000000000006 : DWord).getLsbD 48 = true ∧ (6 : DWord).getLsbD 48 = false ∧
      (0x2000000000006 : DWord).toNat / 2 ^ 49 ≠ 0 ∧ (0x100000006 : DWord).extractLsb' 32 16 ≠ (s.part 0).ctxgen ∧
      (∀ f ∈ s.faults, f.asn ≠ 0 ∨ f.rid ≠ (7 : DWord).toNat % 2 ^ 32)) := by
  refine ⟨by decide, ⟨rfl, rfl, by decide, by decide +kernel⟩, ⟨rfl, fun t h => h, by decide +kernel, by decide +kernel⟩, rfl, rfl,
    rfl, rfl, by decide, by decide, by decide, by decide, by decide, by decide⟩

/-- The shape of the probe's partition, and the module with every die ready and partition 0 as given. -/
def shape0 : DWord := BitVec.ofNat 64 (0xFFFF * 2 ^ 24 + 3 * 2 ^ 22 + 2 ^ 17 + 2 ^ 12)
def withPart0 (x : Part) : State := (withMgmt probe { probe.mgmt with dready := 0xFFFF }).setPart 0 x

/-- PartitionEvents: a command of a busy partition and of one whose state does not allow it; CREATE with a shape that is not
allowed, that another partition needs, on quads that are not ready, and that works; OP codes without a command. -/
theorem test_witness_PartitionEvents_begin :
    partCommand 7 .restore [.saved] ∧ partCommand 1 .create [.free] ∧ ((withPart0 { busy := true }).part 0).busy = true ∧
    ((withPart0 {}).part 0).busy = false ∧ ((withPart0 {}).part 0).state = .free ∧ PState.free ∉ [PState.saved] ∧
    shapeOk 0 = false ∧ shapeOk shape0 = true ∧
    (let other (s : State) : Bool :=
       s.parts.any (fun q => q.1 != 0 && (q.2.shapes.any (shapesMeet shape0) || q.2.grants.any (bitsMeet (s.part 0).pgrant)))
     other ((withPart0 { pshape := shape0 }).setPart 1 { state := .running, pcur := shape0 }) = true ∧
      other (withPart0 { pshape := shape0 }) = false) ∧
    (∀ q ∈ shQuads shape0, (withPart0 { pshape := shape0 }).quadReady q = true) ∧
    ¬(∀ q ∈ shQuads shape0, (probe.setPart 0 { pshape := shape0 }).quadReady q = true) := by
  refine ⟨?_, ?_, rfl, rfl, rfl, by decide, by decide, by decide, by decide, by decide, by decide⟩ <;> unfold partCommand <;> simp

/-- A claim of the probe's shape, with an area in host memory or one off its place. -/
def probeClaim (area : DWord) : Claim := { shape := shape0, ctl := 6, memr := 0, linkr := 0, grant := 0, area := area }
def savedArea : DWord := 0x8000000000001000
def probeImage : Image :=
  { n := 5, units := 0, part := 0, ctxgen := 0, shape := shape0, launches := [], nextLid := 1, nextEntry := 0, threads := []
    slots := [], classes := [], banks := [], tags := [], sramPois := [], live := [], packets := [], held := [], faults := []
    tickets := [], bars := [], lost := [], comb := [], stackOps := [], stores := [], stackTab := [], swarms := []
    l1cfg := [], savedAt := 0, savedCycles := [] }

/-- CsrForms, L1CFG: an issue with no command of an engine at the core's SRAM, and with one. -/
theorem test_witness_CsrForms_L1CFG : atIssue probe ∧ probe.sramQuiet 0 0 = true ∧
    ({ probe with slots := [(0, { copy := { cmds := [{ probeRunning 0x23 fillBody with cores := [0] }] } })] }).sramQuiet 0 0 = false :=
  ⟨⟨rfl, rfl, rfl⟩, by decide, by decide +kernel⟩

/-- The probe in the fabric cycle in which the last of the ranks has come to a place of a home. -/
def probeMet (s : State) (home place : Nat) : State :=
  { s with metAt := s.now / 28, mets := [{ home := home, place := place, rank := readRank + 2 }] }

/-- SliceRequests, Redemptions, CoreArrivals and UnitEvents: requests that a later-ranked one of their fabric cycle has overtaken, one
that a request before it holds back, and one at a core whose L1CFG is about to be written. -/
theorem test_witness_overtaken :
    (let r := probeReq 0x3FC (.read .row 4)
     (probeMet (probeAsk r []) 0 0).overtaken (arrivalAt r) = true ∧ (probeAsk r []).overtaken (arrivalAt r) = false ∧
      ({ probe with net := [⟨8, 0, 0, .slice r⟩, ⟨9, 0, 0, .slice r⟩] }).heldBack 9 r = true) ∧
    (probeMet probe 0 (2 ^ 46 + 1)).overtaken { home := 0, place := 2 ^ 46 + 1, rank := slotRank 0 0 } = true ∧
    (probeMet probe (2 ^ 40) 0).overtaken { home := 2 ^ 40, place := 0, rank := slotRank 0 15 } = true ∧
    ({ probeTj 4 0 with arrived := false }).arrived = false ∧
    (let r : Req := { probeReq 0xFE00000000000000 (.read .row 4) with core := 1 }
     let s : State := { probeAt 0 0 with net := [⟨9, 0, 1, .scratch r⟩] }
     (∀ m ∈ r.metWords, s.overtaken m = false) ∧ r.metWords ≠ [] ∧
      (∃ m ∈ r.metWords, (probeMet s m.home m.place).overtaken m = true) ∧
      ({ s with thr := { s.thr with phase := .parked .l1cfg, stage := { sent := true } } }).l1cfgWaits 0 0 = true) := by
  decide +kernel

/-- LaunchEvents: the read of a dependence that a page fault holds, with a fault entry free and with none. -/
theorem test_witness_LaunchEvents_blocked :
    (let l := { probeLaunch (0x300 * 2 ^ 640) with read0 := true }
     let s : State := { probeLaunched [l] with devKey := [(0, 0)] }
     let e := s.seqEngine 0 0 (.launch 0 7 0) .clear
     (match s.codedRead e 0x300 8 with
      | .block _ rid => rid.isSome
      | _ => false) = true ∧
      (match (probeFull s).codedRead e 0x300 8 with
       | .block t rid => rid.isNone && ((probeFull s).blocked t e.ag).pageHeld e.ag
       | _ => false) = true) := by
  decide +kernel

/-- PartitionEvents: a host unit of a save's area that answers a write with an error, and one beside the area. -/
theorem test_witness_PartitionEvents_error :
    let a := savedArea.toNat % 2 ^ 63 / 32
    savedArea.getLsbD 63 = true ∧ a ≤ a + 31 ∧ a + 31 < a + (1024 + 31) / 32 ∧ ¬(a ≤ a - 1 ∧ a - 1 < a + 32) ∧
    ((withPart0 { working := some 6, claim := some (probeClaim savedArea), ctxlen := 1024 }).part 0).back = false := by decide

/-- PartitionEvents, the rest: a stop to agree on, whose tick has come, whose last core flushes; a resume on and off an epoch tick,
with a FIXED launch whose quad is pinned and one whose quad is not; a save with a good and a bad area, and one that ends; the
destruction of a saved partition; a restore with a good and a bad area, with an image, with one of another generation, and
without; a reshape in place. -/
theorem test_witness_PartitionEvents_rest :
    ((withPart0 { state := .running }).part 0).stop = none ∧
    (let x : StopAt := { g := 150, why := .stop }
     let s : State := { withPart0 { state := .running, stop := some x } with gtime := 150 }
     (s.part 0).stop = some x ∧ x.halted = false ∧ x.g ≤ s.gtime) ∧
    (let a : StopAt := { g := 150, why := .stop, halted := true }
     let s : State := { withPart0 { state := .running, stop := some a } with
       net := [⟨9, 0, 639 + 640 * 639, .served {}⟩, ⟨10, 1, 0, .served {}⟩] }
     (s.part 0).stop = some a ∧ s.settled 0 = true ∧ (∀ k ∈ s.swept, k.part = 0) ∧
      s.net.all (fun k => decide (k.part = 0 → k.src = 639 + 640 * 639 ∧ s.granted k = true)) = true ∧
      s.net.all (fun k => match k.body with
        | .redeem _ => false
        | _ => true) = true ∧ s.stores = [] ∧ s.stackTab = []) ∧
    (let l := { probeLaunch (2 ^ 224) with phase := .running }
     let s (t : Nat) (pin : Bool) : State := { withPart0 { state := .stopped, pcur := shape0, working := some 5, back := true } with
       gtime := t, launches := [l], clocks := [(0, { pinned := pin })] }
     ((s 5 true).part 0).working = some 5 ∧ ((s 5 true).part 0).back = true ∧ (s 5 true).gtime % 5 = 0 ∧ (s 5 true).frac = 0 ∧
      (s 4 true).gtime % 5 ≠ 0 ∧ l.fixed = true ∧ (s 5 true).launchQuads l = [0] ∧ ((s 5 true).clock 0).pinned = true ∧
      ((s 5 false).clock 0).pinned = false) ∧
    (let s (a : DWord) := withPart0 { state := .running, pctx := a }
     ((s savedArea).part 0).pctx.toNat % 2 ^ 63 % 4096 = 0 ∧ ((s savedArea).part 0).pctx.getLsbD 63 = true ∧
      ((s 0x1000).part 0).pctx.toNat % 2 ^ 63 % 4096 = 0 ∧ populated 0x1000 = true ∧
      ((s 0x1001).part 0).pctx.toNat % 2 ^ 63 % 4096 ≠ 0 ∧ ((s 0).part 0).busy = false) ∧
    (let s := withPart0 { state := .stopped, working := some 6, key := some 1, claim := some (probeClaim 0x1000) }
     (s.part 0).claim = some (probeClaim 0x1000) ∧ (s.part 0).working = some 6 ∧ (s.part 0).key = some 1 ∧
      (probeClaim 0x1000).area.getLsbD 63 = false) ∧
    ((withPart0 { state := .saved }).part 0).state = .saved ∧
    (let s (a : DWord) := withPart0 { state := .saved, pshape := shape0, pctx := a }
     let c (a : DWord) : Claim := { ((s a).part 0).request with grant := ((s a).part 0).grant }
     ∀ n, (c 0x8000000000001001).areaOk n = false ∧ (c savedArea).areaOk n = true ∧
      (s savedArea).claimCode 0 (c savedArea) = 0) ∧
    (let s (m : Image) : State := { withPart0 { state := .saved, working := some 7, claim := some (probeClaim savedArea) } with
       images := [m] }
     ((s probeImage).part 0).working = some 7 ∧ (s probeImage).images = [probeImage] ∧ (s probeImage).hostErr = [] ∧
      probeImage.part = 0 ∧ probeImage.ctxgen = ((s probeImage).part 0).ctxgen ∧ probeImage.shape = (probeClaim savedArea).shape ∧
      (∀ i, i < probeImage.units → (s probeImage).unitKept 0 (probeClaim savedArea) probeImage i = true) ∧
      ({ probeImage with ctxgen := 1 }).ctxgen ≠ ((s probeImage).part 0).ctxgen ∧ probe.images = []) ∧
    (let s := withPart0 { state := .running, pcur := shape0, pshape := shape0 }
     grows (s.part 0).pcur (s.part 0).pshape = true ∧ sameRegion (s.part 0).pcur (s.part 0).pshape = true ∧
      s.claimCode 0 (s.part 0).request = 0 ∧ s.launches = [] ∧ (s.part 0).busy = false) := by
  and_intros
  any_goals first | decide +kernel | rfl
  · intro s c n
    have h : (c savedArea).host = true := by decide
    have b : ((c savedArea).base % 4096 == 0) = true := by decide
    have d : ((c 0x8000000000001001).base % 4096 == 0) = false := by decide
    exact ⟨by simp only [Claim.areaOk, d, Bool.false_and], by simp only [Claim.areaOk, h, b, Bool.true_or, Bool.true_and],
      by decide⟩

/-- ManagementEvents: a start that has not tried its images, that names one that verifies, the other, neither; each later stage;
a die that is neither ready nor failed; commands during a load and without; a load that ends; an attestation of a partition
that exists, and of one that does not, its buffer off its place and on it. -/
theorem test_witness_ManagementEvents :
    (let s (a b : Bool) : State := withMgmt probe { probe.mgmt with aval := a, bval := b, svnmin := 0, svna := 0, svnb := 0 }
     let ok (s : State) (b : Bool) : Bool := (if b then s.mgmt.bval else s.mgmt.aval) &&
       decide (s.mgmt.svnmin.toNat ≤ (if b then s.mgmt.svnb else s.mgmt.svna).toNat)
     (s true false).mgmt.stage = 0 ∧ (s true false).mgmt.tried = false ∧ ok (s true false) (s true false).mgmt.next = true ∧
      ok (s false true) (s false true).mgmt.next = false ∧ ok (s false true) (!(s false true).mgmt.next) = true ∧
      ok (s false false) (s false false).mgmt.next = false ∧ ok (s false false) (!(s false false).mgmt.next) = false) ∧
    (withMgmt probe { probe.mgmt with stage := 1 }).mgmt.stage = 1 ∧
    (let s := withMgmt probe { probe.mgmt with stage := 2 }
     2 ≤ s.mgmt.stage ∧ s.mgmt.dready.getLsbD 15 = false ∧ s.mgmt.dfail.getLsbD 15 = false) ∧
    (withMgmt probe { probe.mgmt with fwbusy := true, loading := some ([7], true) }).mgmt.loading = some ([7], true) ∧
    probe.mgmt.fwbusy = false ∧
    ((0x100 : DWord).getLsbD 8 = true ∧ (0x1 : DWord).getLsbD 8 = false ∧ (0x101 : DWord).toNat % 64 = 1) ∧
    (probe.part 1).state = .free ∧ (probe.part 0).state ≠ .free ∧
    (withMgmt probe { probe.mgmt with ataddr := 0x20 }).mgmt.ataddr.toNat % 64 ≠ 0 ∧
    (let s := withMgmt probe { probe.mgmt with atend := 1 }
     224 * s.gtime + s.frac < s.mgmt.atend ∧ probe.mgmt.atend ≤ 224 * probe.gtime + probe.frac) ∧
    probe.bufferFails 0 = false ∧ ({ probe with hostErr := [(true, 15)] }).bufferFails 0 = true := by
  and_intros <;> first | rfl | decide

/-- RegisterWrites: a partition that exists, a ring at its overrun's bound; functions with held events, pending messages and
none. -/
theorem test_witness_RegisterWrites :
    (probe.part 0).state ≠ .free ∧ (63 : Nat) < 64 ∧ probe.fnExists 0 = true ∧ probe.fnExists 1 = true ∧ (probe.fn 1).backlog = [] ∧
    ¬(2 ^ 4 < (16 + 2 ^ 16 - 0) % 2 ^ 16) ∧ 2 ^ 4 < (17 + 2 ^ 16 - 0) % 2 ^ 16 ∧ (probe.fn 1).pending0 = false ∧
    (let s := probe.setFn 1 { masked0 := true, pending0 := true }
     s.fnExists 1 = true ∧ (s.fn 1).pending0 = true ∧ (s.fn 1).pending1 = false ∧ (s.fn 1).fmask = false ∧
      ({ s.fn 1 with masked0 := false, fmask := true }).masked0 = false) ∧
    (255 : Nat) < 256 ∧ (64 : Nat) ≤ 64 ∧ (1 : DWord).getLsbD 0 = true ∧ (2 : DWord).getLsbD 0 = false ∧ (15 : Nat) < 16 := by
  decide

/-- HostEvents: addresses and decoders that are served and that are not; a link that is up and one that is down; a window that
admits a peer's request, and none. -/
theorem test_witness_HostEvents :
    (let s : State := { withPart0 { state := .running, key := some 1 } with hdm := [(66, (0x20, 0x20))], devErr := [3] }
     (∀ pa ∈ ([0x20, 0x3F] : List Nat), populated pa = true ∧ (1 : Nat) ≤ 64 ∧ (∃ e ∈ s.hdm, e.1 % 65 = 1 ∧ e.2.1 ≤ pa ∧ pa < e.2.1 + e.2.2) ∧
       s.mgmt.dready.getLsbD (pa / 2 ^ 38 % 16) = true ∧ pa / 32 ∉ s.devErr) ∧ (s.part 0).key = some 1 ∧
      (∀ pa ∈ ([0x1F, 0x40] : List Nat), ¬∃ e ∈ s.hdm, e.1 % 65 = 1 ∧ e.2.1 ≤ pa ∧ pa < e.2.1 + e.2.2) ∧
      0x20 / 32 ∈ ({ s with devErr := [1] }).devErr ∧ ¬(65 : Nat) ≤ 64 ∧ ¬(probe.mgmt.dready.getLsbD 0 = true)) ∧
    (let w : Line := BitVec.ofNat 256 (1 + 2 ^ 88 + 2 ^ 89 + 9 * 2 ^ 96)
     let s : State := { withPart0 { state := .running, key := some 1 } with
       links := [(15, { up := true, peer := 9 })], windows := [(16 * 15, w)], modnum := 5 }
     (Table.getD s.links 15 {}).up = true ∧ (Table.getD s.links 14 {}).up = false ∧ s.windowFor 15 9 0 .read = some w ∧
      s.windowFor 15 9 0 (.write 7 (BitVec.allOnes 32)) = some w ∧ (s.windowFor 15 8 0 .read).isNone = true ∧
      s.modnum = 5 ∧ (s.part (w.toNat / 2 ^ 90 % 2 ^ 6)).key = some 1 ∧ (s.launch? 0 7).isNone = true) := by
  refine ⟨by decide, by decide +kernel⟩

/-- PcStaysAligned: states whose pcs are aligned: one whose thread issues, and one of a thread on its way, with an agenda. -/
theorem test_witness_PcStaysAligned :
    (∀ s ∈ ([probe, { probe with agenda := [.event (.migrationArrival 9) 3]
                                 thr := { probe.thr with travelling := true, phase := .parked .visitor }
                                 net := [⟨9, 0, 0, .travel { tid := probe.thr.tid, core := 1, back := false, ctx := 4 * 2 ^ 336 }⟩] }] : List State),
      s.pcAligned = true ∧ (match step s with
        | .next t => t.pcAligned
        | _ => false) = true) ∧
    ({ probe with net := [⟨9, 0, 0, .travel { tid := {}, core := 1, back := false, ctx := 2 * 2 ^ 336 }⟩] }).pcAligned = false := by
  decide +kernel

end Checks
end

section
/-! Guards (R49). Every guarded form is, directly or through the shared form of its family, one `guarded` effect: disabled, it
passes. -/

namespace Sys2Proof.Claims

open Sys2Proof.Machine

/-! ## The guard's value -/

/-- The predicate by its number, where the model compares the field itself (R49). -/
theorem rp_eq (t : Thread) (n : BitVec 3) : t.rp n = if n.toNat = 0 then true else t.p.getLsbD n.toNat := by
  have hn : n = 0#3 ↔ n.toNat = 0 := by simp [← BitVec.toNat_inj]
  unfold Thread.rp
  by_cases h : n.toNat = 0 <;> simp [hn, h]

theorem enabled_eq (t : Thread) (g : BitVec 4) : t.enabled g =
    ((if g.toNat % 8 = 0 then true else t.p.getLsbD (g.toNat % 8)) != g.getLsbD 3) := by
  have hg : (g.setWidth 3).toNat = g.toNat % 8 := BitVec.toNat_setWidth 3 g
  unfold Thread.enabled
  rw [rp_eq, hg]

/-! ## A disabled form of each family -/

section
variable {g : BitVec 4} {s : State} (hoff : s.thr.enabled g = false)
include hoff

theorem regForm_off (cost : Nat) (f : Thread → Thread) :
    regForm g cost s f = .next (done s 4 1) :=
  guarded_off g 4 s _ hoff

theorem binary_off (d a b : BitVec 4) (cost : Nat) (f : Word → Word → Word) :
    binary g d a b cost s f = .next (done s 4 1) :=
  regForm_off hoff ..

theorem unary_off (d a : BitVec 4) (f : Word → Word) :
    unary g d a s f = .next (done s 4 1) :=
  regForm_off hoff ..

theorem predForm_off (p a b : BitVec 3) (f : Bool → Bool → Bool) :
    predForm g p a b s f = .next (done s 4 1) :=
  regForm_off hoff ..

theorem enqForm_off (d : BitVec 4) (v : BitVec 6) (mtx rel : Bool) :
    enqForm g d v mtx rel s = .next (done s 4 1) :=
  guarded_off g 4 s _ hoff

theorem waitForm_off (a : BitVec 4) (mtx : Bool) (f : State → Option Done → State) :
    waitForm g a mtx s f = .next (done s 4 1) :=
  guarded_off g 4 s _ hoff

theorem csrForm_off (d : Option (BitVec 4)) (n : Nat) (f : Word → Word) :
    csrForm g d n s f = .next (done s 4 1) :=
  guarded_off g 4 s _ hoff

theorem tjForm_off (form : Nat) (d a b : BitVec 4) :
    tjForm form g d a b s = .next (done s 4 1) :=
  guarded_off g 4 s _ hoff

theorem axCopyForm_off (push : Bool) (d : BitVec 4) (a : BitVec 3) (b : BitVec 4) :
    axCopyForm push g d a b s = .next (done s 4 1) :=
  guarded_off g 4 s _ hoff

theorem axAskForm_off (form : Nat) (d a b : BitVec 4) (bad : Nat → Bool) :
    axAskForm form g d a b bad s = .next (done s 4 1) :=
  guarded_off g 4 s _ hoff

theorem loadForm_off (bp : BitVec 3) (h : BitVec 5) (off : BitVec 24) (n : Nat) (f : Thread → Nat → Thread) :
    loadForm g bp h off n s f = .next (done s 8 1) :=
  guarded_off g 8 s _ hoff

theorem storeForm_off (bp : BitVec 3) (off : BitVec 24) (n : Nat) (data : Nat) :
    storeForm g bp off n data s = .next (done s 8 1) :=
  guarded_off g 8 s _ hoff

theorem atomForm_off (d : BitVec 4) (bp : BitVec 3) (nr sz : BitVec 1) (off : BitVec 24) (op : AluOp) :
    atomForm g d bp nr sz off op s = .next (done s 8 1) :=
  guarded_off g 8 s _ hoff

theorem ldtForm_off (d : BitVec 4) (bp : BitVec 3) (off : BitVec 24) (kind cw : Nat) (alignOk : Nat → Bool) :
    ldtForm g d bp off kind cw alignOk s = .next (done s 8 1) :=
  guarded_off g 8 s _ hoff

end

/-! ## A disabled form -/

/-- One case per family: the forms that are one `guarded` effect themselves, then those that share a form. An instruction of
no family has no guard. -/
theorem exec_disabled {i : Instr} {s : State} {g : BitVec 4} {len : Nat} (hi : guardLen i = some (g, len))
    (hoff : s.thr.enabled g = false) : exec i s = .next (done s len 1) := by
  cases i with
  | nop | halt | idle | trap | eret | bkpt | rdcyc | rdtime | lnch | l1inv | br | brl | jr | jrl | rdmv | rdms | tkdrop |
    tktst | rdmw | fence | fencee | acq | rel | send | waitm | pollm | mbind | munbind | bar | barx | garv | gwt | cstat |
    csrr | go | gohome | qpush | qpop | qtry | qpushv | qpopv | lda | str =>
    cases hi
    simp [execNop, execHalt, execIdle, execTrap, execEret, execBkpt, execRdcyc, execRdtime, execLnch, execL1inv, execBr,
      execBrl, execJr, execJrl, execRdmv, execRdms, execTkdrop, execTktst, execRdmw, execFence, execFencee, execAcq,
      execRel, execSend, execWaitm, execPollm, execMbind, execMunbind, execBar, execBarx, execGarv, execGwt, execCstat,
      execCsrr, execGo, execGohome, execQpush, execQpop, execQtry, execQpushv, execQpopv, execLda, execStr,
      ↓guarded_off _ _ _ _ hoff]
  | rdsig | lih | cmp | cmpi | prdw | pwrw | padd | padds | paddu | psub | pmov | paddi =>
    cases hi
    simp [execRdsig, execLih, execCmp, execCmpi, execPrdw, execPwrw, execPadd, execPadds, execPaddu, execPsub, execPmov,
      execPaddi, ↓regForm_off hoff]
  | add | sub | and | or | xor | andn | shl | shr | sar | rol | mul | mulh | mulhu | div | divu | rem | remu | min | max |
    minu | maxu | slt | sltu =>
    cases hi
    simp [execAdd, execSub, execAnd, execOr, execXor, execAndn, execShl, execShr, execSar, execRol, execMul, execMulh,
      execMulhu, execDiv, execDivu, execRem, execRemu, execMin, execMax, execMinu, execMaxu, execSlt, execSltu,
      ↓binary_off hoff]
  | clz | ctz | popc | brev | sextb | sexth | zextb | zexth | mov | addi | andi | ori | xori | shli | shri | sari | roli =>
    cases hi
    simp [execClz, execCtz, execPopc, execBrev, execSextb, execSexth, execZextb, execZexth, execMov, execAddi, execAndi,
      execOri, execXori, execShli, execShri, execSari, execRoli, ↓unary_off hoff]
  | pand | por | pxor | pandn =>
    cases hi
    simp [execPand, execPor, execPxor, execPandn, ↓predForm_off hoff]
  | enqm | enqmR | enqc | enqcR =>
    cases hi
    simp [execEnqm, execEnqmR, execEnqc, execEnqcR, ↓enqForm_off hoff]
  | mwait | cwait =>
    cases hi
    simp [execMwait, execCwait, ↓waitForm_off hoff]
  | csrw | csrs | csrc =>
    cases hi
    simp [execCsrw, execCsrs, execCsrc, ↓csrForm_off hoff]
  | tjins | tjsmp | tjpri | tjevt | tjver | tjqry | tjget =>
    cases hi
    simp [execTjins, execTjsmp, execTjpri, execTjevt, execTjver, execTjqry, execTjget, ↓tjForm_off hoff]
  | axpush | axpop =>
    cases hi
    simp [execAxpush, execAxpop, ↓axCopyForm_off hoff]
  | axdepth | axdrop =>
    cases hi
    simp [execAxdepth, execAxdrop, ↓axAskForm_off hoff]
  | ldb | ldbu | ldh | ldhu | ldw | ldd =>
    cases hi
    simp [execLdb, execLdbu, execLdh, execLdhu, execLdw, execLdd, ↓loadForm_off hoff]
  | stb | sth | stw | std =>
    cases hi
    simp [execStb, execSth, execStw, execStd, ↓storeForm_off hoff]
  | aadd | amin | amax | aminu | amaxu | aand | aor | axor | aswp | acas | aaddf =>
    cases hi
    simp [execAadd, execAmin, execAmax, execAminu, execAmaxu, execAand, execAor, execAxor, execAswp, execAcas, execAaddf,
      ↓atomForm_off hoff]
  | ldtL | ldtQ | ldtS | ldtC =>
    cases hi
    simp [execLdtL, execLdtQ, execLdtS, execLdtC, ↓ldtForm_off hoff]
  | _ => cases hi

/-- Settles O7: the guard's value read off the predicate's bit, and a disabled form of every family passes. -/
theorem disabledPasses : Obligations.DisabledPasses :=
  ⟨enabled_eq, fun _ _ _ _ => exec_disabled⟩

end Sys2Proof.Claims
end

section
/-! The ALU forms of three registers (R170) and the divide forms (R171). Each is one `binary` effect; what remains is that
its operation on words has the value that the rule gives in integers. -/

namespace Sys2Proof.Claims

open Sys2Proof.Machine

/-! ## The values of R170 in integers -/

theorem add_eq_ofNat (a b : Word) : a + b = BitVec.ofNat 32 (a.toNat + b.toNat) := by
  simp [BitVec.ofNat_add]

theorem sub_eq_ofInt (a b : Word) : a - b = BitVec.ofInt 32 (a.toInt - b.toInt) := by
  rw [← BitVec.toInt_inj, BitVec.toInt_sub, BitVec.toInt_ofInt]

theorem mul_eq_ofNat (a b : Word) : a * b = BitVec.ofNat 32 (a.toNat * b.toNat) := by
  simp [BitVec.ofNat_mul]

theorem shiftLeft_eq_ofNat (a : Word) (n : Nat) : a <<< n = BitVec.ofNat 32 (a.toNat * 2 ^ n) := by
  rw [← BitVec.toNat_inj, BitVec.toNat_shiftLeft, BitVec.toNat_ofNat, Nat.shiftLeft_eq]

theorem ushiftRight_eq_ofNat (a : Word) (n : Nat) : a >>> n = BitVec.ofNat 32 (a.toNat / 2 ^ n) := by
  rw [← Nat.shiftRight_eq_div_pow, ← BitVec.toNat_ushiftRight, BitVec.ofNat_toNat, BitVec.setWidth_eq]

theorem sshiftRight_eq_ofInt (a : Word) (n : Nat) : a.sshiftRight n = BitVec.ofInt 32 (a.toInt / 2 ^ n) := by
  simp [BitVec.sshiftRight, Int.shiftRight_eq_div_pow]

/-- The two parts that a rotation joins share no bit, so that their union is their sum. -/
theorem rotl32_eq_ofNat (a : Word) (n : Nat) (hn : n < 32) :
    rotl32 a n = BitVec.ofNat 32 (a.toNat * 2 ^ n + a.toNat / 2 ^ (32 - n)) := by
  have hdisj : a <<< n &&& a >>> (32 - n) = 0#32 := by
    ext i hi
    simp only [BitVec.getElem_and, BitVec.getElem_shiftLeft, BitVec.getElem_ushiftRight, BitVec.getElem_zero]
    by_cases h : i < n
    · simp [h]
    · simp [BitVec.getLsbD_of_ge a (32 - n + i) (by omega)]
  rw [rotl32, Nat.mod_eq_of_lt hn, BitVec.rotateLeft_def, Nat.mod_eq_of_lt hn,
    ← BitVec.add_eq_or_of_and_eq_zero _ _ hdisj, BitVec.ofNat_add, ← shiftLeft_eq_ofNat, ← ushiftRight_eq_ofNat]

theorem hiWord_ofInt (z : Int) : hiWord (BitVec.ofInt 64 z) = BitVec.ofInt 32 (z / 2 ^ 32) := by
  apply BitVec.eq_of_toNat_eq
  simp only [hiWord, BitVec.extractLsb'_toNat, BitVec.toNat_ofInt, Nat.shiftRight_eq_div_pow]
  omega

theorem hiWord_ofNat (n : Nat) : hiWord (BitVec.ofNat 64 n) = BitVec.ofNat 32 (n / 2 ^ 32) := by
  apply BitVec.eq_of_toNat_eq
  simp only [hiWord, BitVec.extractLsb'_toNat, BitVec.toNat_ofNat, Nat.shiftRight_eq_div_pow]
  omega

theorem mulHighS_eq_ofInt (a b : Word) : mulHighS a b = BitVec.ofInt 32 (a.toInt * b.toInt / 2 ^ 32) := by
  rw [← hiWord_ofInt, BitVec.ofInt_mul]
  rfl

theorem mulHighU_eq_ofNat (a b : Word) : mulHighU a b = BitVec.ofNat 32 (a.toNat * b.toNat / 2 ^ 32) := by
  rw [← hiWord_ofNat, BitVec.ofNat_mul, BitVec.ofNat_toNat, BitVec.ofNat_toNat, mulHighU]

/-! ## The values of R171 in integers -/

theorem sdiv_eq_ofInt (a b : Word) : a.sdiv b = BitVec.ofInt 32 (a.toInt.tdiv b.toInt) := by
  rw [← BitVec.toInt_inj, BitVec.toInt_sdiv, BitVec.toInt_ofInt]

theorem srem_eq_ofInt (a b : Word) : a.srem b = BitVec.ofInt 32 (a.toInt - a.toInt.tdiv b.toInt * b.toInt) := by
  rw [Int.mul_comm, ← Int.tmod_def, ← BitVec.toInt_srem, BitVec.ofInt_toInt]

theorem udiv_eq_ofNat (a b : Word) : a / b = BitVec.ofNat 32 (a.toNat / b.toNat) := by
  rw [← BitVec.toNat_udiv, BitVec.ofNat_toNat, BitVec.setWidth_eq]

theorem umod_eq_ofNat (a b : Word) : a % b = BitVec.ofNat 32 (a.toNat - a.toNat / b.toNat * b.toNat) := by
  rw [← Nat.mod_eq_sub_div_mul, ← BitVec.toNat_umod, BitVec.ofNat_toNat, BitVec.setWidth_eq]

theorem divSigned_eq (a b : Word) : divSigned a b = (quotient true a b, remainder true a b) := by
  by_cases hb : b = 0#32
  · simp [divSigned, quotient, remainder, hb]
  by_cases ho : a = 0x80000000#32 ∧ b = 0xFFFFFFFF#32
  · simp [divSigned, quotient, remainder, ho]
  · simp [divSigned, quotient, remainder, hb, ho, sdiv_eq_ofInt, srem_eq_ofInt]

theorem divUnsigned_eq (a b : Word) : divUnsigned a b = (quotient false a b, remainder false a b) := by
  by_cases hb : b = 0#32
  · simp [divUnsigned, quotient, remainder, hb]
  · simp [divUnsigned, quotient, remainder, hb, udiv_eq_ofNat, umod_eq_ofNat]

/-! ## The forms as `binary` effects -/

/-- An enabled form of two sources retires with sD written, and changes nothing else. -/
theorem binary_done {s : State} {g : BitVec 4} (h : on s g) (d a b : BitVec 4) (cost : Nat) (f : Word → Word → Word) :
    binary g d a b cost s f = .next (done (withThr s (s.thr.ws d (f (s.thr.rs a) (s.thr.rs b)))) 4 cost) :=
  regForm_done g cost s _ h rfl

theorem binary_congr {cost : Nat} {f v : Word → Word → Word} (hf : ∀ x y, f x y = v x y) (g d a b : BitVec 4)
    (s : State) : binary g d a b cost s f = binary g d a b cost s v := by
  rw [show f = v from funext fun x => funext (hf x)]

/-- Each form of the list is a `binary` effect of one issue cycle with the value of its row (R170), whatever its guard and
the single-step bit are. -/
theorem exec_aluThree : ∀ p ∈ aluThree, ∀ (g d a b : BitVec 4) (s : State),
    exec (p.1 g d a b) s = binary g d a b 1 s p.2 := by
  simp only [aluThree, List.forall_mem_cons, exec_add, exec_sub, exec_and, exec_or, exec_xor, exec_andn, exec_shl,
    exec_shr, exec_sar, exec_rol, exec_mul, exec_mulh, exec_mulhu, exec_min, exec_max, exec_minu, exec_maxu, exec_slt,
    exec_sltu, execAdd, execSub, execAnd, execOr, execXor, execAndn, execShl, execShr, execSar, execRol, execMul,
    execMulh, execMulhu, execMin, execMax, execMinu, execMaxu, execSlt, execSltu, implies_true, true_and]
  -- AND, OR, XOR and ANDN are closed: their rows are the model's own operations.
  refine ⟨?add, ?sub, ?shl, ?shr, ?sar, ?rol, ?mul, ?mulh, ?mulhu, ?min, ?max, ?minu, ?maxu, ?slt, ?sltu,
    List.forall_mem_nil _⟩
  case add => exact binary_congr add_eq_ofNat
  case sub => exact binary_congr sub_eq_ofInt
  case shl => exact binary_congr fun x y => shiftLeft_eq_ofNat x (shamt y)
  case shr => exact binary_congr fun x y => ushiftRight_eq_ofNat x (shamt y)
  case sar => exact binary_congr fun x y => sshiftRight_eq_ofInt x (shamt y)
  case rol => exact binary_congr fun x y => rotl32_eq_ofNat x (shamt y) (Nat.mod_lt _ (by decide))
  case mul => exact binary_congr mul_eq_ofNat
  case mulh => exact binary_congr mulHighS_eq_ofInt
  case mulhu => exact binary_congr mulHighU_eq_ofNat
  case min | max => exact binary_congr fun _ _ => ite_congr (propext BitVec.sle_iff_toInt_le) (fun _ => rfl) fun _ => rfl
  case minu | maxu => exact binary_congr fun _ _ => ite_congr (propext BitVec.ule_iff_toNat_le) (fun _ => rfl) fun _ => rfl
  case slt => exact binary_congr fun _ _ => ite_congr (propext BitVec.slt_iff_toInt_lt) (fun _ => rfl) fun _ => rfl
  case sltu => exact binary_congr fun _ _ => ite_congr (propext BitVec.ult_iff_toNat_lt) (fun _ => rfl) fun _ => rfl

/-- Settles O8: each form is a `binary` effect with the value of its rule, and a `binary` effect that is enabled and not
single-stepped retires. (`aluThree` itself names the list of forms.) -/
theorem aluThreeForms : Obligations.AluThree := by
  refine ⟨fun p hp s g d a b h => ?alu, fun s g d a b h => ?div⟩
  case alu => rw [exec_aluThree p hp, binary_done h]
  case div =>
    simp only [exec_div, exec_divu, exec_rem, exec_remu, execDiv, execDivu, execRem, execRemu, divSigned_eq,
      divUnsigned_eq, binary_done h, and_self]

end Sys2Proof.Claims
end
